-- ==== Sys2Proof/Word.lean ====
section
/-!
DEFINITION. The word types of the PT440: what the manual treats as bits.
Everything the manual counts in units (milliseconds, platen counts, sweeps) is a `Nat`.
-/
namespace Sys2Proof

/-- One byte of a request or response frame (R173). -/
abbrev Byte := BitVec 8

/-- A revolution number: 32 bits, wrapping (R49, R51). -/
abbrev Rev := BitVec 32

/-- A move number: 0 to 255, wrapping (R2, R11). -/
abbrev MoveNo := BitVec 8

end Sys2Proof
end

