-- ==== Sys2Proof/Config.lean ====
section
/-!
DEFINITION. What the part fixes (the sizes the manual gives its stores) and the free values the manual leaves open.
-/
namespace Sys2Proof

/-- Greatest number of step records in a list (R19). -/
def Config.listCapacity : Nat := 16

/-- Greatest length of a station wait list (R3). -/
def Config.stationWaiters : Nat := 3

/-- Greatest number of saved contexts (R116). -/
def Config.stackDepth : Nat := 2

/-- Greatest number of result records in one response (R175). -/
def Config.resultsPerRead : Nat := 7

/-- Greatest body length of a request frame (R164, R165). -/
def Config.maxRequestBody : Nat := 60

/-- Upper end of a 32-bit count that saturates (R153, R154, R178). -/
def Config.max32 : Nat := 4294967295

/-- Upper end of a 16-bit count that saturates (R97, R137, R153). -/
def Config.max16 : Nat := 65535

/-- A byte the manual does not state, drawn by a counter of State: the phase byte of HEAD_READ for a head whose step
context is lost (R47, R116; assumption log entry 10). Nothing in Lean can evaluate it. -/
opaque Config.freeByte : Nat → Byte

end Sys2Proof
end

