-- ==== Sys2Proof/Syntax.lean ====
section
/-!
DEFINITION. The names of the module's hardware and the commands of spec/opcode_table.json, one constructor each.
A request row carries the port its frame came in on and the body bytes of the frame (R164, R173), so that permission,
length, range and state (R165) are all decided by its meaning; a field event carries what the field line says.
-/
namespace Sys2Proof

/-- The four head carriers (00_scope.md). -/
inductive HeadId where
  | h1 | h2 | h3 | h4
  deriving DecidableEq, Repr

/-- The three platens; nozzle Nn and conditioner Cn carry the number of their platen (00_scope.md). -/
inductive PlatenId where
  | p1 | p2 | p3
  deriving DecidableEq, Repr

/-- Nozzle Nn stands over platen Pn (R77). -/
abbrev NozzleId := PlatenId

/-- The six chemistry supply lines. -/
inductive LineId where
  | l1 | l2 | l3 | l4 | l5 | l6
  deriving DecidableEq, Repr

/-- The five stations (R1). -/
inductive StationId where
  | load
  | platen (p : PlatenId)
  | rinse
  deriving DecidableEq, Repr

/-- The five pressure zones of a head (R66). -/
inductive ZoneId where
  | z1 | z2 | z3 | z4 | ring
  deriving DecidableEq, Repr

/-- The three master ports (R167). -/
inductive Port where
  | recipe | endpoint | transfer
  deriving DecidableEq, Repr

/-- Direction of a platen count (R50). -/
inductive Rotation where
  | forward | reverse
  deriving DecidableEq, Repr

/-- Direction of an arm count, and of commanded arm travel: OUT or IN (R135, R137). -/
inductive Travel where
  | outward | inward
  deriving DecidableEq, Repr

/-- Level of the module interlock input (R128). -/
inductive Level where
  | low | high
  deriving DecidableEq, Repr

/-- The commands: one constructor per row of spec/opcode_table.json. -/
inductive Instr where
  | listWrite (p : Port) (body : List Byte)
  | listClear (p : Port) (body : List Byte)
  | listRead (p : Port) (body : List Byte)
  | start (p : Port) (body : List Byte)
  | hold (p : Port) (body : List Byte)
  | resume (p : Port) (body : List Byte)
  | abort (p : Port) (body : List Byte)
  | amend (p : Port) (body : List Byte)
  | flagSet (p : Port) (body : List Byte)
  | placeHead (p : Port) (body : List Byte)
  | headConfig (p : Port) (body : List Byte)
  | platenConfig (p : Port) (body : List Byte)
  | lineConfig (p : Port) (body : List Byte)
  | moduleConfig (p : Port) (body : List Byte)
  | serviceSet (p : Port) (body : List Byte)
  | padInstall (p : Port) (body : List Byte)
  | padRestore (p : Port) (body : List Byte)
  | diskInstall (p : Port) (body : List Byte)
  | conditionNow (p : Port) (body : List Byte)
  | resumeModule (p : Port) (body : List Byte)
  | restart (p : Port) (body : List Byte)
  | beatRead (p : Port) (body : List Byte)
  | revokeClaim (p : Port) (body : List Byte)
  | mark (p : Port) (body : List Byte)
  | qualRead (p : Port) (body : List Byte)
  | claim (p : Port) (body : List Byte)
  | placed (p : Port) (body : List Byte)
  | removed (p : Port) (body : List Byte)
  | release (p : Port) (body : List Byte)
  | headRead (p : Port) (body : List Byte)
  | stationRead (p : Port) (body : List Byte)
  | lineRead (p : Port) (body : List Byte)
  | resultRead (p : Port) (body : List Byte)
  | padRead (p : Port) (body : List Byte)
  | noticeRead (p : Port) (body : List Byte)
  | noticeAck (p : Port) (body : List Byte)
  | noticeMask (p : Port) (body : List Byte)
  | unknownRequest (p : Port) (code : Byte) (body : List Byte)
  | windowClosedEarly (p : Port)
  | platenCount (p : PlatenId) (d : Rotation)
  | indexPulse (p : PlatenId)
  | armCount (p : PlatenId) (d : Travel)
  | inBandChange (h : HeadId) (z : ZoneId) (inBand : Bool)
  | supplyReadyChange (l : LineId) (present : Bool)
  | moveDone (h : HeadId) (num : MoveNo)
  | moveFault (h : HeadId) (num : MoveNo)
  | moveLimitExpiry (h : HeadId)
  | interlockChange (v : Level)
  | vacuumChange (h : HeadId) (wafer : Bool)
  | coldReset (selected : List Port)
  | stallExpiry (p : PlatenId)
  | bandTimeout (h : HeadId)
  | lineRecovery (l : LineId)
  | dwellEnd (h : HeadId)
  | gapEnd (h : HeadId)
  | accumulatorLimit (p : PlatenId)
  | overpolishTargetMet (p : PlatenId)
  | settleEnd (p : PlatenId)
  | endpointConfirmation (p : PlatenId)
  | runComplete (p : PlatenId)
  | padWarn (p : PlatenId)
  | padRetired (p : PlatenId)
  | diskSpent (p : PlatenId)
  | claimOverdue (h : HeadId)
  | beat
  | warmRestart
  deriving DecidableEq, Repr

/-- The codes that name a request (R167): every other byte names none. -/
def requestCodes : List Nat :=
  [1, 2, 3, 4, 5, 6, 7, 8, 9, 10, 11, 12, 13, 14, 15, 16, 17, 18, 19, 20, 21, 22, 23] ++
  [32, 33, 40, 41, 42, 43, 48, 49, 50, 51, 52, 53, 54, 55]

end Sys2Proof
end

