-- ==== Sys2Proof/Decode.lean ====
section
/-!
DEFINITION. From bits to commands. The rows of spec/opcode_table.json give no bits (98_reader.md counts no row with fixed
bits), so no word spells a command; the bytes of a chip-select window spell a request by the codes and the frame of the
manual (R164, R167, R173).
-/
namespace Sys2Proof

/-- The command a word of the table's bits spells: no row gives bits. -/
def decodeTableWord (_nbits _w : Nat) : Option Instr := none

/-- The request that a code names, on a port and with a body (R167): byte 0 of the request frame. -/
def requestOf (q : Port) (code : Byte) (body : List Byte) : Instr :=
  match code.toNat with
  | 1 => .listWrite q body
  | 2 => .listClear q body
  | 3 => .listRead q body
  | 4 => .start q body
  | 5 => .hold q body
  | 6 => .resume q body
  | 7 => .abort q body
  | 8 => .amend q body
  | 9 => .flagSet q body
  | 10 => .placeHead q body
  | 11 => .headConfig q body
  | 12 => .platenConfig q body
  | 13 => .lineConfig q body
  | 14 => .moduleConfig q body
  | 15 => .serviceSet q body
  | 16 => .padInstall q body
  | 17 => .padRestore q body
  | 18 => .diskInstall q body
  | 19 => .conditionNow q body
  | 20 => .resumeModule q body
  | 21 => .restart q body
  | 22 => .beatRead q body
  | 23 => .revokeClaim q body
  | 32 => .mark q body
  | 33 => .qualRead q body
  | 40 => .claim q body
  | 41 => .placed q body
  | 42 => .removed q body
  | 43 => .release q body
  | 48 => .headRead q body
  | 49 => .stationRead q body
  | 50 => .lineRead q body
  | 51 => .resultRead q body
  | 52 => .padRead q body
  | 53 => .noticeRead q body
  | 54 => .noticeAck q body
  | 55 => .noticeMask q body
  | _ => .unknownRequest q code body

/-- The code of a request (R167); none for a command that is no request. -/
def Instr.code? : Instr → Option Nat
  | .listWrite _ _ => some 1
  | .listClear _ _ => some 2
  | .listRead _ _ => some 3
  | .start _ _ => some 4
  | .hold _ _ => some 5
  | .resume _ _ => some 6
  | .abort _ _ => some 7
  | .amend _ _ => some 8
  | .flagSet _ _ => some 9
  | .placeHead _ _ => some 10
  | .headConfig _ _ => some 11
  | .platenConfig _ _ => some 12
  | .lineConfig _ _ => some 13
  | .moduleConfig _ _ => some 14
  | .serviceSet _ _ => some 15
  | .padInstall _ _ => some 16
  | .padRestore _ _ => some 17
  | .diskInstall _ _ => some 18
  | .conditionNow _ _ => some 19
  | .resumeModule _ _ => some 20
  | .restart _ _ => some 21
  | .beatRead _ _ => some 22
  | .revokeClaim _ _ => some 23
  | .mark _ _ => some 32
  | .qualRead _ _ => some 33
  | .claim _ _ => some 40
  | .placed _ _ => some 41
  | .removed _ _ => some 42
  | .release _ _ => some 43
  | .headRead _ _ => some 48
  | .stationRead _ _ => some 49
  | .lineRead _ _ => some 50
  | .resultRead _ _ => some 51
  | .padRead _ _ => some 52
  | .noticeRead _ _ => some 53
  | .noticeAck _ _ => some 54
  | .noticeMask _ _ => some 55
  | .unknownRequest _ c _ => some c.toNat
  | .windowClosedEarly _ | .platenCount _ _ | .indexPulse _ | .armCount _ _ | .inBandChange _ _ _
  | .supplyReadyChange _ _ | .moveDone _ _ | .moveFault _ _ | .moveLimitExpiry _ | .interlockChange _
  | .vacuumChange _ _ | .coldReset _ | .stallExpiry _ | .bandTimeout _ | .lineRecovery _ | .dwellEnd _ | .gapEnd _
  | .accumulatorLimit _ | .overpolishTargetMet _ | .settleEnd _ | .endpointConfirmation _ | .runComplete _
  | .padWarn _ | .padRetired _ | .diskSpent _ | .claimOverdue _ | .beat | .warmRestart => none

/-- The bytes of a window hold its whole request frame (R164): the code, the body length n and n body bytes, or the code and
a body length above 60, after which no body is read. -/
def frameWhole (bytes : List Byte) : Bool :=
  match bytes with
  | _ :: n :: rest => decide (Config.maxRequestBody < n.toNat) || decide (n.toNat ≤ rest.length)
  | _ => false

/-- The command that the bytes of one chip-select window make on a port (R164, R173): byte 0 is the code, byte 1 the body
length n. With n above 60 no body byte is read and the announced length alone counts (log entry 29); a window that closes
before its frame is complete carries no request; bytes after the frame are ignored. -/
def windowCommand (q : Port) (bytes : List Byte) : Instr :=
  match bytes with
  | code :: n :: rest =>
    if Config.maxRequestBody < n.toNat then requestOf q code (List.replicate n.toNat 0)
    else if rest.length < n.toNat then .windowClosedEarly q
    else requestOf q code (rest.take n.toNat)
  | _ => .windowClosedEarly q

end Sys2Proof
end

