-- ==== Sys2Proof/Machine/State.lean ====
section
/-!
DEFINITION. The state of the PT440 as plain data, block by block as 00_scope.md divides it, and the state after cold
reset. A value the manual keeps in step with other state (the selector of a nozzle, PADWARN, the alert line) is
computed by a named view in Machine/ and stored once (assumption log entry 17).
-/
namespace Sys2Proof.Machine

/-! ## Tables indexed by the module's names -/

/-- One entry per head. -/
structure PerHead (α : Type) where
  h1 : α
  h2 : α
  h3 : α
  h4 : α
  deriving DecidableEq, Repr

/-- One entry per platen, nozzle or conditioner. -/
structure PerPlaten (α : Type) where
  p1 : α
  p2 : α
  p3 : α
  deriving DecidableEq, Repr

/-- One entry per chemistry line. -/
structure PerLine (α : Type) where
  l1 : α
  l2 : α
  l3 : α
  l4 : α
  l5 : α
  l6 : α
  deriving DecidableEq, Repr

/-- One entry per station. -/
structure PerStation (α : Type) where
  load : α
  platen : PerPlaten α
  rinse : α
  deriving DecidableEq, Repr

/-- One entry per pressure zone. -/
structure PerZone (α : Type) where
  z1 : α
  z2 : α
  z3 : α
  z4 : α
  ring : α
  deriving DecidableEq, Repr

/-- One entry per master port. -/
structure PerPort (α : Type) where
  recipe : α
  endpoint : α
  transfer : α
  deriving DecidableEq, Repr

def PerHead.get {α : Type} (t : PerHead α) : HeadId → α
  | .h1 => t.h1
  | .h2 => t.h2
  | .h3 => t.h3
  | .h4 => t.h4

def PerHead.set {α : Type} (t : PerHead α) (h : HeadId) (x : α) : PerHead α :=
  match h with
  | .h1 => { t with h1 := x }
  | .h2 => { t with h2 := x }
  | .h3 => { t with h3 := x }
  | .h4 => { t with h4 := x }

def PerHead.all {α : Type} (x : α) : PerHead α := ⟨x, x, x, x⟩

def PerPlaten.get {α : Type} (t : PerPlaten α) : PlatenId → α
  | .p1 => t.p1
  | .p2 => t.p2
  | .p3 => t.p3

def PerPlaten.set {α : Type} (t : PerPlaten α) (p : PlatenId) (x : α) : PerPlaten α :=
  match p with
  | .p1 => { t with p1 := x }
  | .p2 => { t with p2 := x }
  | .p3 => { t with p3 := x }

def PerPlaten.all {α : Type} (x : α) : PerPlaten α := ⟨x, x, x⟩

def PerLine.get {α : Type} (t : PerLine α) : LineId → α
  | .l1 => t.l1
  | .l2 => t.l2
  | .l3 => t.l3
  | .l4 => t.l4
  | .l5 => t.l5
  | .l6 => t.l6

def PerLine.set {α : Type} (t : PerLine α) (l : LineId) (x : α) : PerLine α :=
  match l with
  | .l1 => { t with l1 := x }
  | .l2 => { t with l2 := x }
  | .l3 => { t with l3 := x }
  | .l4 => { t with l4 := x }
  | .l5 => { t with l5 := x }
  | .l6 => { t with l6 := x }

def PerLine.all {α : Type} (x : α) : PerLine α := ⟨x, x, x, x, x, x⟩

def PerStation.get {α : Type} (t : PerStation α) : StationId → α
  | .load => t.load
  | .platen p => t.platen.get p
  | .rinse => t.rinse

def PerStation.set {α : Type} (t : PerStation α) (d : StationId) (x : α) : PerStation α :=
  match d with
  | .load => { t with load := x }
  | .platen p => { t with platen := t.platen.set p x }
  | .rinse => { t with rinse := x }

def PerZone.get {α : Type} (t : PerZone α) : ZoneId → α
  | .z1 => t.z1
  | .z2 => t.z2
  | .z3 => t.z3
  | .z4 => t.z4
  | .ring => t.ring

def PerZone.set {α : Type} (t : PerZone α) (z : ZoneId) (x : α) : PerZone α :=
  match z with
  | .z1 => { t with z1 := x }
  | .z2 => { t with z2 := x }
  | .z3 => { t with z3 := x }
  | .z4 => { t with z4 := x }
  | .ring => { t with ring := x }

def PerZone.all {α : Type} (x : α) : PerZone α := ⟨x, x, x, x, x⟩

def PerPort.get {α : Type} (t : PerPort α) : Port → α
  | .recipe => t.recipe
  | .endpoint => t.endpoint
  | .transfer => t.transfer

def PerPort.set {α : Type} (t : PerPort α) (p : Port) (x : α) : PerPort α :=
  match p with
  | .recipe => { t with recipe := x }
  | .endpoint => { t with endpoint := x }
  | .transfer => { t with transfer := x }

def headIds : List HeadId := [.h1, .h2, .h3, .h4]
def platenIds : List PlatenId := [.p1, .p2, .p3]
def lineIds : List LineId := [.l1, .l2, .l3, .l4, .l5, .l6]
def stationIds : List StationId := [.load, .platen .p1, .platen .p2, .platen .p3, .rinse]

/-! ## Station Table (chapter 1) -/

/-- Who stands at a station (R1): a head, or the conditioner of that platen. -/
inductive Holder where
  | head (h : HeadId)
  | conditioner
  deriving DecidableEq, Repr

/-- A station record (R1). -/
structure Station where
  holder : Option Holder
  inService : Bool
  wait : List HeadId
  deriving DecidableEq, Repr

/-- Move status (R2); MOVING carries the move limit timer and the limit in force for this move (R2, R11). -/
inductive MoveStatus where
  | moving (timer limit : Nat)
  | halted
  | deferred
  deriving DecidableEq, Repr

/-- Where the carrier is (R2). -/
inductive Position where
  | unplaced
  | stands (d : StationId)
  | inTransit (origin destination : StationId) (status : MoveStatus)
  deriving DecidableEq, Repr

/-- A message to the carrier drive (01 section 1.4). -/
inductive DriveMessage where
  | move (destination : StationId) (num : MoveNo)
  | halt
  deriving DecidableEq, Repr

/-- What the Station Table holds for a head (R2), its move limit (R74) and the messages sent to its carrier drive,
oldest first (R11, R14; assumption log entry 14). -/
structure Carrier where
  position : Position
  moveNumber : MoveNo
  moveLimit : Nat
  sent : List DriveMessage
  deriving DecidableEq, Repr

/-! ## Head Sequencer (chapters 2 and 7) -/

/-- A flag a guard can name (R19, R22). -/
inductive FlagName where
  | ep | epmiss | padwarn | u1 | u2
  deriving DecidableEq, Repr

/-- Sense of a guard (R19, R23). -/
inductive GuardSense where
  | skipIfSet | skipIfClear
  deriving DecidableEq, Repr

structure Guard where
  flag : FlagName
  sense : GuardSense
  deriving DecidableEq, Repr

/-- The two flags a recipe owns (R22). -/
inductive UserFlag where
  | u1 | u2
  deriving DecidableEq, Repr

/-- A completion action: the named flag is given the value (R19, R23). -/
structure FlagAction where
  flag : UserFlag
  value : Bool
  deriving DecidableEq, Repr

/-- Unit in which a POLISH step accrues (R19). -/
inductive StepClock where
  | time | counts | revs
  deriving DecidableEq, Repr

/-- How a POLISH step ends (R19). -/
inductive Termination where
  | limit | endpoint
  deriving DecidableEq, Repr

/-- Chemistry of a POLISH step: a line, RINSE or NONE (R19). -/
inductive StepLine where
  | line (l : LineId)
  | rinse
  | none
  deriving DecidableEq, Repr

/-- The fields of a POLISH record (R19). -/
structure PolishRecord where
  clock : StepClock
  limit : Nat
  termination : Termination
  settle : Nat
  opFixed : Nat
  opPercent : Nat
  gap : Nat
  line : StepLine
  flow : Nat
  speed : Nat
  gapPressure : Nat
  zones : PerZone Nat
  inSitu : Bool
  deriving DecidableEq, Repr

inductive StepKind where
  | move (destination : StationId)
  | polish (r : PolishRecord)
  | dwell (duration : Nat)
  deriving DecidableEq, Repr

/-- A step record (R19). -/
structure StepRecord where
  guard : Option Guard
  action : Option FlagAction
  kind : StepKind
  deriving DecidableEq, Repr

/-- Phase of a step (R29 to R36, R176). -/
inductive Phase where
  | waitStation | inTransit | acquireLine | keepoutWait | gap | polish | overpolish | dwell
  deriving DecidableEq, Repr

/-- The capture taken at a confirmation (R36, R105). -/
structure Capture where
  revolution : Rev
  position : Nat
  accrued : Nat
  deriving DecidableEq, Repr

/-- Flags of a result record (R40). -/
structure ResultFlags where
  gapExtended : Bool
  clamped : Bool
  amendLoaded : Bool
  amendDropped : Bool
  noInsitu : Bool
  deriving DecidableEq, Repr

def ResultFlags.clear : ResultFlags := ⟨false, false, false, false, false⟩

/-- How a step ended (R40). -/
inductive StepOutcome where
  | completed | endpoint | epMiss | skipped | aborted | lost | waferLost | refusedPlace | refusedNoWafer
  deriving DecidableEq, Repr

/-- A result record (R40). -/
structure ResultRecord where
  index : Nat
  outcome : StepOutcome
  flags : ResultFlags
  accrued : Nat
  overpolish : Nat
  capture : Option Capture
  interventions : Nat
  startBeat : Nat
  endBeat : Nat
  platen : Option PlatenId
  line : StepLine
  deriving DecidableEq, Repr

/-- A confirmed endpoint: the capture and the overpolish target computed from it (R36). -/
structure Confirmed where
  capture : Capture
  target : Nat
  deriving DecidableEq, Repr

/-- The step working record (R24, R115). `record` is the step list's record the step was opened on (log entry 24);
`station` is the resume station; `resume` is the resume phase while the step moves back (R115, R123); `resuming` says
that the step came from a saved context (R79); `keptLine` that the previous executed step was a POLISH on this platen
with this same line (R34, R84). `accrued`, `limit` hold what the Platen Timebase had when the step was suspended (R58),
`opFixed`, `opPercent` the values in force (R62). -/
structure Working where
  index : Nat
  record : StepRecord
  phase : Option Phase
  resume : Option Phase
  station : StationId
  startBeat : Nat
  interventions : Nat
  flags : ResultFlags
  gapRemaining : Nat
  dwellRemaining : Nat
  confirmed : Option Confirmed
  accrued : Nat
  limit : Nat
  opFixed : Nat
  opPercent : Nat
  platen : Option PlatenId
  resuming : Bool
  keptLine : Bool
  deriving DecidableEq, Repr

/-- The intervention classes 1 to 4 (R112). -/
inductive Intervention where
  | rinse | lift | park | trip
  deriving DecidableEq, Repr

/-- The causes of interventions (R112). -/
inductive Cause where
  | lineFault (l : LineId)
  | holdRinse
  | pressureBand
  | platenStall
  | platenReverse
  | holdLift
  | holdPark
  | interlock
  deriving DecidableEq, Repr

/-- Where a current PARK stands (R112, R119). -/
inductive ParkProgress where
  | queued | moving | atRinse | inPlace
  deriving DecidableEq, Repr

/-- The current activity of a head (R112). -/
inductive Activity where
  | step (w : Working)
  | intervention (c : Intervention) (causes : List Cause) (progress : Option ParkProgress)
  deriving DecidableEq, Repr

/-- The activity a context saves (R115). -/
inductive Saved where
  | step (w : Working)
  | intervention (c : Intervention) (causes : List Cause)
  deriving DecidableEq, Repr

/-- A saved context (R115); `transit` is the position when the head was IN_TRANSIT. -/
structure Context where
  saved : Saved
  transit : Option Position
  deriving DecidableEq, Repr

/-- The lost step record (R116). It is present exactly while the lost marker is set. -/
structure LostStep where
  index : Nat
  startBeat : Nat
  interventions : Nat
  flags : ResultFlags
  accrued : Nat
  overpolish : Nat
  platen : Option PlatenId
  line : StepLine
  deriving DecidableEq, Repr

/-- Final halt reasons (R26). -/
inductive FinalReason where
  | refusedPlace | refusedNoWafer | waferLost | lost
  deriving DecidableEq, Repr

/-- Halt reasons (R24 to R26). -/
inductive HaltReason where
  | cycle | stationUnavailable | moveFault
  | final (r : FinalReason)
  deriving DecidableEq, Repr

/-- End state of a CLOSING head (R24, R26). -/
inductive EndState where
  | idle
  | halted (r : FinalReason)
  deriving DecidableEq, Repr

/-- Head state (R24). A head HALTED(MOVE_FAULT) may keep a closing purpose (R26). -/
inductive HeadState where
  | unplaced
  | idle
  | running
  | closing (e : EndState)
  | halted (r : HaltReason) (closing : Option EndState)
  deriving DecidableEq, Repr

/-- Exchange report of a claim (R43, R45). -/
inductive ExchangeReport where
  | none | placed | removed
  deriving DecidableEq, Repr

/-- A held transfer claim (R43, R44); `stopped` says that the timer has stopped at the limit. -/
structure Claim where
  timer : Nat
  stopped : Bool
  report : ExchangeReport
  deriving DecidableEq, Repr

/-- A Head Sequencer (chapters 2 and 7). `stack` is the context stack, TOP first. -/
structure Sequencer where
  steps : List StepRecord
  results : List ResultRecord
  ep : Bool
  epmiss : Bool
  u1 : Bool
  u2 : Bool
  state : HeadState
  activity : Option Activity
  stack : List Context
  lost : Option LostStep
  claim : Option Claim
  vacuum : Bool
  deriving DecidableEq, Repr

/-! ## Zone Pressure Monitor (chapter 4) -/

/-- The set in force, with the pressures read when it was applied (R66, R68). -/
inductive ZoneSet where
  | gap (pressure : Nat)
  | polish (zones : PerZone Nat)
  | rinse (pressure : Nat)
  deriving DecidableEq, Repr

/-- The band timer and the band-expired mark (R66, R71). -/
structure BandTimer where
  ms : Nat
  running : Bool
  expired : Bool
  deriving DecidableEq, Repr

/-- Lift state (R66): the set in force and the band timer exist only while DOWN. -/
inductive Lift where
  | up
  | down (set : ZoneSet) (band : BandTimer)
  deriving DecidableEq, Repr

structure ZoneMonitor where
  lift : Lift
  inBand : PerZone Bool
  rinsePressure : Nat
  bandTimeout : Nat
  deriving DecidableEq, Repr

/-! ## Platen Timebase (chapter 3) -/

/-- The configuration of a platen (R64). -/
structure PlatenConfig where
  lines : Nat
  fold : Nat
  tolerance : Nat
  stallWindow : Nat
  lead : Nat
  confirmNumber : Nat
  conditioningSpeed : Nat
  stow : Nat
  inner : Nat
  keepOut : Nat
  outer : Nat
  armSpeed : Nat
  downforce : Nat
  deriving DecidableEq, Repr

/-- Counts per revolution: lines times fold (R49). -/
def PlatenConfig.cpr (c : PlatenConfig) : Nat := c.lines * c.fold

/-- The amend buffer (R49, R61). -/
structure AmendBuffer where
  limit : Option Nat
  opFixed : Option Nat
  opPercent : Option Nat
  deriving DecidableEq, Repr

def AmendBuffer.empty : AmendBuffer := ⟨none, none, none⟩

/-- The owner of the accumulator with its working limit and clock (R49, R58). -/
structure Owner where
  head : HeadId
  limit : Nat
  clock : StepClock
  deriving DecidableEq, Repr

/-- A Platen Timebase (R49). -/
structure Timebase where
  config : PlatenConfig
  position : Nat
  revolution : Rev
  direction : Rotation
  speed : Nat
  stallTimer : Option Nat
  stalled : Bool
  accumulator : Nat
  owner : Option Owner
  amend : AmendBuffer
  deriving DecidableEq, Repr

/-! ## Dispense Manifold (chapter 5) -/

inductive LineClass where
  | none | slurry | chem
  deriving DecidableEq, Repr

/-- Condition of a line (R76): the binding and the flow exist only while BOUND, the recovery timer only while
FAULTED. -/
inductive LineState where
  | disabled
  | idle
  | bound (nozzle : NozzleId) (head : HeadId) (flow : Nat)
  | faulted (timer : Option Nat)
  deriving DecidableEq, Repr

/-- A line record (R76). -/
structure Line where
  cls : LineClass
  state : LineState
  recoveryTime : Nat
  supplyReady : Bool
  wait : List NozzleId
  deriving DecidableEq, Repr

/-! ## Endpoint Qualifier (chapter 6) -/

inductive MarkKind where
  | film | clearing | cleared
  deriving DecidableEq, Repr

/-- Qualifier state (R97), each state with the fields present in it. -/
inductive QualState where
  | idle
  | settling (watching : HeadId) (remainder : Nat)
  | watch (watching : HeadId) (start : Rev)
  | confirm (watching : HeadId) (start : Rev) (count : Nat)
  deriving DecidableEq, Repr

/-- An Endpoint Qualifier (R97). -/
structure Qualifier where
  state : QualState
  lastCounted : Option Rev
  lastKind : Option MarkKind
  relock : Nat
  late : Nat
  unexpected : Nat
  ignored : Nat
  duplicate : Nat
  capture : Option Capture
  deriving DecidableEq, Repr

/-! ## Conditioner Unit (chapter 8) -/

/-- What the arm's motion serves (R135); IN_SITU carries the in-situ head. -/
inductive ArmMode where
  | inSitu (h : HeadId)
  | exSitu
  deriving DecidableEq, Repr

inductive ArmMotion where
  | deploying | sweeping
  deriving DecidableEq, Repr

/-- What the arm is doing (R135). -/
inductive ArmState where
  | stowed
  | deploying (m : ArmMode)
  | sweeping (m : ArmMode)
  | stowing
  | suspended (m : ArmMode) (motion : ArmMotion)
  deriving DecidableEq, Repr

/-- The effective outer limit (R135, R138). -/
inductive OuterLimit where
  | keepOut | outer
  deriving DecidableEq, Repr

/-- A Conditioner Unit (R135), with the speed and downforce that its arm is driven with, which are taken from the
configuration at a change of state and not followed after it (R136). -/
structure Conditioner where
  arm : ArmState
  direction : Travel
  position : Nat
  outer : OuterLimit
  runHeld : Bool
  sweepsDone : Nat
  speedOut : Nat
  forceOut : Nat
  deriving DecidableEq, Repr

/-! ## Pad Record Store (chapter 9) -/

inductive PadState where
  | unknown | breakIn | inService | warn | retired
  deriving DecidableEq, Repr

/-- A pad record (R153). -/
structure Pad where
  padId : Nat
  state : PadState
  life : Nat
  warnLimit : Nat
  retireLimit : Nat
  wafers : Nat
  sinceExSitu : Nat
  interval : Nat
  exSituSweeps : Nat
  breakInSweeps : Nat
  owed : Nat
  polishMark : Bool
  deriving DecidableEq, Repr

inductive DiskState where
  | unknown | active | spent
  deriving DecidableEq, Repr

/-- A disk record (R154). -/
structure Disk where
  diskId : Nat
  state : DiskState
  used : Nat
  limit : Nat
  deriving DecidableEq, Repr

/-! ## Module Trip Unit and Beat Unit (chapters 7 and 11) -/

inductive InterlockSense where
  | tripOnLow | tripOnHigh
  deriving DecidableEq, Repr

/-- The Module Trip Unit (R128). -/
structure TripUnit where
  input : Level
  sense : InterlockSense
  tripped : Bool
  deriving DecidableEq, Repr

/-- The three beat periods (R178). -/
inductive BeatPeriod where
  | ms10 | ms100 | ms1000
  deriving DecidableEq, Repr

def BeatPeriod.ms : BeatPeriod → Nat
  | .ms10 => 10
  | .ms100 => 100
  | .ms1000 => 1000

/-- The Beat Unit (R178). -/
structure BeatUnit where
  period : BeatPeriod
  interval : Nat
  counter : Nat
  flag : Bool
  settingEnabled : Bool
  restartPending : Bool
  claimLimit : Nat
  deriving DecidableEq, Repr

/-! ## Port Units (chapter 10) -/

/-- The notices of the catalogue, each with its object (R169). -/
inductive Notice where
  | listDone (h : HeadId)
  | halted (h : HeadId)
  | intervened (h : HeadId)
  | contextLost (h : HeadId)
  | lineWait (h : HeadId)
  | lineFault (l : LineId)
  | moveCycle (h : HeadId)
  | padWarn (p : PlatenId)
  | padRetired (p : PlatenId)
  | runDone (p : PlatenId)
  | diskSpent (p : PlatenId)
  | encoderSlip (p : PlatenId)
  | claimOverdue (h : HeadId)
  | tripped
  | restarted
  | watchOpen (p : PlatenId)
  | watchClosed (p : PlatenId)
  | confirmed (p : PlatenId)
  | readyUnload (h : HeadId)
  | readyLoad (h : HeadId)
  | claimRevoked (h : HeadId)
  deriving DecidableEq, Repr

/-- The status byte of a response (R165). -/
inductive Status where
  | ok | unknownRequest | badLength | notPermitted | outOfRange | wrongState | busy | claimed | notClaimed | tripped
  deriving DecidableEq, Repr

/-- A response frame: status and body (R173). -/
structure Response where
  status : Status
  body : List Byte
  deriving DecidableEq, Repr

/-- An open chip-select window (R164): the bytes of its request frame shifted in so far, and how many bytes have been
clocked since the frame ended. -/
structure Window where
  frame : List Byte
  sent : Nat
  deriving DecidableEq, Repr

/-- A Port Unit: the pending set as a list in catalogue order (R169, R170), the notice mask (R172), the response
formed at the last request taken (log entry 15), whether a chip select asserted since reset keeps windows from opening
(R177), and the open window, if there is one (R164, R177). -/
structure PortUnit where
  notices : List Notice
  mask : BitVec 16
  response : Option Response
  selectHeld : Bool
  window : Option Window
  deriving DecidableEq, Repr

/-! ## The state of the part -/

/-- The whole part, and the queue of waiting commands. -/
structure State where
  stations : PerStation Station
  carriers : PerHead Carrier
  seqs : PerHead Sequencer
  zones : PerHead ZoneMonitor
  bases : PerPlaten Timebase
  quals : PerPlaten Qualifier
  conds : PerPlaten Conditioner
  pads : PerPlaten Pad
  disks : PerPlaten Disk
  lines : PerLine Line
  trip : TripUnit
  beat : BeatUnit
  ports : PerPort PortUnit
  freeCount : Nat
  pending : List Instr
  deriving DecidableEq, Repr

/-- Why the model stops with a fault. -/
inductive Fault where
  /-- Raised by an UNKNOWN_REQUEST whose code names a request of the part: such a term is no command of the table
  (WellFormed refuses it). SAFE: no frame of the part is described by it (log entry 18). -/
  | illFormedCommand
  deriving DecidableEq, Repr

/-- Why the model has no meaning for a command. -/
inductive Refusal where
  /-- Raised by an arm of exec whose command has no meaning yet. SAFE: the model stops. -/
  | notModelled (mnemonic : String)
  deriving DecidableEq, Repr

/-! ## Cold reset -/

/-- Cold-reset station record (R1). -/
def Station.reset (inService : Bool) : Station := ⟨none, inService, []⟩

/-- Cold-reset carrier (R2, R74). -/
def Carrier.reset : Carrier := ⟨.unplaced, 0, 20000, []⟩

/-- Cold-reset sequencer (R48, R112); the vacuum sense follows its input (log entry 4). -/
def Sequencer.reset (vacuum : Bool) : Sequencer :=
  { steps := [], results := [], ep := false, epmiss := false, u1 := false, u2 := false, state := .unplaced,
    activity := none, stack := [], lost := none, claim := none, vacuum := vacuum }

/-- Cold-reset zone monitor (R66, R75); the in-band inputs are not reset. -/
def ZoneMonitor.reset (inBand : PerZone Bool) : ZoneMonitor := ⟨.up, inBand, 50, 2000⟩

/-- Cold-reset platen configuration (R64). -/
def PlatenConfig.reset : PlatenConfig :=
  { lines := 1000, fold := 4, tolerance := 8, stallWindow := 500, lead := 1000, confirmNumber := 3,
    conditioningSpeed := 60, stow := 200, inner := 2000, keepOut := 20000, outer := 40000, armSpeed := 4000,
    downforce := 150 }

/-- Cold-reset timebase (R49, R65). -/
def Timebase.reset : Timebase :=
  { config := PlatenConfig.reset, position := 0, revolution := 0, direction := .forward, speed := 0,
    stallTimer := none, stalled := false, accumulator := 0, owner := none, amend := AmendBuffer.empty }

/-- Cold-reset qualifier (R97, R111). -/
def Qualifier.reset : Qualifier := ⟨.idle, none, none, 0, 0, 0, 0, 0, none⟩

/-- Cold-reset conditioner (R135, R152). -/
def Conditioner.reset : Conditioner := ⟨.stowed, .inward, 0, .outer, false, 0, 0, 0⟩

/-- Cold-reset pad record (R153). -/
def Pad.reset : Pad := ⟨0, .unknown, 0, 0, 0, 0, 0, 0, 0, 0, 0, false⟩

/-- Cold-reset disk record (R154). -/
def Disk.reset : Disk := ⟨0, .unknown, 0, 0⟩

/-- Cold-reset line record (R76, R96); the supply-ready field follows its input. -/
def Line.reset (supplyReady : Bool) : Line := ⟨.none, .disabled, 5000, supplyReady, []⟩

/-- Cold-reset Beat Unit (R178, R186). -/
def BeatUnit.reset : BeatUnit := ⟨.ms100, 0, 0, false, false, false, 300⟩

/-- Cold-reset Port Unit (R177). -/
def PortUnit.reset : PortUnit := ⟨[], 0, none, false, none⟩

/-- The part right after a cold reset. The levels of the field inputs, which follow the field (R66, R76, R128), are the
model's choice: zones out of band, no supply, interlock low, no wafer (assumption log entry 4). -/
def State.reset : State :=
  { stations := ⟨Station.reset true, PerPlaten.all (Station.reset false), Station.reset true⟩
    carriers := PerHead.all Carrier.reset
    seqs := PerHead.all (Sequencer.reset false)
    zones := PerHead.all (ZoneMonitor.reset (PerZone.all false))
    bases := PerPlaten.all Timebase.reset
    quals := PerPlaten.all Qualifier.reset
    conds := PerPlaten.all Conditioner.reset
    pads := PerPlaten.all Pad.reset
    disks := PerPlaten.all Disk.reset
    lines := PerLine.all (Line.reset false)
    trip := ⟨.low, .tripOnLow, true⟩
    beat := BeatUnit.reset
    ports := ⟨PortUnit.reset, PortUnit.reset, PortUnit.reset⟩
    freeCount := 0
    pending := [] }

/-! ## Access to one entry of a table -/

def State.station (s : State) (d : StationId) : Station := s.stations.get d
def State.carrier (s : State) (h : HeadId) : Carrier := s.carriers.get h
def State.seq (s : State) (h : HeadId) : Sequencer := s.seqs.get h
def State.zone (s : State) (h : HeadId) : ZoneMonitor := s.zones.get h
def State.base (s : State) (p : PlatenId) : Timebase := s.bases.get p
def State.qual (s : State) (p : PlatenId) : Qualifier := s.quals.get p
def State.cond (s : State) (p : PlatenId) : Conditioner := s.conds.get p
def State.pad (s : State) (p : PlatenId) : Pad := s.pads.get p
def State.disk (s : State) (p : PlatenId) : Disk := s.disks.get p
def State.line (s : State) (l : LineId) : Line := s.lines.get l
def State.port (s : State) (q : Port) : PortUnit := s.ports.get q

def State.setStation (s : State) (d : StationId) (x : Station) : State :=
  { s with stations := s.stations.set d x }
def State.setCarrier (s : State) (h : HeadId) (x : Carrier) : State :=
  { s with carriers := s.carriers.set h x }
def State.setSeq (s : State) (h : HeadId) (x : Sequencer) : State :=
  { s with seqs := s.seqs.set h x }
def State.setZone (s : State) (h : HeadId) (x : ZoneMonitor) : State :=
  { s with zones := s.zones.set h x }
def State.setBase (s : State) (p : PlatenId) (x : Timebase) : State :=
  { s with bases := s.bases.set p x }
def State.setQual (s : State) (p : PlatenId) (x : Qualifier) : State :=
  { s with quals := s.quals.set p x }
def State.setCond (s : State) (p : PlatenId) (x : Conditioner) : State :=
  { s with conds := s.conds.set p x }
def State.setPad (s : State) (p : PlatenId) (x : Pad) : State :=
  { s with pads := s.pads.set p x }
def State.setDisk (s : State) (p : PlatenId) (x : Disk) : State :=
  { s with disks := s.disks.set p x }
def State.setLine (s : State) (l : LineId) (x : Line) : State :=
  { s with lines := s.lines.set l x }
def State.setPort (s : State) (q : Port) (x : PortUnit) : State :=
  { s with ports := s.ports.set q x }
def State.setTrip (s : State) (x : TripUnit) : State := { s with trip := x }
def State.setBeat (s : State) (x : BeatUnit) : State := { s with beat := x }

end Sys2Proof.Machine
end

