-- ==== Sys2Proof/Machine/Ops.lean ====
section
/-!
DEFINITION. Operations shared by every block: updating one entry of a table, reading where a head stands and what it
does, raising a notice (R169) and the alert line (R172).
-/
namespace Sys2Proof.Machine

/-! ## Updating one entry -/

def State.modStation (s : State) (d : StationId) (f : Station → Station) : State := s.setStation d (f (s.station d))
def State.modCarrier (s : State) (h : HeadId) (f : Carrier → Carrier) : State := s.setCarrier h (f (s.carrier h))
def State.modSeq (s : State) (h : HeadId) (f : Sequencer → Sequencer) : State := s.setSeq h (f (s.seq h))
def State.modZone (s : State) (h : HeadId) (f : ZoneMonitor → ZoneMonitor) : State := s.setZone h (f (s.zone h))
def State.modBase (s : State) (p : PlatenId) (f : Timebase → Timebase) : State := s.setBase p (f (s.base p))
def State.modQual (s : State) (p : PlatenId) (f : Qualifier → Qualifier) : State := s.setQual p (f (s.qual p))
def State.modCond (s : State) (p : PlatenId) (f : Conditioner → Conditioner) : State := s.setCond p (f (s.cond p))
def State.modPad (s : State) (p : PlatenId) (f : Pad → Pad) : State := s.setPad p (f (s.pad p))
def State.modDisk (s : State) (p : PlatenId) (f : Disk → Disk) : State := s.setDisk p (f (s.disk p))
def State.modLine (s : State) (l : LineId) (f : Line → Line) : State := s.setLine l (f (s.line l))
def State.modPort (s : State) (q : Port) (f : PortUnit → PortUnit) : State := s.setPort q (f (s.port q))

/-- A count that stops at its upper end (00_scope.md, Conventions). -/
def satSucc (top n : Nat) : Nat := if n < top then n + 1 else n

/-! ## Reading a head -/

/-- The station a head stands AT (R2). -/
def State.stands? (s : State) (h : HeadId) : Option StationId :=
  match (s.carrier h).position with
  | .stands d => some d
  | _ => none

/-- The platen a head stands at. -/
def State.platenOf (s : State) (h : HeadId) : Option PlatenId :=
  match (s.carrier h).position with
  | .stands (.platen p) => some p
  | _ => none

/-- The station a step opened now works at: the head's station, or the end of its transit (R115). -/
def State.stationOf (s : State) (h : HeadId) : StationId :=
  match (s.carrier h).position with
  | .stands d => d
  | .inTransit _ d _ => d
  | .unplaced => .load

/-- The head that holds the station of a platen (R1). -/
def State.headOn (s : State) (p : PlatenId) : Option HeadId :=
  match (s.station (.platen p)).holder with
  | some (.head h) => some h
  | _ => none

def State.isRunning (s : State) (h : HeadId) : Bool := decide ((s.seq h).state = .running)

/-- The working record of the current step (R24), when the current activity is the step. -/
def State.current (s : State) (h : HeadId) : Option Working :=
  match (s.seq h).activity with
  | some (.step w) => some w
  | _ => none

/-- The current step of a RUNNING head. -/
def State.runningStep (s : State) (h : HeadId) : Option Working :=
  if s.isRunning h then s.current h else none

def State.setWorking (s : State) (h : HeadId) (w : Working) : State :=
  s.modSeq h fun q => { q with activity := some (.step w) }

/-- The POLISH record of a step, if it is a POLISH step (R19). -/
def Working.polish? (w : Working) : Option PolishRecord :=
  match w.record.kind with
  | .polish r => some r
  | _ => none

/-- The step is a POLISH step in a phase that presses the pad (R35, R155). -/
def Working.pressing (w : Working) : Bool :=
  w.polish?.isSome && (decide (w.phase = some .polish) || decide (w.phase = some .overpolish))

/-- The five phases of a POLISH step at its platen (R31). -/
def Phase.atPlaten : Phase → Bool
  | .acquireLine | .keepoutWait | .gap | .polish | .overpolish => true
  | .waitStation | .inTransit | .dwell => false

def State.isDown (s : State) (h : HeadId) : Bool :=
  match (s.zone h).lift with
  | .up => false
  | .down _ _ => true

/-! ## Notices (R169) and the alert line (R172) -/

/-- Kind code and object code of a notice on a port, as the catalogue of R169 and the codes of R168 give them. -/
def HeadId.code : HeadId → Nat
  | .h1 => 0
  | .h2 => 1
  | .h3 => 2
  | .h4 => 3

def PlatenId.code : PlatenId → Nat
  | .p1 => 0
  | .p2 => 1
  | .p3 => 2

def LineId.code : LineId → Nat
  | .l1 => 0
  | .l2 => 1
  | .l3 => 2
  | .l4 => 3
  | .l5 => 4
  | .l6 => 5

/-- Object code of a notice (R168, R169); the module is 0. -/
def Notice.object : Notice → Nat
  | .listDone h | .halted h | .intervened h | .contextLost h | .lineWait h | .moveCycle h | .claimOverdue h
  | .readyUnload h | .readyLoad h | .claimRevoked h => HeadId.code h
  | .lineFault l => LineId.code l
  | .padWarn p | .padRetired p | .runDone p | .diskSpent p | .encoderSlip p | .watchOpen p | .watchClosed p
  | .confirmed p => PlatenId.code p
  | .tripped | .restarted => 0

/-- Kind code of a notice on a port; none where the port does not hold the kind (R169). -/
def Notice.kind : Port → Notice → Option Nat
  | .recipe, .listDone _ => some 0
  | .recipe, .halted _ => some 1
  | .recipe, .intervened _ => some 2
  | .recipe, .contextLost _ => some 3
  | .recipe, .lineWait _ => some 4
  | .recipe, .lineFault _ => some 5
  | .recipe, .moveCycle _ => some 6
  | .recipe, .padWarn _ => some 7
  | .recipe, .padRetired _ => some 8
  | .recipe, .runDone _ => some 9
  | .recipe, .diskSpent _ => some 10
  | .recipe, .encoderSlip _ => some 11
  | .recipe, .claimOverdue _ => some 12
  | .recipe, .tripped => some 13
  | .recipe, .restarted => some 14
  | .endpoint, .watchOpen _ => some 0
  | .endpoint, .watchClosed _ => some 1
  | .endpoint, .confirmed _ => some 2
  | .transfer, .readyUnload _ => some 0
  | .transfer, .readyLoad _ => some 1
  | .transfer, .claimRevoked _ => some 2
  | .transfer, .claimOverdue _ => some 3
  | .transfer, .tripped => some 4
  | _, _ => none

/-- Every notice a port can hold, by kind code and then object code (R169, R170). -/
def catalogue : Port → List Notice
  | .recipe =>
    headIds.map .listDone ++ headIds.map .halted ++ headIds.map .intervened ++ headIds.map .contextLost ++
    headIds.map .lineWait ++ lineIds.map .lineFault ++ headIds.map .moveCycle ++ platenIds.map .padWarn ++
    platenIds.map .padRetired ++ platenIds.map .runDone ++ platenIds.map .diskSpent ++
    platenIds.map .encoderSlip ++ headIds.map .claimOverdue ++ [.tripped, .restarted]
  | .endpoint => platenIds.map .watchOpen ++ platenIds.map .watchClosed ++ platenIds.map .confirmed
  | .transfer =>
    headIds.map .readyUnload ++ headIds.map .readyLoad ++ headIds.map .claimRevoked ++
    headIds.map .claimOverdue ++ [.tripped]

/-- Number of notice kinds of a port (R169, R172). -/
def kindCount : Port → Nat
  | .recipe => 15
  | .endpoint => 3
  | .transfer => 5

/-- The pending set with a notice added if absent, in catalogue order (R169). -/
def addNotice (q : Port) (n : Notice) (pending : List Notice) : List Notice :=
  (catalogue q).filter fun m => decide (m = n) || pending.contains m

/-- A block raises a notice on a port (R169). -/
def State.raise (s : State) (q : Port) (n : Notice) : State :=
  s.modPort q fun u => { u with notices := addNotice q n u.notices }

/-- The kind of a notice is in the mask (R172): bit n stands for kind code n. -/
def inMask (q : Port) (mask : BitVec 16) (n : Notice) : Bool :=
  match n.kind q with
  | some k => mask.getLsbD k
  | none => false

/-- The alert line is asserted (R172). -/
def PortUnit.alert (u : PortUnit) (q : Port) : Bool := u.notices.any (inMask q u.mask)

end Sys2Proof.Machine
end

