-- ==== Sys2Proof/Machine/Operands.lean ====
section
/-!
DEFINITION. Field encoding (R168, R174 to R176): reading the fields of a request body and writing those of a response.
-/
namespace Sys2Proof.Machine

/-! ## Numbers (R168): unsigned, little-endian -/

def le8 (b : List Byte) (i : Nat) : Nat := (b.getD i 0).toNat
def le16 (b : List Byte) (i : Nat) : Nat := le8 b i + 256 * le8 b (i + 1)
def le32 (b : List Byte) (i : Nat) : Nat := le16 b i + 65536 * le16 b (i + 2)

def put8 (n : Nat) : List Byte := [BitVec.ofNat 8 n]
def put16 (n : Nat) : List Byte := [BitVec.ofNat 8 n, BitVec.ofNat 8 (n / 256)]
def put32 (n : Nat) : List Byte := put16 n ++ put16 (n / 65536)
def putBool (b : Bool) : List Byte := put8 b.toNat

/-- An optional field: presence byte, then the field at full width (R168). -/
def putOpt (width : Nat) (x : Option (List Byte)) : List Byte :=
  match x with
  | none => 0 :: List.replicate width 0
  | some b => 1 :: b

/-- A list of varying length: a count byte, then the entries (R168). -/
def putList (xs : List (List Byte)) : List Byte := put8 xs.length ++ xs.flatten

/-- A name where "none" is also a value: none is 0 and the others follow from 1 (R168). -/
def putOrNone (x : Option Nat) : List Byte :=
  match x with
  | none => put8 0
  | some n => put8 (n + 1)

/-! ## Names and enumerated values (R168) -/

def headOf : Nat → Option HeadId
  | 0 => some .h1
  | 1 => some .h2
  | 2 => some .h3
  | 3 => some .h4
  | _ => none

def platenOfCode : Nat → Option PlatenId
  | 0 => some .p1
  | 1 => some .p2
  | 2 => some .p3
  | _ => none

def lineOf : Nat → Option LineId
  | 0 => some .l1
  | 1 => some .l2
  | 2 => some .l3
  | 3 => some .l4
  | 4 => some .l5
  | 5 => some .l6
  | _ => none

def stationOfCode : Nat → Option StationId
  | 0 => some .load
  | 1 => some (.platen .p1)
  | 2 => some (.platen .p2)
  | 3 => some (.platen .p3)
  | 4 => some .rinse
  | _ => none

def StationId.code : StationId → Nat
  | .load => 0
  | .platen p => PlatenId.code p + 1
  | .rinse => 4

def boolOf : Nat → Option Bool
  | 0 => some false
  | 1 => some true
  | _ => none

def lineClassOf : Nat → Option LineClass
  | 0 => some .none
  | 1 => some .slurry
  | 2 => some .chem
  | _ => none

def senseOf : Nat → Option InterlockSense
  | 0 => some .tripOnLow
  | 1 => some .tripOnHigh
  | _ => none

def periodOf : Nat → Option BeatPeriod
  | 0 => some .ms10
  | 1 => some .ms100
  | 2 => some .ms1000
  | _ => none

def markKindOf : Nat → Option MarkKind
  | 0 => some .film
  | 1 => some .clearing
  | 2 => some .cleared
  | _ => none

/-- The cause a HOLD raises (R114). -/
def holdOf : Nat → Option Cause
  | 0 => some .holdRinse
  | 1 => some .holdLift
  | 2 => some .holdPark
  | _ => none

def userFlagOf : Nat → Option UserFlag
  | 0 => some .u1
  | 1 => some .u2
  | _ => none

/-- A pad state that PAD_RESTORE may give (R153, R159). -/
def padStateOf : Nat → Option PadState
  | 1 => some .breakIn
  | 2 => some .inService
  | 3 => some .warn
  | 4 => some .retired
  | _ => none

def PadState.code : PadState → Nat
  | .unknown => 0
  | .breakIn => 1
  | .inService => 2
  | .warn => 3
  | .retired => 4

def DiskState.code : DiskState → Nat
  | .unknown => 0
  | .active => 1
  | .spent => 2

def LineClass.code : LineClass → Nat
  | .none => 0
  | .slurry => 1
  | .chem => 2

def MarkKind.code : MarkKind → Nat
  | .film => 0
  | .clearing => 1
  | .cleared => 2

/-! ## Step records (R19, R174) -/

def flagOf : Nat → Option FlagName
  | 0 => some .ep
  | 1 => some .epmiss
  | 2 => some .padwarn
  | 3 => some .u1
  | 4 => some .u2
  | _ => none

def FlagName.code : FlagName → Nat
  | .ep => 0
  | .epmiss => 1
  | .padwarn => 2
  | .u1 => 3
  | .u2 => 4

def guardSenseOf : Nat → Option GuardSense
  | 0 => some .skipIfSet
  | 1 => some .skipIfClear
  | _ => none

def GuardSense.code : GuardSense → Nat
  | .skipIfSet => 0
  | .skipIfClear => 1

def actionOf : Nat → Option FlagAction
  | 0 => some ⟨.u1, true⟩
  | 1 => some ⟨.u1, false⟩
  | 2 => some ⟨.u2, true⟩
  | 3 => some ⟨.u2, false⟩
  | _ => none

def FlagAction.code (a : FlagAction) : Nat :=
  match a.flag, a.value with
  | .u1, true => 0
  | .u1, false => 1
  | .u2, true => 2
  | .u2, false => 3

def clockOf : Nat → Option StepClock
  | 0 => some .time
  | 1 => some .counts
  | 2 => some .revs
  | _ => none

def StepClock.code : StepClock → Nat
  | .time => 0
  | .counts => 1
  | .revs => 2

def terminationOf : Nat → Option Termination
  | 0 => some .limit
  | 1 => some .endpoint
  | _ => none

def Termination.code : Termination → Nat
  | .limit => 0
  | .endpoint => 1

/-- Line codes of a POLISH record: L1 to L6 are 0 to 5, RINSE 6, NONE 7 (R174). -/
def stepLineOf : Nat → Option StepLine
  | 6 => some .rinse
  | 7 => some .none
  | n => (lineOf n).map .line

def StepLine.code : StepLine → Nat
  | .line l => LineId.code l
  | .rinse => 6
  | .none => 7

/-- An optional value of the body: the presence byte is 0 or 1, and the value bytes count only when it is 1 (R168). -/
def optField {α : Type} (presence : Nat) (value : Option α) : Option (Option α) :=
  match presence with
  | 0 => some none
  | 1 => value.map some
  | _ => none

/-- The value, if a condition of range holds. -/
def guardOpt {α : Type} (c : Bool) (x : Option α) : Option α := if c then x else none

/-- n lies from lo to hi, both included (00_scope.md, Conventions). -/
def inRange (lo hi n : Nat) : Bool := decide (lo ≤ n) && decide (n ≤ hi)

/-- The POLISH fields of a LIST_WRITE body (R19, R174). -/
def polishOf (b : List Byte) : Option PolishRecord :=
  guardOpt
    (inRange 1 4000000 (le32 b 9) && inRange 0 100 (le8 b 17) && inRange 0 500 (le16 b 21) &&
      inRange 10 150 (le8 b 23) && inRange 0 700 (le16 b 24) && inRange 0 700 (le16 b 26) &&
      inRange 0 700 (le16 b 28) && inRange 0 700 (le16 b 30) && inRange 0 700 (le16 b 32) &&
      inRange 0 700 (le16 b 34))
    (match clockOf (le8 b 8), terminationOf (le8 b 13), stepLineOf (le8 b 20), boolOf (le8 b 36) with
     | some c, some t, some l, some i =>
       some
         { clock := c
           limit := le32 b 9
           termination := t
           settle := le8 b 14
           opFixed := le16 b 15
           opPercent := le8 b 17
           gap := le16 b 18
           line := l
           flow := le16 b 21
           speed := le8 b 23
           gapPressure := le16 b 24
           zones := ⟨le16 b 26, le16 b 28, le16 b 30, le16 b 32, le16 b 34⟩
           inSitu := i }
     | _, _, _, _ => none)

/-- The kind of a LIST_WRITE record with its fields (R19, R174). -/
def stepKindOf (b : List Byte) : Option StepKind :=
  match le8 b 2 with
  | 0 => (stationOfCode (le8 b 8)).map .move
  | 1 => (polishOf b).map .polish
  | 2 => guardOpt (decide (1 ≤ le16 b 8)) (some (.dwell (le16 b 8)))
  | _ => none

/-- The guard of a LIST_WRITE record (R174). -/
def guardOf (b : List Byte) : Option (Option Guard) :=
  optField (le8 b 3)
    (match flagOf (le8 b 4), guardSenseOf (le8 b 5) with
     | some f, some g => some ⟨f, g⟩
     | _, _ => none)

/-- The step record of a LIST_WRITE body, if every field lies in its range (R19, R174). -/
def recordOf (b : List Byte) : Option StepRecord :=
  match guardOf b, optField (le8 b 6) (actionOf (le8 b 7)), stepKindOf b with
  | some g, some a, some k => some ⟨g, a, k⟩
  | _, _, _ => none

/-- Length of a LIST_WRITE body for a kind code (R174). -/
def recordLength : Nat → Option Nat
  | 0 => some 9
  | 1 => some 37
  | 2 => some 10
  | _ => none

def putGuard : Option Guard → List Byte
  | none => [0, 0, 0]
  | some g => 1 :: put8 g.flag.code ++ put8 g.sense.code

def putPolish (r : PolishRecord) : List Byte :=
  put8 r.clock.code ++ put32 r.limit ++ put8 r.termination.code ++ put8 r.settle ++ put16 r.opFixed ++
  put8 r.opPercent ++ put16 r.gap ++ put8 r.line.code ++ put16 r.flow ++ put8 r.speed ++ put16 r.gapPressure ++
  put16 r.zones.z1 ++ put16 r.zones.z2 ++ put16 r.zones.z3 ++ put16 r.zones.z4 ++ put16 r.zones.ring ++
  putBool r.inSitu

/-- Kind code and fields of a record (R174). -/
def StepKind.kindCode : StepKind → Nat
  | .move _ => 0
  | .polish _ => 1
  | .dwell _ => 2

def putFields : StepKind → List Byte
  | .move d => put8 (StationId.code d)
  | .polish r => putPolish r
  | .dwell t => put16 t

/-- A step record from byte 2 of the LIST_WRITE layout on (R174). -/
def putRecord (r : StepRecord) : List Byte :=
  put8 r.kind.kindCode ++ putGuard r.guard ++ putOpt 1 (r.action.map fun a => put8 a.code) ++ putFields r.kind

/-! ## Result records (R175) -/

def StepOutcome.code : StepOutcome → Nat
  | .completed => 0
  | .endpoint => 1
  | .epMiss => 2
  | .skipped => 3
  | .aborted => 4
  | .lost => 5
  | .waferLost => 6
  | .refusedPlace => 7
  | .refusedNoWafer => 8

def ResultFlags.code (f : ResultFlags) : Nat :=
  f.gapExtended.toNat + 2 * f.clamped.toNat + 4 * f.amendLoaded.toNat + 8 * f.amendDropped.toNat +
  16 * f.noInsitu.toNat

/-- A capture: presence byte, revolution, position, accrued units (R175, R176). -/
def putCapture (c : Option Capture) : List Byte :=
  putOpt 10 (c.map fun k => put32 k.revolution.toNat ++ put16 k.position ++ put32 k.accrued)

/-- The line of a result: absent for NONE (R40, R175). -/
def putResultLine : StepLine → List Byte
  | .none => [0, 0]
  | .rinse => 1 :: put8 6
  | .line l => 1 :: put8 (LineId.code l)

def putResult (r : ResultRecord) : List Byte :=
  put8 r.index ++ put8 r.outcome.code ++ put8 r.flags.code ++ put32 r.accrued ++ put32 r.overpolish ++
  putCapture r.capture ++ put8 r.interventions ++ put32 r.startBeat ++ put32 r.endBeat ++
  putOpt 1 (r.platen.map fun p => put8 (PlatenId.code p)) ++ putResultLine r.line

end Sys2Proof.Machine
end

