-- ==== Sys2Proof/Machine/Flags.lean ====
section
/-!
DEFINITION. Head flags, guards and completion actions (R22, R23), and the flag changes of endpoint outcomes (R35, R36).
-/
namespace Sys2Proof.Machine

/-- PADWARN as read now: AT a platen whose pad is WARN or RETIRED (R22). -/
def State.padWarnFlag (s : State) (h : HeadId) : Bool :=
  match s.platenOf h with
  | some p => decide ((s.pad p).state = .warn) || decide ((s.pad p).state = .retired)
  | none => false

/-- The value a flag reads (R22). -/
def State.flag (s : State) (h : HeadId) : FlagName → Bool
  | .ep => (s.seq h).ep
  | .epmiss => (s.seq h).epmiss
  | .padwarn => s.padWarnFlag h
  | .u1 => (s.seq h).u1
  | .u2 => (s.seq h).u2

/-- The guard skips the step (R23). -/
def State.guardSkips (s : State) (h : HeadId) : Option Guard → Bool
  | none => false
  | some g =>
    match g.sense with
    | .skipIfSet => s.flag h g.flag
    | .skipIfClear => !(s.flag h g.flag)

def Sequencer.setUser (q : Sequencer) (f : UserFlag) (v : Bool) : Sequencer :=
  match f with
  | .u1 => { q with u1 := v }
  | .u2 => { q with u2 := v }

/-- The completion action of an executed step (R23). -/
def Sequencer.applyAction (q : Sequencer) : Option FlagAction → Sequencer
  | none => q
  | some a => q.setUser a.flag a.value

/-- EP and EPMISS as a normal outcome requires (R35, R36, R38). -/
def Sequencer.endpointFlags (q : Sequencer) : StepOutcome → Sequencer
  | .epMiss => { q with epmiss := true, ep := false }
  | .endpoint => { q with ep := true, epmiss := false }
  | _ => q

end Sys2Proof.Machine
end

