-- ==== Sys2Proof/Machine/Pads.lean ====
section
/-!
DEFINITION. The Pad Record Store: sweeps of a disk, pad life, wafers, runs (chapter 9).
-/
namespace Sys2Proof.Machine

/-- The disk record after one more sweep (R154): the second component says that the disk became SPENT. -/
def Disk.sweep (k : Disk) : Disk × Bool :=
  let used := satSucc Config.max32 k.used
  if k.state = .active ∧ k.limit ≤ used then ({ k with used := used, state := .spent }, true)
  else ({ k with used := used }, false)

/-- A sweep is delivered to the Pad Record Store (R140, R154). -/
def State.diskSweep (s : State) (p : PlatenId) : State :=
  let r := (s.disk p).sweep
  let t := s.setDisk p r.1
  if r.2 then t.raise .recipe (.diskSpent p) else t

/-- A head DOWN in POLISH or OVERPOLISH holds the platen (R155). -/
def State.padPressed (s : State) (p : PlatenId) : Bool :=
  match s.headOn p with
  | none => false
  | some h =>
    s.isDown h &&
      (match s.runningStep h with
       | some w => w.pressing
       | none => false)

/-- The crossing check after an increment of life used (R155). -/
def State.padCrossing (s : State) (p : PlatenId) : State :=
  let k := s.pad p
  if k.state = .inService ∧ k.warnLimit ≤ k.life then
    (s.setPad p { k with state := .warn }).raise .recipe (.padWarn p)
  else if k.state = .warn ∧ k.retireLimit ≤ k.life then
    (s.setPad p { k with state := .retired }).raise .recipe (.padRetired p)
  else s

/-- Pad life at a revolution boundary (R155). -/
def State.padBoundary (s : State) (p : PlatenId) : State :=
  if s.padPressed p then
    (s.modPad p fun k => { k with life := satSucc Config.max32 k.life }).padCrossing p
  else s

/-- The wafer count at a head's release of the platen (R156). -/
def Pad.countWafer (k : Pad) : Pad :=
  if k.polishMark then
    let since := satSucc Config.max16 k.sinceExSitu
    { k with
      wafers := satSucc Config.max32 k.wafers
      sinceExSitu := since
      polishMark := false
      owed := if 0 < k.interval ∧ k.interval ≤ since then max k.owed k.exSituSweeps else k.owed }
  else k

/-- The record at the completion of an ex-situ run (R157). -/
def Pad.runDone (k : Pad) : Pad :=
  { k with owed := 0, sinceExSitu := 0, state := if k.state = .breakIn then .inService else k.state }

/-- Heads may take the platen as far as its pad goes: IN_SERVICE or WARN (R153). -/
def PadState.usable : PadState → Bool
  | .inService | .warn => true
  | .unknown | .breakIn | .retired => false

end Sys2Proof.Machine
end

