-- ==== Sys2Proof/Machine/Conditioner.lean ====
section
/-!
DEFINITION. The Conditioner Unit: the effective outer limit, stowing, sweeping, runs and claims (chapter 8), but for the
completion of a run, which releases a station (Machine/Stations.lean).
-/
namespace Sys2Proof.Machine

/-- The mode of the arm's motion, present in DEPLOYING, SWEEPING and SUSPENDED (R135). -/
def ArmState.mode : ArmState → Option ArmMode
  | .deploying m | .sweeping m | .suspended m _ => some m
  | .stowed | .stowing => none

/-- Arm speed output of a state that is entered under a configuration (R136). -/
def ArmState.speed (a : ArmState) (g : PlatenConfig) : Nat :=
  match a with
  | .deploying _ | .sweeping _ | .stowing => g.armSpeed
  | .stowed | .suspended _ _ => 0

/-- Downforce output of a state that is entered under a configuration (R136): in SWEEPING alone. -/
def ArmState.force (a : ArmState) (g : PlatenConfig) : Nat :=
  match a with
  | .sweeping _ => g.downforce
  | .stowed | .deploying _ | .stowing | .suspended _ _ => 0

/-- A change of state changes the arm outputs together, to the values configured at the change (R136). -/
def Conditioner.enter (c : Conditioner) (g : PlatenConfig) (a : ArmState) : Conditioner :=
  { c with arm := a, speedOut := a.speed g, forceOut := a.force g }

/-- Enter STOWING; an arm at or below S is STOWED at once (R139), and one that is STOWING already stays as it is. -/
def Conditioner.stow (c : Conditioner) (g : PlatenConfig) : Conditioner :=
  if c.position ≤ g.stow then c.enter g .stowed
  else if c.arm = .stowing then c
  else c.enter g .stowing

/-- The outer limit R138 gives for a platen. -/
def State.outerWanted (s : State) (p : PlatenId) : OuterLimit :=
  match s.headOn p with
  | none => .outer
  | some h =>
    if s.isDown h then .keepOut
    else
      match s.current h with
      | some w => if w.polish?.isSome ∧ w.phase = some .keepoutWait then .keepOut else .outer
      | none => .outer

/-- Sweeps done after one more sweep of an ex-situ run (R140); an in-situ sweep counts on the disk alone. -/
def Conditioner.countSweep (c : Conditioner) : Conditioner :=
  match c.arm.mode with
  | some .exSitu => { c with sweepsDone := satSucc 255 c.sweepsDone }
  | _ => c

/-- The change to K turns an arm sweeping outward at or above K inward at once (R138). -/
def Conditioner.mustTurn (c : Conditioner) (g : PlatenConfig) : Bool :=
  match c.arm with
  | .sweeping _ => decide (c.direction = .outward) && decide (g.keepOut ≤ c.position)
  | _ => false

/-- Work out the effective outer limit again (R138). A reversal made by the change to K is a sweep (R140). -/
def State.refreshOuter (s : State) (p : PlatenId) : State :=
  let c := s.cond p
  let want := s.outerWanted p
  if want = .keepOut ∧ c.outer = .outer ∧ c.mustTurn (s.base p).config then
    (s.setCond p { c.countSweep with outer := want, direction := .inward }).diskSweep p
  else s.setCond p { c with outer := want }

/-- Begin to sweep in a mode (R141). SWEEPING inward entered at I turns outward on entry (R139); a change of mode alone
leaves the arm outputs. -/
def Conditioner.beginSweep (c : Conditioner) (g : PlatenConfig) (m : ArmMode) : Conditioner :=
  match c.arm with
  | .stowed => c.enter g (.deploying m)
  | .stowing =>
    if c.position < g.inner then c.enter g (.deploying m)
    else
      { c with direction := if c.position ≤ g.inner then .outward else .inward }.enter g (.sweeping m)
  | .deploying (.inSitu _) => { c with arm := .deploying m }
  | .sweeping (.inSitu _) => { c with arm := .sweeping m }
  | .deploying .exSitu | .sweeping .exSitu | .suspended _ _ => c

/-- An in-situ sweep kept from the previous step is moving (R142). -/
def ArmState.inSituMoving : ArmState → Bool
  | .deploying (.inSitu _) | .sweeping (.inSitu _) => true
  | _ => false

/-- A POLISH step with in-situ ON asks its platen's Conditioner Unit to sweep (R142): on an unusable disk the arm of a
kept in-situ sweep is stowed. -/
def State.inSituRequest (s : State) (h : HeadId) (p : PlatenId) : State :=
  if (s.disk p).state = .active then
    s.modCond p fun c => c.beginSweep (s.base p).config (.inSitu h)
  else if (s.cond p).arm.inSituMoving then
    s.modCond p fun c => c.stow (s.base p).config
  else s

/-- A head withdraws its in-situ sweep from one unit (R143). -/
def Conditioner.withdraw (c : Conditioner) (g : PlatenConfig) (h : HeadId) : Conditioner :=
  if c.arm.mode = some (.inSitu h) then c.stow g else c

/-- A head withdraws its in-situ sweep (R143). -/
def State.withdraw (s : State) (h : HeadId) : State :=
  platenIds.foldl (fun t p => t.modCond p fun c => c.withdraw (t.base p).config h) s

/-- The conditions of a claim but for the station (R145, R150). -/
def State.mayClaim (s : State) (p : PlatenId) : Bool :=
  decide (0 < (s.pad p).owed) && decide ((s.disk p).state = .active) && !s.trip.tripped && !(s.cond p).runHeld

/-- Start of an ex-situ run: the unit becomes holder of the station (R7, R146). -/
def State.startRun (s : State) (p : PlatenId) : State :=
  (s.modStation (.platen p) fun r => { r with holder := some .conditioner }).modCond p fun c =>
    { c.beginSweep (s.base p).config .exSitu with runHeld := true, sweepsDone := 0 }

/-- The unit tries its claim: granted at once when the station is free and IN service (R7, R145). -/
def State.tryClaim (s : State) (p : PlatenId) : State :=
  let r := s.station (.platen p)
  if s.mayClaim p ∧ r.holder = none ∧ r.inService then s.startRun p else s

/-- Suspension keeps the motion, the mode and the direction (R148). -/
def Conditioner.suspend (c : Conditioner) (g : PlatenConfig) : Conditioner :=
  match c.arm with
  | .deploying m => c.enter g (.suspended m .deploying)
  | .sweeping m => c.enter g (.suspended m .sweeping)
  | .stowed | .stowing | .suspended _ _ => c

/-- A stall suspends an ex-situ run alone (R56, R148). -/
def Conditioner.suspendRun (c : Conditioner) (g : PlatenConfig) : Conditioner :=
  if c.arm.mode = some .exSitu then c.suspend g else c

/-- A suspended ex-situ run takes up its motion again (R149). -/
def Conditioner.resumeRun (c : Conditioner) (g : PlatenConfig) : Conditioner :=
  match c.arm with
  | .suspended .exSitu .deploying => c.enter g (.deploying .exSitu)
  | .suspended .exSitu .sweeping => c.enter g (.sweeping .exSitu)
  | .stowed | .stowing | .deploying _ | .sweeping _ | .suspended (.inSitu _) _ => c

/-- A suspended ex-situ run resumes when the stalled mark is clear and the module is not tripped (R149). -/
def State.resumeRun (s : State) (p : PlatenId) : State :=
  if (s.base p).stalled || s.trip.tripped then s else s.modCond p fun c => c.resumeRun (s.base p).config

/-- The clearing of the trip at a unit: a suspended run resumes, a suspended in-situ sweep stows, an owed run may
claim (R149). -/
def State.condTripCleared (s : State) (p : PlatenId) : State :=
  let t := s.resumeRun p
  let u :=
    match (t.cond p).arm with
    | .suspended (.inSitu _) _ => t.modCond p fun c => c.stow (t.base p).config
    | _ => t
  u.tryClaim p

/-- One arm count moves the position, saturating at both ends (R137). -/
def Conditioner.moveArm (c : Conditioner) (d : Travel) : Conditioner :=
  match d with
  | .outward => { c with position := satSucc Config.max16 c.position }
  | .inward => { c with position := c.position - 1 }

/-- The outer turning point in force, as an arm position (R138, R139). -/
def Conditioner.outerPosition (c : Conditioner) (g : PlatenConfig) : Nat :=
  match c.outer with
  | .keepOut => g.keepOut
  | .outer => g.outer

/-- The turn of an arm that sweeps outward, at or beyond the outer turning point (R139): a sweep (R140). -/
def Conditioner.turnInward (c : Conditioner) (g : PlatenConfig) : Conditioner × Bool :=
  if c.outerPosition g ≤ c.position then ({ c.countSweep with direction := .inward }, true) else (c, false)

/-- The motion decision of an arm count (R139); the second component says that the decision is a sweep (R140). SWEEPING
entered at or beyond the outer turning point turns on entry, and a STOWING arm takes the speed now configured (R136). -/
def Conditioner.motionDecision (c : Conditioner) (g : PlatenConfig) : Conditioner × Bool :=
  match c.arm, c.direction with
  | .deploying m, _ =>
    if g.inner ≤ c.position then ({ c with direction := .outward }.enter g (.sweeping m)).turnInward g else (c, false)
  | .sweeping _, .outward => c.turnInward g
  | .sweeping _, .inward =>
    if c.position ≤ g.inner then ({ c with direction := .outward }, false) else (c, false)
  | .stowing, _ => (c.enter g (if c.position ≤ g.stow then .stowed else .stowing), false)
  | .stowed, _ => if g.stow < c.position then (c.enter g .stowing, false) else (c, false)
  | .suspended _ _, _ => (c, false)

/-- Sweeps done have reached the owed sweeps of the run held (R140, R147). -/
def State.runReached (s : State) (p : PlatenId) : Bool :=
  (s.cond p).runHeld && decide ((s.cond p).arm.mode = some .exSitu) &&
    decide ((s.pad p).owed ≤ (s.cond p).sweepsDone)

end Sys2Proof.Machine
end

