-- ==== Sys2Proof/Machine/Zones.lean ====
section
/-!
DEFINITION. The Zone Pressure Monitor: lift, setpoint sets, the all-in-band signal and the band timer (chapter 4).
-/
namespace Sys2Proof.Machine

def PerZone.allTrue (t : PerZone Bool) : Bool := t.z1 && t.z2 && t.z3 && t.z4 && t.ring

/-- The all-in-band signal (R70). -/
def ZoneMonitor.allInBand (z : ZoneMonitor) : Bool :=
  match z.lift with
  | .up => false
  | .down _ _ => z.inBand.allTrue

/-- The five setpoint outputs (R68). -/
def ZoneMonitor.setpoints (z : ZoneMonitor) : PerZone Nat :=
  match z.lift with
  | .up => PerZone.all 0
  | .down (.gap v) _ => PerZone.all v
  | .down (.polish zs) _ => zs
  | .down (.rinse v) _ => PerZone.all v

/-- The band timer at a touch-down: at 0, running when some input is out of band (R71). -/
def BandTimer.start (allIn : Bool) : BandTimer := ⟨0, !allIn, false⟩

/-- A change of the set in force while DOWN leaves the band timer as it is (R68, R71); while UP it changes nothing. -/
def ZoneMonitor.applySet (z : ZoneMonitor) (x : ZoneSet) : ZoneMonitor :=
  match z.lift with
  | .up => z
  | .down _ b => { z with lift := .down x b }

def State.applySet (s : State) (h : HeadId) (x : ZoneSet) : State := s.modZone h fun z => z.applySet x

/-- Lift the head (R67): the set in force and the band timer are gone with it, and the unit of the platen works its outer
limit out again (R73, R138). -/
def State.liftUp (s : State) (h : HeadId) : State :=
  if s.isDown h then
    let t := s.modZone h fun z => { z with lift := .up }
    match s.platenOf h with
    | some p => t.refreshOuter p
    | none => t
  else s

/-- The causes that a change of the lift state to DOWN raises on the platen (R56, R57, R73). -/
def State.touchDownCauses (s : State) (p : PlatenId) : List Cause :=
  (if (s.base p).stalled then [.platenStall] else []) ++
  (if (s.base p).direction = .reverse then [.platenReverse] else [])

/-- Touch-down on the GAP set (R67, R71): never while the module is tripped. -/
def State.touchDown (s : State) (h : HeadId) (p : PlatenId) (gapPressure : Nat) : State :=
  if s.trip.tripped then s
  else
    (s.modZone h fun z =>
      { z with lift := .down (.gap gapPressure) (BandTimer.start z.inBand.allTrue) }).refreshOuter p

/-- A change of one in-band input (R70, R71). -/
def ZoneMonitor.inBandChange (z : ZoneMonitor) (i : ZoneId) (v : Bool) : ZoneMonitor :=
  let inputs := z.inBand.set i v
  match z.lift with
  | .up => { z with inBand := inputs }
  | .down x b =>
    let b' : BandTimer :=
      if inputs.allTrue then ⟨0, false, false⟩
      else if !v && !b.running && !b.expired then ⟨0, true, false⟩
      else b
    { z with inBand := inputs, lift := .down x b' }

/-- The band timer reaches the band timeout (R72): it stops at that value and band expired is set. -/
def ZoneMonitor.expireBand (z : ZoneMonitor) : ZoneMonitor :=
  match z.lift with
  | .up => z
  | .down x _ => { z with lift := .down x ⟨z.bandTimeout, false, true⟩ }

/-- The band timer runs (R71). -/
def ZoneMonitor.bandRunning (z : ZoneMonitor) : Bool :=
  match z.lift with
  | .up => false
  | .down _ b => b.running

end Sys2Proof.Machine
end

