-- ==== Sys2Proof/Machine/Timebase.lean ====
section
/-!
DEFINITION. The Platen Timebase: the speed setpoint, the stall timer, the accumulator's owner and gate, the amend buffer,
and how counts and index pulses move the angle (chapter 3).
-/
namespace Sys2Proof.Machine

/-- Speed of a POLISH step on platen p, in any of its phases (R54 case 2). -/
def Working.speedOn (w : Working) (p : PlatenId) : Option Nat :=
  match w.polish?, w.phase with
  | some r, some ph => if w.platen = some p ∧ ph.atPlaten then some r.speed else none
  | _, _ => none

/-- Speed of a POLISH step on platen p saved on the stack (R54 case 3). -/
def Context.speedOn (c : Context) (p : PlatenId) : Option Nat :=
  match c.saved with
  | .step w =>
    match w.polish? with
    | some r => if w.platen = some p then some r.speed else none
    | none => none
  | .intervention _ _ => none

/-- Speed the current activity of a RUNNING head asks for on platen p (R54 cases 2 and 3). -/
def Sequencer.speedOn (q : Sequencer) (p : PlatenId) : Nat :=
  match q.activity with
  | some (.step w) => (w.speedOn p).getD 0
  | some (.intervention .rinse _ _) => (q.stack.findSome? (·.speedOn p)).getD 0
  | some (.intervention .lift _ _) => (q.stack.findSome? (·.speedOn p)).getD 0
  | some (.intervention .park _ _) => 0
  | some (.intervention .trip _ _) => 0
  | none => 0

/-- The speed setpoint R54 gives for platen p. -/
def State.speedWanted (s : State) (p : PlatenId) : Nat :=
  if s.trip.tripped then 0
  else
    match (s.station (.platen p)).holder with
    | none => 0
    | some .conditioner => if (s.cond p).runHeld then (s.base p).config.conditioningSpeed else 0
    | some (.head h) => if s.isRunning h then (s.seq h).speedOn p else 0

/-- A new setpoint and what it does to the stall timer and the stalled mark (R55). -/
def Timebase.setSpeed (b : Timebase) (v : Nat) : Timebase :=
  if b.speed = 0 ∧ 0 < v then { b with speed := v, stallTimer := some 0 }
  else if v = 0 then { b with speed := 0, stallTimer := none, stalled := false }
  else { b with speed := v }

/-- The speed setpoint is decided anew (R54). -/
def State.refreshSpeed (s : State) (p : PlatenId) : State := s.modBase p fun b => b.setSpeed (s.speedWanted p)

/-- At the end of a command every speed setpoint and every effective outer limit is worked out again (R54, R138). -/
def State.settle (s : State) : State :=
  platenIds.foldl (fun t p => (t.refreshOuter p).refreshSpeed p) s

/-- One FORWARD count on the angle (R51); the second component says that the revolution counter was incremented. -/
def Timebase.countForward (b : Timebase) : Timebase × Bool :=
  if b.config.cpr ≤ b.position + 1 then
    ({ b with direction := .forward, position := 0, revolution := b.revolution + 1 }, true)
  else ({ b with direction := .forward, position := b.position + 1 }, false)

/-- One REVERSE count on the angle (R51): a decrement of the revolution counter is no boundary. -/
def Timebase.countReverse (b : Timebase) : Timebase :=
  if b.position = 0 then
    { b with direction := .reverse, position := b.config.cpr - 1, revolution := b.revolution - 1 }
  else { b with direction := .reverse, position := b.position - 1 }

/-- What a count of either direction does to the stall timer and the stalled mark (R50, R55). -/
def Timebase.countSeen (b : Timebase) : Timebase :=
  if b.stallTimer.isSome || b.stalled then { b with stallTimer := some 0, stalled := false } else b

/-- The index check (R52): the new timebase, whether the revolution counter was incremented, whether it was a slip. -/
def Timebase.index (b : Timebase) : Timebase × Bool × Bool :=
  if b.position = 0 then (b, false, false)
  else if 2 * b.position < b.config.cpr then
    ({ b with position := 0 }, false, decide (b.config.tolerance < b.position))
  else
    ({ b with position := 0, revolution := b.revolution + 1 }, true,
      decide (b.config.tolerance < b.config.cpr - b.position))

/-- The platen whose accumulator serves the head (R58). -/
def State.ownedPlaten (s : State) (h : HeadId) : Option PlatenId :=
  platenIds.find? fun p => decide (((s.base p).owner.map Owner.head) = some h)

/-- A step takes the accumulator of its platen (R58). -/
def Timebase.own (b : Timebase) (h : HeadId) (accrued limit : Nat) (clock : StepClock) : Timebase :=
  { b with accumulator := accrued, owner := some ⟨h, limit, clock⟩ }

/-- The owner, the working limit and the clock become absent and the amend buffer is emptied (R58, R63). -/
def Timebase.disown (b : Timebase) : Timebase := { b with owner := none, amend := AmendBuffer.empty }

def AmendBuffer.isEmpty (a : AmendBuffer) : Bool := a.limit.isNone && a.opFixed.isNone && a.opPercent.isNone

/-- The working record with what the Platen Timebase holds for the step: the accumulator, the working limit, and
AMEND_DROPPED when an amend was pending (R58, R63). -/
def State.collect (s : State) (h : HeadId) (w : Working) : Working :=
  match s.ownedPlaten h with
  | none => w
  | some p =>
    let b := s.base p
    { w with
      accrued := b.accumulator
      limit := (b.owner.map Owner.limit).getD w.limit
      flags := { w.flags with amendDropped := w.flags.amendDropped || !b.amend.isEmpty } }

/-- The accumulator's owner is cleared and the amend buffer emptied for a head (R58, R63). -/
def State.disown (s : State) (h : HeadId) : State :=
  match s.ownedPlaten h with
  | none => s
  | some p => s.modBase p Timebase.disown

/-- Accrual is gated on (R59). -/
def State.gate (s : State) (p : PlatenId) : Bool :=
  match (s.base p).owner with
  | none => false
  | some o =>
    (match s.runningStep o.head with
     | some w => w.pressing
     | none => false) &&
    (s.zone o.head).allInBand && !(s.base p).stalled

/-- The overpolish target: the fixed amount plus the floor of the percent times the captured accrued units, divided by
100 (R36). -/
def overpolishTarget (fixed percent captured : Nat) : Nat := fixed + percent * captured / 100

end Sys2Proof.Machine
end

