-- ==== Sys2Proof/Machine/Manifold.lean ====
section
/-!
DEFINITION. The Dispense Manifold: bindings, the line wait lists, the answers to an acquisition, and the outputs that are
worked out from them (chapter 5).
-/
namespace Sys2Proof.Machine

def PerLine.map {α : Type} (t : PerLine α) (f : α → α) : PerLine α :=
  ⟨f t.l1, f t.l2, f t.l3, f t.l4, f t.l5, f t.l6⟩

/-! ## Views of nozzles and outputs (R77, R87 to R89) -/

/-- The line feeds the nozzle (R76). -/
def Line.feeds (k : Line) (n : NozzleId) : Bool :=
  match k.state with
  | .bound m _ _ => decide (m = n)
  | _ => false

/-- The line's binding serves the head (R76). -/
def Line.serves (k : Line) (h : HeadId) : Bool :=
  match k.state with
  | .bound _ g _ => decide (g = h)
  | _ => false

/-- The line bound to a nozzle (R77). -/
def State.boundLine (s : State) (n : NozzleId) : Option LineId := lineIds.find? fun l => (s.line l).feeds n

/-- The line in whose wait list a nozzle stands (R77). -/
def State.awaitedLine (s : State) (n : NozzleId) : Option LineId :=
  lineIds.find? fun l => (s.line l).wait.contains n

/-- The pump enable output (R87). -/
def Line.pumpOn (k : Line) : Bool :=
  match k.state with
  | .bound _ _ _ => true
  | _ => false

/-- The flow setpoint of a line (R76, R87). -/
def Line.flow (k : Line) : Nat :=
  match k.state with
  | .bound _ _ f => f
  | _ => 0

/-- The step is a POLISH step with line RINSE in one of its phases at its platen (R88). -/
def Working.rinsing (w : Working) (p : PlatenId) : Bool :=
  match w.polish?, w.phase with
  | some r, some ph => decide (r.line = .rinse) && ph.atPlaten && decide (w.platen = some p)
  | _, _ => false

/-- The rinse valve of a nozzle (R88), off while the module is tripped (R86): the RINSE-line step of a RUNNING head, or a
RINSE intervention, which stays current on a HALTED head too (R25; log entry 30). -/
def State.rinseValve (s : State) (p : PlatenId) : Bool :=
  if s.trip.tripped then false
  else
    match s.headOn p with
    | none => false
    | some h =>
      match (s.seq h).activity with
      | some (.step w) => s.isRunning h && w.rinsing p
      | some (.intervention .rinse _ _) => true
      | _ => false

/-- The activity of a head AT RINSE that keeps the spray on (R89): a DWELL step in any phase, or a PARK that has reached
RINSE. -/
def Activity.sprays : Activity → Bool
  | .step w =>
    match w.record.kind with
    | .dwell _ => true
    | _ => false
  | .intervention .park _ (some .atRinse) => true
  | .intervention _ _ _ => false

/-- The RINSE station spray (R89), off while the module is tripped (R86). -/
def State.spray (s : State) : Bool :=
  if s.trip.tripped then false
  else
    match (s.station .rinse).holder with
    | some (.head h) =>
      decide (s.stands? h = some .rinse) && ((s.seq h).activity.map Activity.sprays).getD false
    | _ => false

/-- What a nozzle's selector names (R77). -/
inductive Selector where
  | none
  | line (l : LineId)
  | rinse
  deriving DecidableEq, Repr

/-- The selector of a nozzle (R77). -/
def State.selector (s : State) (n : NozzleId) : Selector :=
  match s.boundLine n with
  | some l => .line l
  | none => if s.rinseValve n then .rinse else .none

/-! ## Releasing and keeping -/

/-- A binding released by its head leaves the line IDLE (R83 steps 1 and 2). -/
def Line.release (k : Line) (h : HeadId) : Line := if k.serves h then { k with state := .idle } else k

/-- A nozzle leaves the wait list without trace (R78). -/
def Line.leave (k : Line) (n : NozzleId) : Line := { k with wait := k.wait.filter fun m => !decide (m = n) }

/-- A head gives back its line and its nozzle leaves the line wait lists (R78, R83): the line is handed on by
State.handOnAll. -/
def State.dropLine (s : State) (h : HeadId) : State :=
  let t := { s with lines := s.lines.map fun k => k.release h }
  match s.platenOf h with
  | some n => { t with lines := t.lines.map fun k => k.leave n }
  | none => t

/-- A kept binding takes the next step's flow (R84). -/
def Line.keep (k : Line) (h : HeadId) (flow : Nat) : Line :=
  match k.state with
  | .bound n g _ => if g = h then { k with state := .bound n g flow } else k
  | _ => k

def State.keepLine (s : State) (h : HeadId) (flow : Nat) : State :=
  { s with lines := s.lines.map fun k => k.keep h flow }

/-! ## Acquiring (R79) -/

/-- Answers of the Dispense Manifold (05 section 5.3). -/
inductive LineAnswer where
  | bound | queued | faulted | unavailable
  deriving DecidableEq, Repr

/-- A nozzle joins the tail of the wait list, in which no nozzle stands twice (R78). -/
def Line.join (k : Line) (n : NozzleId) : Line := if n ∈ k.wait then k else { k with wait := k.wait ++ [n] }

/-- A request for line l through nozzle n for a step of head h (R79). -/
def State.acquireLine (s : State) (l : LineId) (n : NozzleId) (h : HeadId) (flow : Nat) (resuming : Bool) :
    State × LineAnswer :=
  let k := s.line l
  if k.feeds n then (s, .bound)
  else
    match k.state with
    | .disabled => (s, .unavailable)
    | .idle =>
      if k.wait.isEmpty && !s.trip.tripped then (s.setLine l { k with state := .bound n h flow }, .bound)
      else ((s.setLine l (k.join n)).raise .recipe (.lineWait h), .queued)
    | .faulted _ =>
      if resuming then (s, .faulted)
      else ((s.setLine l (k.join n)).raise .recipe (.lineWait h), .queued)
    | .bound _ _ _ => ((s.setLine l (k.join n)).raise .recipe (.lineWait h), .queued)

/-- The module trip at the manifold (R86): every binding dropped, every wait list emptied. -/
def Line.tripped (k : Line) : Line :=
  match k.state with
  | .bound _ _ _ => { k with state := .idle, wait := [] }
  | _ => { k with wait := [] }

end Sys2Proof.Machine
end

