-- ==== Sys2Proof/Machine/Stations.lean ====
section
/-!
DEFINITION. The Station Table: carrier moves, wait lists, the answers to a request, release, and the completion of an
ex-situ run, which releases its station (chapter 1; R25, R147).
-/
namespace Sys2Proof.Machine

def PerStation.map {α : Type} (t : PerStation α) (f : α → α) : PerStation α :=
  ⟨f t.load, ⟨f t.platen.p1, f t.platen.p2, f t.platen.p3⟩, f t.rinse⟩

/-! ## Moves (R11, R14) -/

/-- A move from station o to station d is sent, or deferred while the module is tripped (R11). -/
def Carrier.send (c : Carrier) (tripped : Bool) (o d : StationId) : Carrier :=
  if tripped then { c with position := .inTransit o d .deferred }
  else
    { c with
      position := .inTransit o d (.moving 0 c.moveLimit)
      moveNumber := c.moveNumber + 1
      sent := c.sent ++ [.move d (c.moveNumber + 1)] }

def State.sendMove (s : State) (h : HeadId) (o d : StationId) : State :=
  s.modCarrier h fun c => c.send s.trip.tripped o d

/-- HALT for a MOVING move (R14). -/
def Carrier.halt (c : Carrier) : Carrier :=
  match c.position with
  | .inTransit o d (.moving _ _) => { c with position := .inTransit o d .halted, sent := c.sent ++ [.halt] }
  | _ => c

def State.haltMove (s : State) (h : HeadId) : State := s.modCarrier h Carrier.halt

/-- A halted or deferred transit is taken forward; a MOVING move is left as it is (R4 case 2, R14). -/
def State.forwardMove (s : State) (h : HeadId) : State :=
  match (s.carrier h).position with
  | .inTransit o d .halted => s.sendMove h o d
  | .inTransit o d .deferred => s.sendMove h o d
  | _ => s

/-- A transit is turned back toward its origin (R14). -/
def State.reverseMove (s : State) (h : HeadId) (o d : StationId) : State := (s.haltMove h).sendMove h d o

/-! ## Wait lists (R3, R5) -/

/-- The station in whose wait list a head stands (R2). -/
def State.awaited (s : State) (h : HeadId) : Option StationId :=
  stationIds.find? fun d => (s.station d).wait.contains h

/-- A head leaves every station wait list without trace (R3). -/
def Station.leave (r : Station) (h : HeadId) : Station := { r with wait := r.wait.filter fun g => !decide (g = h) }

def State.leaveWaits (s : State) (h : HeadId) : State :=
  { s with stations := s.stations.map fun r => r.leave h }

/-- Following the chain of waiting from the holder of a station (R5); the fuel is the number of heads. -/
def State.closesCycle (s : State) (j : HeadId) : Nat → StationId → Bool
  | 0, _ => false
  | n + 1, d =>
    match (s.station d).holder with
    | some (.head g) =>
      match s.awaited g with
      | none => false
      | some t => if (s.station t).holder = some (.head j) then true else s.closesCycle j n t
    | _ => false

/-! ## Acquiring (R4) -/

/-- Answers of the Station Table (01 section 1.2). -/
inductive Answer where
  | alreadyHeld | granted | queued | cycle | unavailable | forward | reversed | inTransit
  deriving DecidableEq, Repr

/-- R4 case 5: OUT of service, or a platen whose pad is UNKNOWN or RETIRED. -/
def State.closedTo (s : State) (d : StationId) : Bool :=
  !(s.station d).inService ||
    (match d with
     | .platen p => decide ((s.pad p).state = .unknown) || decide ((s.pad p).state = .retired)
     | _ => false)

/-- R4 case 6: a free platen that owes a run, or whose pad is BREAK_IN, is not given to a head. -/
def State.keptForRun (s : State) (d : StationId) : Bool :=
  match d with
  | .platen p => decide (0 < (s.pad p).owed) || decide ((s.pad p).state = .breakIn)
  | _ => false

/-- A head joins the tail of a station wait list, in which no head stands twice (R3). -/
def Station.join (r : Station) (h : HeadId) : Station := if h ∈ r.wait then r else { r with wait := r.wait ++ [h] }

/-- A head's request for a station (R4). An UNPLACED head makes no request; it would be answered UNAVAILABLE. -/
def State.acquire (s : State) (h : HeadId) (d : StationId) : State × Answer :=
  match (s.carrier h).position with
  | .unplaced => (s, .unavailable)
  | .inTransit o e _ =>
    if e = d then (s.forwardMove h, .forward)
    else if o = d then (s.reverseMove h o e, .reversed)
    else (s, .inTransit)
  | .stands o =>
    if o = d then (s, .alreadyHeld)
    else if s.closedTo d then (s, .unavailable)
    else
      match (s.station d).holder with
      | none =>
        if s.keptForRun d then (s, .unavailable)
        else ((s.modStation d fun r => { r with holder := some (.head h) }).sendMove h o d, .granted)
      | some _ =>
        if s.closesCycle h headIds.length d then (s, .cycle)
        else if Config.stationWaiters ≤ (s.station d).wait.length then (s, .unavailable)
        else (s.modStation d fun r => r.join h, .queued)

/-! ## Resumable halts (R25) -/

/-- HALTED for a resumable reason; a closing purpose is kept (R25, R26). -/
def HeadState.halt (q : HeadState) (r : HaltReason) : HeadState :=
  match q with
  | .closing e => .halted r (some e)
  | .halted _ c => .halted r c
  | .unplaced | .idle | .running => .halted r none

/-- The head halts for a resumable reason: UP, in no wait list, its activity and stack kept (R25). -/
def State.haltResumable (s : State) (h : HeadId) (r : HaltReason) : State :=
  (((s.leaveWaits h).liftUp h).modSeq h fun q => { q with state := q.state.halt r }).raise .recipe (.halted h)

/-- The working record of the current step, changed. -/
def State.modWorking (s : State) (h : HeadId) (f : Working → Working) : State :=
  match s.current h with
  | some w => s.setWorking h (f w)
  | none => s

/-- A station request of the current step is turned down: the step waits in no phase and the head halts (R6, R25; log
entry 20). -/
def State.haltRequest (s : State) (h : HeadId) (r : HaltReason) : State :=
  (s.modWorking h fun w => { w with phase := none }).haltResumable h r

/-! ## Release (R8) -/

/-- The Head Sequencer of a granted waiter continues as for GRANTED (R6, R8 step 3). -/
def Activity.granted : Activity → Activity
  | .step w => .step { w with phase := some .inTransit }
  | .intervention c causes (some _) => .intervention c causes (some .moving)
  | .intervention c causes none => .intervention c causes none

/-- The oldest waiter is granted the station and its move is sent, or the station stays free (R8 steps 3 and 5). -/
def State.grantNext (s : State) (d : StationId) : State :=
  match (s.station d).wait with
  | [] => s
  | g :: rest =>
    ((s.modStation d fun r => { r with holder := some (.head g), wait := rest }).sendMove g (s.stationOf g) d).modSeq g
      fun q => { q with activity := q.activity.map Activity.granted }

/-- Every waiter is removed, oldest first, and answered UNAVAILABLE (R8 step 4). -/
def State.dismissAll (s : State) (d : StationId) : State :=
  (s.station d).wait.foldl (fun t g => (t.leaveWaits g).haltRequest g .stationUnavailable) s

/-- What follows once a station is left (R8 steps 2 to 5). -/
def State.handStation (s : State) (d : StationId) : State :=
  match d with
  | .platen p =>
    if 0 < (s.pad p).owed then (if s.mayClaim p then s.startRun p else s)
    else if (s.pad p).state.usable then s.grantNext d
    else s.dismissAll d
  | .load => s.grantNext d
  | .rinse => s.grantNext d

/-- The wafer count at a release by a head (R8 step 1, R156). -/
def State.accountRelease (s : State) (d : StationId) : State :=
  match d, (s.station d).holder with
  | .platen p, some (.head _) => s.modPad p Pad.countWafer
  | _, _ => s

/-- The release of a station by its holder (R8). -/
def State.release (s : State) (d : StationId) : State :=
  ((s.accountRelease d).modStation d fun r => { r with holder := none }).handStation d

/-- The completion of an ex-situ run (R147). -/
def State.completeRun (s : State) (p : PlatenId) : State :=
  (((s.modPad p Pad.runDone).modCond p fun c =>
      { c with runHeld := false, sweepsDone := 0 }.stow (s.base p).config).release (.platen p)).raise
    .recipe (.runDone p)

end Sys2Proof.Machine
end

