-- ==== Sys2Proof/Machine/Qualifier.lean ====
section
/-!
DEFINITION. The Endpoint Qualifier: arming, settle, the close of the watch and the classification of marks (chapter 6).
What a confirmation does to the head is in Machine/Sequencer.lean.
-/
namespace Sys2Proof.Machine

/-- The head whose step the watch serves (R97). -/
def QualState.watching : QualState → Option HeadId
  | .idle => none
  | .settling h _ => some h
  | .watch h _ => some h
  | .confirm h _ _ => some h

/-- Arming (R98): every count, the last mark and the capture are cleared. -/
def State.armWatch (s : State) (p : PlatenId) (h : HeadId) (settle : Nat) : State :=
  (s.setQual p { Qualifier.reset with
      state := if settle = 0 then .watch h (s.base p).revolution else .settling h settle }).raise
    .endpoint (.watchOpen p)

/-- A revolution boundary at the qualifier (R99); `rev` is the revolution counter after the boundary. -/
def Qualifier.boundary (q : Qualifier) (rev : Rev) : Qualifier :=
  match q.state with
  | .settling h n => { q with state := if n ≤ 1 then .watch h rev else .settling h (n - 1) }
  | .idle | .watch _ _ | .confirm _ _ _ => q

/-- The close of a watch (R100); a qualifier found IDLE stays as it is. -/
def State.closeWatch (s : State) (p : PlatenId) : State :=
  if (s.qual p).state = .idle then s
  else (s.modQual p fun q => { q with state := .idle }).raise .endpoint (.watchClosed p)

/-- The watch of a head, wherever it stands, closes (R100). -/
def State.closeWatchOf (s : State) (h : HeadId) : State :=
  platenIds.foldl (fun t p => if (t.qual p).state.watching = some h then t.closeWatch p else t) s

/-! ## Marks (R101 to R104) -/

/-- Dispositions of a mark (R101). -/
inductive Disposition where
  | accepted | late | unexpected | ignored | duplicate
  deriving DecidableEq, Repr

/-- Revolution a is revolution b or a later one (R97): their difference modulo 2^32 is below 2^31. -/
def revNotBefore (a b : Rev) : Bool := decide ((a - b).toNat < 2147483648)

/-- What taking a mark gives: the qualifier, the disposition, and whether the run has reached the confirm number. -/
structure MarkTaken where
  qual : Qualifier
  disposition : Disposition
  confirms : Bool
  deriving DecidableEq, Repr

/-- A clearing mark counted (R103, R104): the confirm count becomes n. -/
def Qualifier.count (q : Qualifier) (h : HeadId) (start : Rev) (n : Nat) (m : Rev) (k : MarkKind) (number : Nat) :
    MarkTaken :=
  ⟨{ q with state := .confirm h start n, lastCounted := some m, lastKind := some k }, .accepted, decide (number ≤ n)⟩

/-- A mark taken in WATCH (R103). -/
def Qualifier.markInWatch (q : Qualifier) (h : HeadId) (start m : Rev) (k : MarkKind) (number : Nat) : MarkTaken :=
  match k with
  | .film => ⟨{ q with lastKind := some .film }, .accepted, false⟩
  | .clearing => q.count h start 1 m k number
  | .cleared => q.count h start 1 m k number

def Qualifier.duplicated (q : Qualifier) : MarkTaken :=
  ⟨{ q with duplicate := satSucc Config.max16 q.duplicate }, .duplicate, false⟩

/-- A FILM that ends a run of clearing marks (R104). -/
def Qualifier.relocked (q : Qualifier) (h : HeadId) (start : Rev) : MarkTaken :=
  ⟨{ q with
      state := .watch h start
      lastCounted := none
      relock := satSucc Config.max16 q.relock
      lastKind := some .film }, .accepted, false⟩

/-- A mark taken in CONFIRM (R104); l is the last counted revolution. -/
def Qualifier.markInConfirm (q : Qualifier) (h : HeadId) (start : Rev) (n : Nat) (l m : Rev) (k : MarkKind)
    (number : Nat) : MarkTaken :=
  match k with
  | .film => if revNotBefore m l then q.relocked h start else q.duplicated
  | .clearing | .cleared =>
    if m = l ∨ revNotBefore m l = false then q.duplicated
    else if m = l + 1 then q.count h start (n + 1) m k number
    else q.count h start 1 m k number

/-- The delta of a mark (R101): the low 8 bits of the revolution counter, less the mark's number, modulo 256. -/
def markDelta (counter : Rev) (rev : Byte) : Byte := counter.setWidth 8 - rev

/-- The classification of a mark (R102). -/
def Qualifier.mark (q : Qualifier) (counter : Rev) (rev : Byte) (k : MarkKind) (number : Nat) : MarkTaken :=
  let delta := markDelta counter rev
  let m := counter - delta.setWidth 32
  let ignored : MarkTaken := ⟨{ q with ignored := satSucc Config.max16 q.ignored }, .ignored, false⟩
  let late : MarkTaken := ⟨{ q with late := satSucc Config.max16 q.late }, .late, false⟩
  match q.state with
  | .idle => ⟨{ q with unexpected := satSucc Config.max16 q.unexpected }, .unexpected, false⟩
  | .settling _ _ => if 2 ≤ delta.toNat then late else ignored
  | .watch h start =>
    if 2 ≤ delta.toNat then late
    else if revNotBefore m start then q.markInWatch h start m k number
    else ignored
  | .confirm h start n =>
    if 2 ≤ delta.toNat then late
    else if revNotBefore m start then q.markInConfirm h start n (q.lastCounted.getD (m - 1)) m k number
    else ignored

end Sys2Proof.Machine
end

