-- ==== Sys2Proof/Machine/Interventions.lean ====
section
/-!
DEFINITION. The phases of a POLISH step from KEEPOUT_WAIT on (R33 to R36), the context stack (R115, R116), the beginning
of an intervention (R113, R117 to R119) and the handing on of an idle line (R82, R83), which may begin interventions.
-/
namespace Sys2Proof.Machine

/-- The POLISH step a RUNNING head works on at its platen. -/
def State.polishing (s : State) (h : HeadId) : Option (Working × PolishRecord × PlatenId) :=
  match s.runningStep h, s.platenOf h with
  | some w, some p =>
    match w.polish? with
    | some r => some (w, r, p)
    | none => none
  | _, _ => none

/-! ## Phases -/

/-- The effective gap, and whether GAP_EXTENDED is set (R34). -/
def effectiveGap (r : PolishRecord) (lead : Nat) (kept : Bool) : Nat × Bool :=
  match r.line with
  | .none => (r.gap, false)
  | .line _ | .rinse => if !kept && decide (r.gap < lead) then (lead, true) else (r.gap, false)

/-- Entry to POLISH, or to OVERPOLISH for a confirmed step (R35, R98, R107, R123). -/
def State.enterPolish (s : State) (h : HeadId) : State :=
  match s.polishing h with
  | none => s
  | some (w, r, p) =>
    let t := s.applySet h (.polish r.zones)
    match w.confirmed with
    | some _ => t.setWorking h { w with phase := some .overpolish, gapRemaining := 0 }
    | none =>
      let u := t.setWorking h { w with phase := some .polish, gapRemaining := 0 }
      match r.termination with
      | .endpoint => u.armWatch p h r.settle
      | .limit => u

/-- Entry to GAP (R34), with the causes that the touch-down raises (R56, R57, R67). A touch-down that raises a cause
leaves the step in GAP (log entry 26). -/
def State.enterGap (s : State) (h : HeadId) : State × List Cause :=
  match s.polishing h with
  | none => (s, [])
  | some (w, r, p) =>
    let g := effectiveGap r (s.base p).config.lead w.keptLine
    let t := s.setWorking h
      { w with
        phase := some .gap
        gapRemaining := g.1
        flags := { w.flags with gapExtended := w.flags.gapExtended || g.2 } }
    if s.isDown h then
      let u := t.applySet h (.gap r.gapPressure)
      (if g.1 = 0 then u.enterPolish h else u, [])
    else
      let causes := s.touchDownCauses p
      let u := t.touchDown h p r.gapPressure
      (if g.1 = 0 ∧ causes = [] then u.enterPolish h else u, causes)

/-- Entry to KEEPOUT_WAIT, which ends at once when the head is DOWN or the arm stands at or below K (R33). -/
def State.enterKeepout (s : State) (h : HeadId) : State × List Cause :=
  match s.polishing h with
  | none => (s, [])
  | some (w, _, p) =>
    let t := (s.setWorking h { w with phase := some .keepoutWait }).refreshOuter p
    if s.isDown h ∨ (t.cond p).position ≤ (t.base p).config.keepOut then t.enterGap h else (t, [])

/-! ## The context stack (R115, R116) -/

/-- Overpolish units: the accrual after the confirmation (R36, R40). -/
def Working.overpolish (w : Working) : Nat :=
  match w.confirmed with
  | some c => w.accrued - c.capture.accrued
  | none => 0

/-- The line of a result: that of a POLISH step (R40). -/
def StepRecord.line (r : StepRecord) : StepLine :=
  match r.kind with
  | .polish k => k.line
  | _ => .none

/-- The lost step record of a discarded step context (R116). -/
def Working.lose (w : Working) : LostStep :=
  ⟨w.index, w.startBeat, w.interventions, w.flags, w.accrued, w.overpolish, w.platen, w.record.line⟩

/-- The step a context saves. -/
def Context.step? (c : Context) : Option Working :=
  match c.saved with
  | .step w => some w
  | .intervention _ _ => none

/-- A push (R116); the second component says that a context was discarded. -/
def Sequencer.push (q : Sequencer) (c : Context) : Sequencer × Bool :=
  if q.stack.length < Config.stackDepth then ({ q with stack := c :: q.stack }, false)
  else
    match (q.stack.getLast?).bind Context.step? with
    | some w => ({ q with stack := c :: q.stack.dropLast, lost := some w.lose }, true)
    | none => ({ q with stack := c :: q.stack.dropLast }, true)

def State.pushContext (s : State) (h : HeadId) (c : Context) : State :=
  let r := (s.seq h).push c
  let t := s.setSeq h r.1
  if r.2 then t.raise .recipe (.contextLost h) else t

def Working.bump (w : Working) : Working := { w with interventions := satSucc 255 w.interventions }

def Context.bump (c : Context) : Context :=
  match c.saved with
  | .step w => { c with saved := .step w.bump }
  | .intervention _ _ => c

/-- One more intervention on the head's step, saved or lost (R117 step 7). -/
def Sequencer.bump (q : Sequencer) : Sequencer :=
  { q with
    stack := q.stack.map Context.bump
    lost := q.lost.map fun l => { l with interventions := satSucc 255 l.interventions } }

/-! ## Beginning an intervention (R117 to R119) -/

/-- Class of an intervention (R112). -/
def Intervention.rank : Intervention → Nat
  | .rinse => 1
  | .lift => 2
  | .park => 3
  | .trip => 4

/-- The intervention a cause begins (R112). -/
def Cause.cls : Cause → Intervention
  | .lineFault _ => .rinse
  | .holdRinse => .rinse
  | .pressureBand => .lift
  | .platenStall => .lift
  | .platenReverse => .lift
  | .holdLift => .lift
  | .holdPark => .park
  | .interlock => .trip

/-- Class of an activity: a step is 0 (R112). -/
def Activity.rank : Activity → Nat
  | .step _ => 0
  | .intervention c _ _ => c.rank

def State.setPark (s : State) (h : HeadId) (p : ParkProgress) : State :=
  s.modSeq h fun q =>
    { q with
      activity := q.activity.map fun a =>
        match a with
        | .intervention c causes _ => .intervention c causes (some p)
        | .step w => .step w }

/-- PARK progress for an answer (R119). -/
def Answer.park : Answer → ParkProgress
  | .alreadyHeld => .atRinse
  | .granted | .forward | .reversed => .moving
  | .queued => .queued
  | .cycle | .unavailable | .inTransit => .inPlace

/-- A PARK sets the head UP and asks for RINSE (R119). -/
def State.parkAsk (s : State) (h : HeadId) : State :=
  let r := (s.liftUp h).acquire h .rinse
  let t := r.1.setPark h r.2.park
  if r.2 = .cycle then t.raise .recipe (.moveCycle h) else t

/-- Entry work of an intervention (R118, R119, R130). -/
def State.enterClass (s : State) (h : HeadId) : Intervention → State
  | .rinse => s.applySet h (.rinse (s.zone h).rinsePressure)
  | .lift => s.liftUp h
  | .park => s.parkAsk h
  | .trip => s.liftUp h

/-- What a pushed step gives up (R117 step 1), and its working record as saved (R115). -/
def State.suspendStep (s : State) (h : HeadId) : State :=
  (((s.disown h).closeWatchOf h).withdraw h).dropLine h

/-- The phase a suspended step resumes into (R115): one that moves back keeps the phase it was moving back to. -/
def Working.suspended (w : Working) : Working :=
  { w with
    resume :=
      match w.resume with
      | some p => some p
      | none => w.phase }

/-- What a context saves of an activity (R115). -/
def State.saved (s : State) (h : HeadId) : Activity → Saved
  | .step w => .step (s.collect h w).suspended
  | .intervention c causes _ => .intervention c causes

/-- The transit a context saves (R115, R117 step 4). -/
def Position.transit? (p : Position) : Option Position :=
  match p with
  | .inTransit _ _ _ => some p
  | _ => none

/-- Progress field at the beginning of an intervention: present for a PARK alone (R112). -/
def Intervention.progress : Intervention → Option ParkProgress
  | .park => some .queued
  | .rinse | .lift | .trip => none

/-- An intervention begins over an activity (R117). A line it frees is handed on by State.handOnAll. -/
def State.beginIntervention (s : State) (h : HeadId) (a : Activity) (c : Cause) : State :=
  let kept := s.saved h a
  let t := ((s.suspendStep h).leaveWaits h).haltMove h
  let u := t.pushContext h ⟨kept, (t.carrier h).position.transit?⟩
  let v := u.modSeq h fun q => { q with activity := some (.intervention c.cls [c] c.cls.progress) }
  ((v.enterClass h c.cls).modSeq h Sequencer.bump).raise .recipe (.intervened h)

/-- A cause joins the cause set of the current intervention (R113). -/
def Activity.addCause (a : Activity) (c : Cause) : Activity :=
  match a with
  | .step w => .step w
  | .intervention k causes p => if c ∈ causes then .intervention k causes p else .intervention k (causes ++ [c]) p

/-- A cause reaches a head (R113). A line it frees is handed on by State.handOnAll. -/
def State.takeCause (s : State) (h : HeadId) (c : Cause) : State :=
  if !s.isRunning h then s
  else
    match (s.seq h).activity with
    | none => s
    | some a =>
      if a.rank < c.cls.rank then s.beginIntervention h a c
      else if a.rank = c.cls.rank then s.modSeq h fun q => { q with activity := some (a.addCause c) }
      else s

/-- The step goes on from KEEPOUT_WAIT, taking the causes of a touch-down (R33, R34, R56, R57). -/
def State.toKeepout (s : State) (h : HeadId) : State :=
  let r := s.enterKeepout h
  r.2.foldl (fun t c => t.takeCause h c) r.1

/-! ## Handing a line on (R82, R83, R86, R92) -/

/-- An IDLE line whose wait list is not empty binds its oldest waiter, whose step then ends ACQUIRE_LINE, while the
module is not tripped. The fuel is the length of the wait list: every turn takes one nozzle from it. -/
def State.handOn (l : LineId) : Nat → State → State
  | 0, s => s
  | n + 1, s =>
    match s.trip.tripped, (s.line l).state, (s.line l).wait with
    | false, .idle, p :: rest =>
      let t := s.modLine l fun k => { k with wait := rest }
      match t.headOn p with
      | none => handOn l n t
      | some g =>
        match t.polishing g with
        | none => handOn l n t
        | some (_, r, _) =>
          handOn l n ((t.modLine l fun k => { k with state := .bound p g r.flow }).toKeepout g)
    | _, _, _ => s

/-- Every idle line with waiters is handed on. -/
def State.handOnAll (s : State) : State :=
  lineIds.foldl (fun t l => t.handOn l (t.line l).wait.length) s

/-- A cause is raised on a head by a block (R113). -/
def State.raiseCause (s : State) (h : HeadId) (c : Cause) : State := (s.takeCause h c).handOnAll

end Sys2Proof.Machine
end

