-- ==== Sys2Proof/Machine/Sequencer.lean ====
section
/-!
DEFINITION. The Head Sequencer: ACQUIRE_LINE, results, halts, step end, the next step and the end of the list
(chapter 2).
-/
namespace Sys2Proof.Machine

/-! ## ACQUIRE_LINE (R32, R79 to R81) -/

/-- NO_INSITU is set when the platen's disk is not usable (R32, R142). -/
def State.askInSitu (s : State) (h : HeadId) (p : PlatenId) : State :=
  (s.modWorking h fun w =>
    { w with flags := { w.flags with noInsitu := w.flags.noInsitu || !decide ((s.disk p).state = .active) } }).inSituRequest
    h p

/-- What follows the answer to a line request (R32, R80, R81). -/
def State.lineAnswered (s : State) (h : HeadId) (l : LineId) : LineAnswer → State
  | .bound => s.toKeepout h
  | .queued => s.liftUp h
  | .faulted => s.takeCause h (.lineFault l)
  | .unavailable => (s.withdraw h).haltResumable h .stationUnavailable

/-- Entry to ACQUIRE_LINE (R32). -/
def State.enterAcquire (s : State) (h : HeadId) : State :=
  match s.polishing h with
  | none => s
  | some (w, r, p) =>
    let t := s.setWorking h { w with phase := some .acquireLine, resume := none }
    let u := if r.inSitu then t.askInSitu h p else t
    match r.line with
    | .none => (u.toKeepout h).handOnAll
    | .rinse => (u.toKeepout h).handOnAll
    | .line l =>
      let a := u.acquireLine l p h r.flow w.resuming
      (a.1.lineAnswered h l a.2).handOnAll

/-! ## Results (R40) -/

/-- The result of a step whose working record is at hand (R40). -/
def Working.result (w : Working) (o : StepOutcome) (endBeat : Nat) : ResultRecord :=
  { index := w.index
    outcome := o
    flags := w.flags
    accrued := w.accrued
    overpolish := w.overpolish
    capture := if o = .endpoint then w.confirmed.map Confirmed.capture else none
    interventions := w.interventions
    startBeat := w.startBeat
    endBeat := endBeat
    platen := w.platen
    line := w.record.line }

/-- The result of a step whose context was discarded (R116). -/
def LostStep.result (l : LostStep) (o : StepOutcome) (endBeat : Nat) : ResultRecord :=
  { index := l.index
    outcome := o
    flags := l.flags
    accrued := l.accrued
    overpolish := l.overpolish
    capture := none
    interventions := l.interventions
    startBeat := l.startBeat
    endBeat := endBeat
    platen := l.platen
    line := l.line }

/-- The SKIPPED result of the step at an index (R23): a POLISH step's carries its line (R40). -/
def skippedResult (index : Nat) (rec : StepRecord) (beat : Nat) : ResultRecord :=
  { index := index
    outcome := .skipped
    flags := ResultFlags.clear
    accrued := 0
    overpolish := 0
    capture := none
    interventions := 0
    startBeat := beat
    endBeat := beat
    platen := none
    line := rec.line }

/-- The result of the head's step, wherever it stands: current, saved or lost; none when it has been written (R26, R42,
R127). -/
def State.stepResult (s : State) (h : HeadId) (o : StepOutcome) : Option ResultRecord :=
  match s.current h with
  | some w => some ((s.collect h w).result o s.beat.counter)
  | none =>
    match (s.seq h).stack.findSome? Context.step? with
    | some w => some (w.result o s.beat.counter)
    | none => (s.seq h).lost.map fun l => l.result o s.beat.counter

/-! ## Ends of the list (R26, R39, R42) -/

/-- The list stops short of its end: the result is written, the stack cleared, every resource given back (R26 steps 1 to
5; R42 steps 1 to 7). -/
def State.endRun (s : State) (h : HeadId) (o : StepOutcome) : State :=
  let r := s.stepResult h o
  let t := s.modSeq h fun q =>
    { q with results := q.results ++ r.toList, activity := none, stack := [], lost := none }
  (((((t.disown h).closeWatchOf h).withdraw h).dropLine h).leaveWaits h).liftUp h

def FinalReason.outcome : FinalReason → StepOutcome
  | .refusedPlace => .refusedPlace
  | .refusedNoWafer => .refusedNoWafer
  | .waferLost => .waferLost
  | .lost => .lost

def State.setHead (s : State) (h : HeadId) (x : HeadState) : State := s.modSeq h fun q => { q with state := x }

/-- The notices of a head's entry into IDLE (R39, R42). -/
def State.idleNotices (s : State) (h : HeadId) : State :=
  let t := s.raise .recipe (.listDone h)
  if t.stands? h = some .load then
    t.raise .transfer (if (t.seq h).vacuum then .readyUnload h else .readyLoad h)
  else t

/-- A head goes IDLE (R39, R42). -/
def State.enterIdle (s : State) (h : HeadId) : State := (s.setHead h .idle).idleNotices h

/-- A head takes the end state of its list: HALTED with its notice, or IDLE with its notices (R26). -/
def State.takeEnd (s : State) (h : HeadId) : EndState → State
  | .idle => s.enterIdle h
  | .halted r => (s.setHead h (.halted (.final r) none)).raise .recipe (.halted h)

/-- A head whose list has stopped takes its end state at a station, or closes its transit first (R26, R42). -/
def State.close (s : State) (h : HeadId) (e : EndState) : State :=
  match (s.carrier h).position with
  | .inTransit _ _ _ => (s.setHead h (.closing e)).forwardMove h
  | _ => s.takeEnd h e

/-- A final halt (R26). -/
def State.finalHalt (s : State) (h : HeadId) (r : FinalReason) : State :=
  ((s.endRun h r.outcome).close h (.halted r)).handOnAll

/-! ## Taking a step (R28 to R31) -/

/-- The working record of a step that becomes current (R28): no result flags, intervention count 0. -/
def Working.fresh (index : Nat) (rec : StepRecord) (here : StationId) (beat : Nat) (kept : Bool) : Working :=
  { index := index
    record := rec
    phase :=
      match rec.kind with
      | .dwell _ => some .dwell
      | _ => none
    resume := none
    station :=
      match rec.kind with
      | .move d => d
      | _ => here
    startBeat := beat
    interventions := 0
    flags := ResultFlags.clear
    gapRemaining := 0
    dwellRemaining :=
      match rec.kind with
      | .dwell t => t
      | _ => 0
    confirmed := none
    accrued := 0
    limit :=
      match rec.kind with
      | .polish r => r.limit
      | _ => 0
    opFixed :=
      match rec.kind with
      | .polish r => r.opFixed
      | _ => 0
    opPercent :=
      match rec.kind with
      | .polish r => r.opPercent
      | _ => 0
    platen := none
    resuming := false
    keptLine := kept }

/-- The step continues a POLISH on the same line (R34, R84). -/
def StepRecord.continues (rec : StepRecord) (prev : Option StepLine) : Bool :=
  match rec.kind with
  | .polish r => decide (prev = some r.line)
  | _ => false

/-- What a POLISH step with line `prev` leaves behind, decided by the next executed step (R38). -/
def State.leaveBehind (s : State) (h : HeadId) (prev : Option StepLine) (next : Option StepRecord) : State :=
  match prev with
  | none => s
  | some l =>
    match next.map StepRecord.kind with
    | some (.polish r) =>
      let t := s.applySet h (.gap r.gapPressure)
      let u := if r.line = l then t.keepLine h r.flow else t.dropLine h
      (if r.inSitu then u else u.withdraw h).handOnAll
    | _ => (((s.liftUp h).withdraw h).dropLine h).handOnAll

/-- What follows an answer to a MOVE step or a move back (R6), but for ALREADY_HELD. -/
def State.moveAnswered (s : State) (h : HeadId) : Answer → State
  | .alreadyHeld => s
  | .granted => s.modWorking h fun w => { w with phase := some .inTransit }
  | .forward => s.modWorking h fun w => { w with phase := some .inTransit }
  | .reversed => s.modWorking h fun w => { w with phase := some .inTransit }
  | .queued => s.modWorking h fun w => { w with phase := some .waitStation }
  | .inTransit => (s.modWorking h fun w => { w with phase := some .inTransit }).forwardMove h
  | .cycle => (s.raise .recipe (.moveCycle h)).haltRequest h .cycle
  | .unavailable => s.haltRequest h .stationUnavailable

/-- The checks of a POLISH step that becomes current (R31, R58). -/
def State.polishChecks (s : State) (h : HeadId) (r : PolishRecord) : State :=
  match s.platenOf h with
  | none => s.finalHalt h .refusedPlace
  | some p =>
    let t := s.modWorking h fun w => { w with platen := some p }
    if (s.seq h).vacuum then (t.modBase p fun b => b.own h 0 r.limit r.clock).enterAcquire h
    else t.finalHalt h .refusedNoWafer

/-- The speed of the platen a head stands at is decided anew (R54). -/
def State.refreshHere (s : State) (h : HeadId) : State :=
  match s.platenOf h with
  | some p => s.refreshSpeed p
  | none => s

/-- A step ends in a normal outcome: flags, completion action, result (R38 steps 1 to 3). -/
def State.closeStep (s : State) (h : HeadId) (o : StepOutcome) : State :=
  match s.current h with
  | none => s
  | some w =>
    let r := (s.collect h w).result o s.beat.counter
    ((s.disown h).closeWatchOf h).modSeq h fun q =>
      { (q.endpointFlags o).applyAction w.record.action with results := q.results ++ [r], activity := none }

/-- The list from index i on (R28, R38, R39): `prev` is the line of the POLISH step just ended, whose leavings are
decided by the next executed step. A MOVE answered ALREADY_HELD ends at once, and the next step becomes current. -/
def State.advance (h : HeadId) : List StepRecord → Nat → Option StepLine → State → State
  | [], _, prev, s => (s.leaveBehind h prev none).enterIdle h
  | rec :: rest, i, prev, s =>
    if s.guardSkips h rec.guard then
      advance h rest (i + 1) prev
        (s.modSeq h fun q => { q with results := q.results ++ [skippedResult i rec s.beat.counter] })
    else
      let t := (s.leaveBehind h prev (some rec)).setWorking h
        (Working.fresh i rec (s.stationOf h) s.beat.counter (rec.continues prev))
      match rec.kind with
      | .dwell _ => t.refreshHere h
      | .polish r => t.polishChecks h r
      | .move d =>
        let a := (t.refreshHere h).acquire h d
        if a.2 = .alreadyHeld then advance h rest (i + 1) none (a.1.closeStep h .completed)
        else a.1.moveAnswered h a.2

/-- The current step ends in a normal outcome and the next becomes current (R38). -/
def State.finishStep (s : State) (h : HeadId) (o : StepOutcome) : State :=
  match s.current h with
  | none => s
  | some w =>
    State.advance h ((s.seq h).steps.drop (w.index + 1)) (w.index + 1) (w.polish?.map PolishRecord.line)
      (s.closeStep h o)

/-! ## Compares and confirmation (R36, R60, R62, R105) -/

/-- How the owning step stands against its limit and its overpolish target (R60, R62): the outcome it ends with, and
whether CLAMPED is set. -/
def Working.due (w : Working) (accumulator limit : Nat) : Option (StepOutcome × Bool) :=
  match w.polish?, w.phase with
  | some r, some .polish =>
    if limit ≤ accumulator then
      match r.termination with
      | .limit => some (.completed, false)
      | .endpoint => some (.epMiss, false)
    else none
  | some _, some .overpolish =>
    match w.confirmed with
    | none => none
    | some c =>
      if c.target ≤ accumulator - c.capture.accrued then some (.endpoint, false)
      else if limit ≤ accumulator then some (.endpoint, true)
      else none
  | _, _ => none

/-- The compare of a platen's accumulator, for a step whose activity is current (R60, R62). -/
def State.due (s : State) (p : PlatenId) : Option (HeadId × StepOutcome × Bool) :=
  match (s.base p).owner with
  | none => none
  | some o =>
    match s.runningStep o.head with
    | none => none
    | some w => (w.due (s.base p).accumulator o.limit).map fun e => (o.head, e.1, e.2)

/-- The step ends at a compare (R35, R36, R60). -/
def State.endDue (s : State) (e : HeadId × StepOutcome × Bool) : State :=
  (s.modWorking e.1 fun w => { w with flags := { w.flags with clamped := w.flags.clamped || e.2.2 } }).finishStep e.1
    e.2.1

/-- One advance of the accumulator to the value given, and the compare after it (R59, R60, R156). -/
def State.accrueTo (s : State) (p : PlatenId) (v : Nat) : State :=
  let t := (s.modBase p fun b => { b with accumulator := v }).modPad p fun k => { k with polishMark := true }
  match t.due p with
  | some e => t.endDue e
  | none => t

/-- One unit of accrual, while the gate is on and the step runs on the clock given (R59). -/
def State.accrue (s : State) (p : PlatenId) (c : StepClock) : State :=
  if s.gate p ∧ (s.base p).owner.map Owner.clock = some c then s.accrueTo p ((s.base p).accumulator + 1) else s

/-- A confirmation reaches the watching head (R36). -/
def State.confirmStep (s : State) (h : HeadId) (c : Capture) : State :=
  match s.runningStep h with
  | none => s
  | some w =>
    (s.setWorking h
      { w with
        phase := some .overpolish
        confirmed := some ⟨c, overpolishTarget w.opFixed w.opPercent c.accrued⟩ }).modSeq h fun q =>
      { q with ep := true, epmiss := false }

/-- The run of clearing marks is confirmed (R105). With a target of 0 the step ends at the confirmation, the watch having
closed already (R36, R105; log entry 27). -/
def State.confirm (s : State) (p : PlatenId) : State :=
  match (s.qual p).state.watching with
  | none => s
  | some h =>
    let b := s.base p
    let c : Capture := ⟨b.revolution, b.position, b.accumulator⟩
    let t := ((((s.modQual p fun q => { q with capture := some c }).confirmStep h c).raise .endpoint
      (.confirmed p)).closeWatch p)
    match (t.current h).bind Working.confirmed with
    | some k => if k.target = 0 then t.finishStep h .endpoint else t
    | none => t

end Sys2Proof.Machine
end

