-- ==== Sys2Proof/Machine/Unwind.lean ====
section
/-!
DEFINITION. Resuming: the move back, the unwinding of the context stack (R120 to R124), the recovery of a line (R92,
R121), completions and faults of moves (R12, R13), and RESUME of a halted head (R126).
-/
namespace Sys2Proof.Machine

/-! ## The step resumes (R123, R124) -/

/-- The current step is AT its station: a MOVE completes, a DWELL runs on, a POLISH checks its wafer, takes its clock back
and enters ACQUIRE_LINE (R123 steps 2 to 4, R124). -/
def State.arrived (s : State) (h : HeadId) : State :=
  match s.current h with
  | none => s
  | some w =>
    match w.record.kind with
    | .move _ => s.finishStep h .completed
    | .dwell _ => s.setWorking h { w with phase := some .dwell, resume := none }
    | .polish r =>
      if (s.seq h).vacuum then
        match w.platen with
        | some p => (s.modBase p fun b => b.own h w.accrued w.limit r.clock).enterAcquire h
        | none => s
      else s.finalHalt h .waferLost

/-- The current step asks for its station (R4, R6, R123 step 1, R124). -/
def State.askStation (s : State) (h : HeadId) : State :=
  match s.current h with
  | none => s
  | some w =>
    let a := s.acquire h w.station
    if a.2 = .alreadyHeld then a.1.arrived h else a.1.moveAnswered h a.2

/-- The working record of a popped step (R79, R115, R123): it resumes, is not continuing, and a MOVE step keeps no resume
phase once it asks again. -/
def Working.popped (w : Working) : Working :=
  { w with
    phase := none
    resuming := true
    keptLine := false
    resume :=
      match w.record.kind with
      | .move _ => none
      | _ => w.resume }

/-- A step context that is popped resumes its step (R67, R123). -/
def State.resumeStep (s : State) (h : HeadId) (w : Working) : State :=
  ((s.liftUp h).setWorking h w.popped).askStation h

/-! ## Unwinding (R122) -/

/-- A popped intervention with causes left becomes current; a PARK asks for RINSE again (R122 step 3). -/
def State.resumeIntervention (s : State) (h : HeadId) (k : Intervention) (causes : List Cause) : State :=
  let t := s.modSeq h fun q => { q with activity := some (.intervention k causes k.progress) }
  match k with
  | .park => t.parkAsk h
  | .rinse => t
  | .lift => t
  | .trip => t

/-- The unwinding of a head's saved contexts, top first (R122). -/
def State.unwind (h : HeadId) : List Context → State → State
  | [], s => s.finalHalt h .lost
  | c :: rest, s =>
    let t := s.modSeq h fun q => { q with activity := none, stack := rest }
    match c.saved with
    | .step w => t.resumeStep h w
    | .intervention _ [] => unwind h rest t
    | .intervention k (x :: xs) => t.resumeIntervention h k (x :: xs)

/-- The current intervention ends: its exit, then the unwinding (R122). -/
def State.endIntervention (s : State) (h : HeadId) : State :=
  let t := (s.leaveWaits h).modSeq h fun q => { q with activity := none }
  State.unwind h (t.seq h).stack t

/-- The current activity is an intervention whose cause set is empty. -/
def State.causesGone (s : State) (h : HeadId) : Bool :=
  match (s.seq h).activity with
  | some (.intervention _ [] _) => true
  | _ => false

/-- An intervention left without a cause ends (R120 to R122). -/
def State.endIfClear (s : State) (h : HeadId) : State :=
  if s.isRunning h && s.causesGone h then s.endIntervention h else s

/-! ## Recovery of a line (R92, R93, R121) -/

def dropCause (c : Cause) (causes : List Cause) : List Cause := causes.filter fun d => !decide (d = c)

def Activity.dropCause (a : Activity) (c : Cause) : Activity :=
  match a with
  | .step w => .step w
  | .intervention k causes p => .intervention k (Machine.dropCause c causes) p

def Context.dropCause (x : Context) (c : Cause) : Context :=
  match x.saved with
  | .step _ => x
  | .intervention k causes => { x with saved := .intervention k (Machine.dropCause c causes) }

/-- The LINE_FAULT cause of a head is removed wherever it stands (R121). -/
def State.forgetFault (s : State) (l : LineId) (h : HeadId) : State :=
  s.modSeq h fun q =>
    { q with
      activity := q.activity.map fun a => a.dropCause (.lineFault l)
      stack := q.stack.map fun x => x.dropCause (.lineFault l) }

/-- The recovery of a line reaches a head: an intervention left without a cause ends (R121; log entry 13 for a HALTED
head). -/
def State.recoverHead (s : State) (l : LineId) (h : HeadId) : State := (s.forgetFault l h).endIfClear h

/-- The recovery of a line reaches every head (R92 step 3). -/
def State.deliverRecovery (s : State) (l : LineId) : State := headIds.foldl (fun t h => t.recoverHead l h) s

/-- A FAULTED line recovers (R92). -/
def State.recoverLine (s : State) (l : LineId) : State :=
  (((s.modLine l fun k => { k with state := .idle }).handOnAll)).deliverRecovery l

/-! ## Reports of the carrier drive (R10 to R14) -/

/-- What a completed MOVING move does to the activity that asked for it (R12). -/
def State.continueMove (s : State) (h : HeadId) : State :=
  match (s.seq h).activity with
  | some (.step w) => if w.phase = some .inTransit then s.askStation h else s
  | some (.intervention .park _ (some .moving)) =>
    if s.stands? h = some .rinse then s.setPark h .atRinse else s
  | _ => s

/-- A completion reaches the Head Sequencer (R12, R26). A late one leaves the activity unchanged: the PARK of a HALTED head
that it brings AT RINSE stays under way, its spray off, until RESUME (R89; log entry 32). -/
def State.moveCompleted (s : State) (h : HeadId) (moving : Bool) : State :=
  match (s.seq h).state with
  | .closing e => s.takeEnd h e
  | .running => if moving then s.continueMove h else s
  | .unplaced | .idle | .halted _ _ => s

/-- A matching MOVE_DONE (R12). -/
def State.completeMove (s : State) (h : HeadId) : State :=
  match (s.carrier h).position with
  | .inTransit o d st =>
    let moving := match st with
      | .moving _ _ => true
      | _ => false
    (((s.modCarrier h fun c => { c with position := .stands d }).release o).moveCompleted h moving)
  | _ => s

/-- A MOVING move faults or its limit expires (R13). -/
def State.faultMove (s : State) (h : HeadId) : State :=
  match (s.carrier h).position with
  | .inTransit _ _ (.moving _ _) => (s.haltMove h).haltResumable h .moveFault
  | _ => s

/-! ## RESUME (R120, R126) -/

/-- RESUME clears every cause but LINE_FAULT and INTERLOCK (R112). -/
def Cause.clearedByResume : Cause → Bool
  | .lineFault _ => false
  | .interlock => false
  | .holdRinse => true
  | .pressureBand => true
  | .platenStall => true
  | .platenReverse => true
  | .holdLift => true
  | .holdPark => true

def Activity.clearCauses (a : Activity) (p : Cause → Bool) : Activity :=
  match a with
  | .step w => .step w
  | .intervention k causes pr => .intervention k (causes.filter fun c => !p c) pr

/-- An accepted RESUME of a RUNNING head (R120). -/
def State.resumeRunning (s : State) (h : HeadId) : State :=
  (s.modSeq h fun q => { q with activity := q.activity.map fun a => a.clearCauses Cause.clearedByResume }).endIfClear h

/-- The current step is a POLISH step whose wafer is gone: a retry is a final halt instead (R126). -/
def State.retryLost (s : State) (h : HeadId) : Bool :=
  match s.current h with
  | some w => w.polish?.isSome && !(s.seq h).vacuum
  | none => false

/-- The request that halted a head is made again (R126): of R79 for a step in ACQUIRE_LINE, of R4 otherwise. -/
def State.retryRequest (s : State) (h : HeadId) : State :=
  match s.current h with
  | none => s
  | some w => if w.phase = some .acquireLine then s.enterAcquire h else s.askStation h

/-- The halted move of a RUNNING head is sent again, or a head that stands at the destination finds it (R126). -/
def State.retryMove (s : State) (h : HeadId) : State :=
  match (s.carrier h).position with
  | .inTransit _ _ _ => (s.forwardMove h).endIfClear h
  | _ =>
    match (s.seq h).activity with
    | some (.step _) => s.askStation h
    | some (.intervention .park (_ :: _) _) => s.parkAsk h
    | _ => s.endIfClear h

/-- An accepted RESUME of a HALTED head (R26, R126). -/
def State.resumeHalted (s : State) (h : HeadId) (r : HaltReason) (purpose : Option EndState) : State :=
  match purpose with
  | some e => s.close h e
  | none =>
    let t := s.setHead h .running
    if s.retryLost h then t.finalHalt h .waferLost
    else if r = .moveFault then t.retryMove h
    else t.retryRequest h

/-! ## ABORT (R42) -/

/-- An accepted ABORT (R42). -/
def State.abort (s : State) (h : HeadId) : State := ((s.endRun h .aborted).close h .idle).handOnAll

end Sys2Proof.Machine
end

