-- ==== Sys2Proof/Machine/Counts.lean ====
section
/-!
DEFINITION. Revolution boundaries (R53, R62), platen counts (R50), index pulses (R52), the stall (R55, R56) and arm counts
(R137).
-/
namespace Sys2Proof.Machine

/-! ## Revolution boundaries (R53) -/

/-- The working limit after the load of an amend (R62). -/
def Timebase.loadAmend (b : Timebase) : Timebase :=
  { b with
    owner := b.owner.map fun o => { o with limit := b.amend.limit.getD o.limit }
    amend := AmendBuffer.empty }

/-- The values in force after the load of an amend; the target of a confirmed step is recomputed (R62). -/
def Working.loadAmend (w : Working) (a : AmendBuffer) : Working :=
  let fixed := a.opFixed.getD w.opFixed
  let percent := a.opPercent.getD w.opPercent
  { w with
    opFixed := fixed
    opPercent := percent
    confirmed := w.confirmed.map fun c => { c with target := overpolishTarget fixed percent c.capture.accrued }
    flags := { w.flags with amendLoaded := true } }

/-- The pending amend of a platen is loaded (R62). -/
def State.loadAmend (s : State) (p : PlatenId) : State :=
  match (s.base p).owner with
  | none => s
  | some o =>
    if (s.base p).amend.isEmpty then s
    else (s.modWorking o.head fun w => w.loadAmend (s.base p).amend).modBase p Timebase.loadAmend

/-- A boundary at the accumulator and the amend buffer: the load, the check of a load, and then the accrual of a REVS step
that is still current (R53, R62). -/
def State.boundaryAccrual (s : State) (p : PlatenId) : State :=
  let t := s.loadAmend p
  if (s.base p).amend.isEmpty then s.accrue p .revs
  else
    match t.due p with
    | some e => t.endDue e
    | none => t.accrue p .revs

/-- A revolution boundary (R53): the pad life, the qualifier, then the amend load and the accumulator. R53 asks for no order
among the three, and the model's decides one case: a settle that begins because the accumulator's share ends a REVS step is not
counted down by this boundary (R99; log entry 33). -/
def State.boundary (s : State) (p : PlatenId) : State :=
  ((s.padBoundary p).modQual p fun q => q.boundary (s.base p).revolution).boundaryAccrual p

/-! ## Platen counts (R50, R51, R57) -/

/-- A count clears the stalled mark and restarts the stall timer (R50, R55); a run suspended by the stall resumes (R149). -/
def State.platenSeen (s : State) (p : PlatenId) : State :=
  if (s.base p).stalled then (s.modBase p Timebase.countSeen).resumeRun p else s.modBase p Timebase.countSeen

/-- A FORWARD count reaches the head that holds the platen: the gap, or a COUNTS accumulator (R34, R50, R59; log entry
7). -/
def State.forwardToHead (s : State) (p : PlatenId) : State :=
  match (s.headOn p).bind s.polishing with
  | none => s
  | some (w, _, _) =>
    match s.headOn p, w.phase with
    | some h, some .gap =>
      if w.gapRemaining ≤ 1 then s.enterPolish h
      else s.setWorking h { w with gapRemaining := w.gapRemaining - 1 }
    | _, _ => s.accrue p .counts

/-- A FORWARD count (R50, R51). -/
def State.countForward (s : State) (p : PlatenId) : State :=
  let r := (s.base p).countForward
  let t := s.setBase p r.1
  ((if r.2 then t.boundary p else t).platenSeen p).forwardToHead p

/-- A REVERSE count (R50, R51, R57). -/
def State.countReverse (s : State) (p : PlatenId) : State :=
  let t := (s.modBase p Timebase.countReverse).platenSeen p
  match t.headOn p with
  | some h => if t.isDown h then t.raiseCause h .platenReverse else t
  | none => t

/-- One platen count (R50). -/
def State.platenCount (s : State) (p : PlatenId) : Rotation → State
  | .forward => s.countForward p
  | .reverse => s.countReverse p

/-- An index pulse (R52). -/
def State.indexPulse (s : State) (p : PlatenId) : State :=
  let r := (s.base p).index
  let t := s.setBase p r.1
  let u := if r.2.1 then t.boundary p else t
  if r.2.2 then u.raise .recipe (.encoderSlip p) else u

/-! ## The stall window (R55, R56) -/

/-- The stall window expires (R55): the mark is set and the timer stops. -/
def Timebase.stall (b : Timebase) : Timebase := { b with stallTimer := none, stalled := true }

/-- What setting the stalled mark does to the holder of the platen (R56). -/
def State.stall (s : State) (p : PlatenId) : State :=
  let t := s.modBase p Timebase.stall
  match (t.station (.platen p)).holder with
  | none => t
  | some .conditioner => t.modCond p fun c => c.suspendRun (t.base p).config
  | some (.head h) => if t.isDown h then t.raiseCause h .platenStall else t

/-! ## Arm counts (R137) -/

/-- The position of an arm reaches the head that holds the platen: KEEPOUT_WAIT may end (R33, R67, R137 step 3). -/
def State.deliverArm (s : State) (p : PlatenId) : State :=
  match s.headOn p with
  | none => s
  | some h =>
    match s.polishing h with
    | some (w, _, _) => if w.phase = some .keepoutWait then (s.toKeepout h).handOnAll else s
    | none => s

/-- One arm count (R137): position, motion decision, sweep (R140), delivery. -/
def State.armCount (s : State) (p : PlatenId) (d : Travel) : State :=
  let r := ((s.cond p).moveArm d).motionDecision (s.base p).config
  let t := s.setCond p r.1
  let u := if r.2 then t.diskSweep p else t
  (if r.2 && u.runReached p then u.completeRun p else u).deliverArm p

end Sys2Proof.Machine
end

