-- ==== Sys2Proof/Machine/Trip.lean ====
section
/-!
DEFINITION. The Module Trip Unit: the trip, its clearing (R128 to R132), and the tries of a claim that follow it (R149).
-/
namespace Sys2Proof.Machine

/-- The trip level of a sense (R128). -/
def InterlockSense.level : InterlockSense → Level
  | .tripOnLow => .low
  | .tripOnHigh => .high

/-- The interlock input is at the trip level (R128). -/
def TripUnit.atLevel (t : TripUnit) : Bool := decide (t.input = t.sense.level)

/-- The module trips (R129): notices, moves (R14), manifold (R86), arms (R148), heads (R130), in this order (log entries 5
and 6). Every head is UP at its end (R128); a head that is not RUNNING is UP before it. -/
def State.tripModule (s : State) : State :=
  let t := ((s.setTrip { s.trip with tripped := true }).raise .recipe .tripped).raise .transfer .tripped
  let u := headIds.foldl State.haltMove t
  let v := { u with lines := u.lines.map Line.tripped }
  let w := platenIds.foldl (fun x p => x.modCond p fun c => c.suspend (x.base p).config) v
  headIds.foldl State.liftUp (headIds.foldl (fun x h => x.takeCause h .interlock) w)

/-- Moves at the clearing of the trip: a DEFERRED move is sent (R11), a halted CLOSING move goes forward (R26). -/
def State.sendOwed (s : State) (h : HeadId) : State :=
  match (s.carrier h).position, (s.seq h).state with
  | .inTransit _ _ .deferred, _ => s.forwardMove h
  | .inTransit _ _ .halted, .closing _ => s.forwardMove h
  | _, _ => s

/-- INTERLOCK is cleared on a head whose current activity is TRIP; that TRIP ends and the stack unwinds (R132). -/
def State.clearInterlock (s : State) (h : HeadId) : State :=
  match (s.seq h).activity with
  | some (.intervention .trip _ _) => if s.isRunning h then s.endIntervention h else s
  | _ => s

/-- The trip is cleared (R132): moves, manifold, arms, heads, in this order (log entries 5 and 6). -/
def State.clearTrip (s : State) : State :=
  let t := s.setTrip { s.trip with tripped := false }
  let u := (headIds.foldl State.sendOwed t).handOnAll
  let v := platenIds.foldl State.condTripCleared u
  headIds.foldl State.clearInterlock v

/-- A change of the interlock input or of the sense (R129): a trip is made when the trip state is CLEAR and the input
stands at the trip level. -/
def State.checkTrip (s : State) : State := if !s.trip.tripped && s.trip.atLevel then s.tripModule else s

end Sys2Proof.Machine
end

