-- ==== Sys2Proof/Machine/Beat.lean ====
section
/-!
DEFINITION. The Beat Unit (chapter 11): beats, claim timers (R44, R179), the warm restart (R183 and the tables it names)
and the cold reset (R185).
-/
namespace Sys2Proof.Machine

def PerHead.map {α : Type} (t : PerHead α) (f : α → α) : PerHead α := ⟨f t.h1, f t.h2, f t.h3, f t.h4⟩
def PerPlaten.map {α : Type} (t : PerPlaten α) (f : α → α) : PerPlaten α := ⟨f t.p1, f t.p2, f t.p3⟩

/-! ## Claim timers (R44) -/

/-- A claim whose timer has reached the limit (R44). -/
def Claim.overdue (c : Claim) (limit : Nat) : Claim := { c with timer := limit, stopped := true }

/-- One beat at a claim (R44); the second component says that the limit was reached. -/
def Claim.beat (c : Claim) (limit : Nat) : Claim × Bool :=
  if c.stopped then (c, false)
  else if limit ≤ c.timer + 1 then (c.overdue limit, true)
  else ({ c with timer := c.timer + 1 }, false)

/-- The notices of an overdue claim (R44). -/
def State.raiseOverdue (s : State) (h : HeadId) : State :=
  (s.raise .recipe (.claimOverdue h)).raise .transfer (.claimOverdue h)

/-- A beat reaches a head (R179). -/
def State.claimBeat (s : State) (h : HeadId) : State :=
  match (s.seq h).claim with
  | none => s
  | some c =>
    let r := c.beat s.beat.claimLimit
    let t := s.modSeq h fun q => { q with claim := some r.1 }
    if r.2 then t.raiseOverdue h else t

/-! ## Warm restart (R183) -/

/-- Station Table (R18): a station is kept by a head that is AT it. -/
def State.restartStation (s : State) (d : StationId) (r : Station) : Station :=
  { r with
    wait := []
    holder :=
      match r.holder with
      | some (.head h) => if s.stands? h = some d then some (.head h) else none
      | _ => none }

/-- Carrier (R18): HALT if MOVING, then UNPLACED. -/
def Carrier.restart (c : Carrier) : Carrier :=
  match c.position with
  | .inTransit _ _ _ => { c.halt with position := .unplaced }
  | _ => c

/-- Head Sequencer (R48, R134). -/
def Sequencer.restart (q : Sequencer) (standing : Bool) : Sequencer :=
  { q with
    results := []
    ep := false
    epmiss := false
    u1 := false
    u2 := false
    state := if standing then .idle else .unplaced
    activity := none
    stack := []
    lost := none
    claim := none }

/-- Platen Timebase (R65). -/
def Timebase.restart (b : Timebase) : Timebase :=
  { b with
    speed := 0
    stallTimer := none
    stalled := false
    accumulator := 0
    owner := none
    amend := AmendBuffer.empty }

/-- Dispense Manifold (R96). -/
def Line.restart (k : Line) : Line :=
  { k with
    wait := []
    state :=
      match k.state with
      | .bound _ _ _ => .idle
      | .faulted _ => .faulted (if k.supplyReady then some 0 else none)
      | .disabled => .disabled
      | .idle => .idle }

/-- Conditioner Unit (R152). -/
def Conditioner.restart (c : Conditioner) (g : PlatenConfig) : Conditioner :=
  { (if c.arm = .stowed then c else c.stow g) with
    direction := .inward
    outer := .outer
    runHeld := false
    sweepsDone := 0 }

/-- Pad Record Store (R157, R163): the sweeps done of a run held come off the owed sweeps. -/
def Pad.restart (k : Pad) (c : Conditioner) : Pad :=
  { k with
    owed := if c.runHeld then k.owed - c.sweepsDone else k.owed
    polishMark := false }

/-- Port Units (R177): the pending sets are cleared and the notices of the restart added. -/
def State.restartPorts (s : State) : State :=
  let clear := fun (u : PortUnit) => { u with notices := [] }
  let t := ((s.modPort .recipe clear).modPort .endpoint clear).modPort .transfer clear
  let u := ((t.raise .recipe .restarted).raise .recipe .tripped).raise .transfer .tripped
  platenIds.foldl (fun x p => if (s.qual p).state = .idle then x else x.raise .endpoint (.watchClosed p)) u

/-- Every block takes its warm-restart values from the state just before the restart (R183). -/
def State.warmRestart (s : State) : State :=
  { s.restartPorts with
    stations :=
      ⟨s.restartStation .load s.stations.load,
        ⟨s.restartStation (.platen .p1) s.stations.platen.p1, s.restartStation (.platen .p2) s.stations.platen.p2,
          s.restartStation (.platen .p3) s.stations.platen.p3⟩,
        s.restartStation .rinse s.stations.rinse⟩
    carriers := s.carriers.map Carrier.restart
    seqs :=
      ⟨s.seqs.h1.restart (s.stands? .h1).isSome, s.seqs.h2.restart (s.stands? .h2).isSome,
        s.seqs.h3.restart (s.stands? .h3).isSome, s.seqs.h4.restart (s.stands? .h4).isSome⟩
    zones := s.zones.map fun z => { z with lift := .up }
    bases := s.bases.map Timebase.restart
    lines := s.lines.map Line.restart
    quals := PerPlaten.all Qualifier.reset
    conds :=
      ⟨s.conds.p1.restart s.bases.p1.config, s.conds.p2.restart s.bases.p2.config,
        s.conds.p3.restart s.bases.p3.config⟩
    pads := ⟨s.pads.p1.restart s.conds.p1, s.pads.p2.restart s.conds.p2, s.pads.p3.restart s.conds.p3⟩
    trip := { s.trip with tripped := true }
    beat := { s.beat with flag := true, restartPending := false } }

/-! ## Beats (R179) -/

/-- The Beat Unit at a beat (R179). -/
def BeatUnit.expire (b : BeatUnit) : BeatUnit :=
  { b with
    interval := 0
    counter := satSucc Config.max32 b.counter
    flag := b.flag || b.settingEnabled }

/-- One beat (R179, R183): a restart beat is not delivered to the claim timers. -/
def State.beatExpiry (s : State) : State :=
  let t := s.setBeat s.beat.expire
  if t.beat.restartPending then t.warmRestart else headIds.foldl State.claimBeat t

/-! ## Cold reset (R185) -/

/-- The part as the reset input is released: every block at its cold-reset values, the field inputs as they stand (R66,
R76, R128; log entry 28), and the ports whose chip select is asserted opening no window (R177). The queue and the
counter of free values are the model's own and are kept. -/
def State.coldReset (s : State) (selected : List Port) : State :=
  let held := fun (q : Port) => { PortUnit.reset with selectHeld := selected.contains q }
  { State.reset with
    seqs :=
      ⟨Sequencer.reset s.seqs.h1.vacuum, Sequencer.reset s.seqs.h2.vacuum, Sequencer.reset s.seqs.h3.vacuum,
        Sequencer.reset s.seqs.h4.vacuum⟩
    zones := s.zones.map fun z => ZoneMonitor.reset z.inBand
    lines := s.lines.map fun k => Line.reset k.supplyReady
    trip := ⟨s.trip.input, .tripOnLow, true⟩
    ports := ⟨held .recipe, held .endpoint, held .transfer⟩
    freeCount := s.freeCount
    pending := s.pending }

end Sys2Proof.Machine
end

