-- ==== Sys2Proof/Machine/Tick.lean ====
section
/-!
DEFINITION. One millisecond of the part's own time (assumption log entry 2): every ms timer of the manual counts once, and
an expiry acts at once, in the order dwell, band, move limit, stall, recovery, TIME accrual, beat (log entry 23); a timer that
an expiry of the same millisecond starts counts in it where its place in that order comes later (log entry 31).
-/
namespace Sys2Proof.Machine

/-! ## Expiries, shared with the rows of the table that assert them (log entry 3) -/

/-- The dwell of a RUNNING head's current DWELL step is running (R30). -/
def State.dwelling (s : State) (h : HeadId) : Option Working :=
  match s.runningStep h with
  | some w =>
    match w.record.kind with
    | .dwell _ => if w.phase = some .dwell then some w else none
    | _ => none
  | none => none

/-- The dwell remaining reaches 0 (R30). -/
def State.endDwell (s : State) (h : HeadId) : State :=
  match s.dwelling h with
  | some w => (s.setWorking h { w with dwellRemaining := 0 }).finishStep h .completed
  | none => s

/-- The band timer of a DOWN head reaches the band timeout (R72). -/
def State.bandExpiry (s : State) (h : HeadId) : State :=
  if (s.zone h).bandRunning then (s.modZone h ZoneMonitor.expireBand).raiseCause h .pressureBand else s

/-- The stall window of a platen expires (R55). -/
def State.stallExpiry (s : State) (p : PlatenId) : State :=
  if (s.base p).stallTimer.isSome then s.stall p else s

/-- The recovery time of a FAULTED line has passed (R92). -/
def State.recoveryExpiry (s : State) (l : LineId) : State :=
  match (s.line l).state with
  | .faulted (some _) => s.recoverLine l
  | _ => s

/-! ## One count of each timer -/

def State.tickDwell (s : State) (h : HeadId) : State :=
  match s.dwelling h with
  | some w =>
    if w.dwellRemaining ≤ 1 then s.endDwell h
    else s.setWorking h { w with dwellRemaining := w.dwellRemaining - 1 }
  | none => s

/-- The band timer counts 1 per ms while it runs (R71). -/
def ZoneMonitor.tick (z : ZoneMonitor) : ZoneMonitor :=
  match z.lift with
  | .up => z
  | .down x b => if b.running then { z with lift := .down x { b with ms := b.ms + 1 } } else z

/-- The band timer has reached the band timeout (R72). -/
def ZoneMonitor.bandDue (z : ZoneMonitor) : Bool :=
  match z.lift with
  | .up => false
  | .down _ b => b.running && decide (z.bandTimeout ≤ b.ms)

def State.tickBand (s : State) (h : HeadId) : State :=
  let t := s.modZone h ZoneMonitor.tick
  if (t.zone h).bandDue then t.bandExpiry h else t

/-- The move limit timer of a MOVING move (R2, R13). -/
def State.tickMove (s : State) (h : HeadId) : State :=
  match (s.carrier h).position with
  | .inTransit o d (.moving n limit) =>
    let t := s.modCarrier h fun c => { c with position := .inTransit o d (.moving (n + 1) limit) }
    if limit ≤ n + 1 then t.faultMove h else t
  | _ => s

/-- The stall timer (R55). -/
def State.tickStall (s : State) (p : PlatenId) : State :=
  match (s.base p).stallTimer with
  | none => s
  | some n =>
    let t := s.modBase p fun b => { b with stallTimer := some (n + 1) }
    if (s.base p).config.stallWindow ≤ n + 1 then t.stallExpiry p else t

/-- The recovery timer of a FAULTED line (R92). -/
def State.tickRecovery (s : State) (l : LineId) : State :=
  match (s.line l).state with
  | .faulted (some n) =>
    let t := s.modLine l fun k => { k with state := .faulted (some (n + 1)) }
    if (s.line l).recoveryTime ≤ n + 1 then t.recoveryExpiry l else t
  | _ => s

/-- The beat interval (R178, R179). -/
def State.tickBeat (s : State) : State :=
  let t := s.setBeat { s.beat with interval := s.beat.interval + 1 }
  if t.beat.period.ms ≤ t.beat.interval then t.beatExpiry else t

/-- One millisecond: the timers in the order of log entry 23. A timer started on the way (the band timer of a head that
touches down, R71, the move limit timer of a move that is sent, R2) counts in the same millisecond where its turn is still to
come, which the manual leaves open (log entry 31). The speed setpoints are decided anew in State.settle, at the end of the
millisecond, so a stall timer that an expiry of this millisecond starts stands at 0 when it is over (R54, R55; log entry 31). -/
def State.tick (s : State) : State :=
  let a := headIds.foldl State.tickDwell s
  let b := headIds.foldl State.tickBand a
  let c := headIds.foldl State.tickMove b
  let d := platenIds.foldl State.tickStall c
  let e := lineIds.foldl State.tickRecovery d
  let f := platenIds.foldl (fun t p => t.accrue p .time) e
  f.tickBeat.settle

end Sys2Proof.Machine
end

