-- ==== Sys2Proof/Machine/Reads.lean ====
section
/-!
DEFINITION. The bodies of the read responses (R17, R21, R41, R47, R95, R109, R162, R170, R175, R176).
-/
namespace Sys2Proof.Machine

/-! ## STATION_READ (R17, R176) -/

def putHolder : Option Holder → List Byte
  | none => put8 0
  | some (.head h) => put8 (HeadId.code h + 1)
  | some .conditioner => put8 5

/-- A station record: holder, service (IN 0, OUT 1), wait list oldest first. -/
def putStation (r : Station) : List Byte :=
  putHolder r.holder ++ putBool (!r.inService) ++ putList (r.wait.map fun h => put8 (HeadId.code h))

def putPosition : Position → List Byte
  | .unplaced => [0, 0, 0]
  | .stands d => 1 :: put8 (StationId.code d) ++ [0]
  | .inTransit o d _ => 2 :: put8 (StationId.code o) ++ put8 (StationId.code d)

/-- Move status: MOVING 0, HALTED 1, DEFERRED 2, absent unless IN_TRANSIT (R2). -/
def putMoveStatus : Position → List Byte
  | .inTransit _ _ (.moving _ _) => [1, 0]
  | .inTransit _ _ .halted => [1, 1]
  | .inTransit _ _ .deferred => [1, 2]
  | .unplaced => [0, 0]
  | .stands _ => [0, 0]

def State.putCarrier (s : State) (h : HeadId) : List Byte :=
  let c := s.carrier h
  putPosition c.position ++ putMoveStatus c.position ++ [c.moveNumber] ++
  putOrNone ((s.awaited h).map StationId.code)

def State.stationRead (s : State) : List Byte :=
  (stationIds.map fun d => putStation (s.station d)).flatten ++ (headIds.map s.putCarrier).flatten

/-! ## HEAD_READ (R47, R176) -/

def FinalReason.code : FinalReason → Nat
  | .refusedPlace => 4
  | .refusedNoWafer => 5
  | .waferLost => 6
  | .lost => 7

def HaltReason.code : HaltReason → Nat
  | .cycle => 1
  | .stationUnavailable => 2
  | .moveFault => 3
  | .final r => r.code

/-- Head state, end state, reason (R176). -/
def putHeadState : HeadState → List Byte
  | .unplaced => [0, 0, 0]
  | .idle => [1, 0, 0]
  | .running => [2, 0, 0]
  | .closing .idle => [3, 1, 0]
  | .closing (.halted r) => [3, 2] ++ put8 r.code
  | .halted r _ => [4, 0] ++ put8 r.code

def Phase.code : Phase → Nat
  | .waitStation => 0
  | .inTransit => 1
  | .acquireLine => 2
  | .keepoutWait => 3
  | .gap => 4
  | .polish => 5
  | .overpolish => 6
  | .dwell => 7

/-- The index and the phase of the head's step: the current phase, or the resume phase of a saved step; a lost step has
its index and a phase the manual does not state (R47, R115, R116; log entries 10 and 20). -/
def State.stepShown (s : State) (h : HeadId) : Option Nat × Option Byte :=
  match s.current h with
  | some w => (some w.index, w.phase.map fun p => BitVec.ofNat 8 p.code)
  | none =>
    match (s.seq h).stack.findSome? Context.step? with
    | some w => (some w.index, w.resume.map fun p => BitVec.ofNat 8 p.code)
    | none =>
      match (s.seq h).lost with
      | some l => (some l.index, some (Config.freeByte s.freeCount))
      | none => (none, none)

/-- Bits of the flags byte: EP 0, EPMISS 1, U1 2, U2 3, PADWARN 4 (R47; log entry 8). -/
def State.flagsByte (s : State) (h : HeadId) : Nat :=
  let q := s.seq h
  q.ep.toNat + 2 * q.epmiss.toNat + 4 * q.u1.toNat + 8 * q.u2.toNat + 16 * (s.padWarnFlag h).toNat

def ExchangeReport.code : ExchangeReport → Nat
  | .none => 0
  | .placed => 1
  | .removed => 2

/-- Claimed mark, claim timer, exchange report (R47, R48). The claimed mark is coded not claimed 0, claimed 1: the model's choice,
DESIGN CHOICE (log entry 34), since no rule lists its values for R168; the exchange report none 0, PLACED 1, REMOVED 2 (R43,
R45, R168; log entry 21). -/
def putClaim : Option Claim → List Byte
  | none => put8 0 ++ put16 0 ++ put8 0
  | some c => put8 1 ++ put16 c.timer ++ put8 c.report.code

def State.headRead (s : State) (h : HeadId) : List Byte :=
  let q := s.seq h
  putHeadState q.state ++ putOpt 1 ((s.stepShown h).1.map put8) ++ putOpt 1 ((s.stepShown h).2.map fun b => [b]) ++
  putOpt 1 (q.activity.map fun a => put8 a.rank) ++ put8 q.stack.length ++ putBool q.lost.isSome ++
  put8 (s.flagsByte h) ++ put8 q.steps.length ++ put8 q.results.length ++ putClaim q.claim ++
  put16 (s.zone h).rinsePressure ++ put16 (s.zone h).bandTimeout ++ put16 (s.carrier h).moveLimit

/-- HEAD_READ draws a free value when the step context it shows is lost (log entry 10). -/
def State.drawsFree (s : State) (h : HeadId) : Bool :=
  (s.current h).isNone && ((s.seq h).stack.findSome? Context.step?).isNone && (s.seq h).lost.isSome

/-! ## LINE_READ (R95) -/

def LineState.code : LineState → Nat
  | .disabled => 0
  | .idle => 1
  | .bound _ _ _ => 2
  | .faulted _ => 3

def putBinding : LineState → List Byte
  | .bound n h _ => putOpt 1 (some (put8 (PlatenId.code n))) ++ putOpt 1 (some (put8 (HeadId.code h)))
  | _ => putOpt 1 none ++ putOpt 1 none

def LineState.timer : LineState → Option Nat
  | .faulted t => t
  | _ => none

/-- A line record; the supply-ready input is coded present 0, absent 1 (R76, R95). -/
def putLine (k : Line) : List Byte :=
  put8 k.cls.code ++ put8 k.state.code ++ putBinding k.state ++ put16 k.flow ++ put16 k.recoveryTime ++
  putBool (!k.supplyReady) ++ putOpt 2 (k.state.timer.map put16) ++
  putList (k.wait.map fun n => put8 (PlatenId.code n))

def Selector.code : Selector → Nat
  | .none => 0
  | .line l => LineId.code l + 1
  | .rinse => 7

def State.putNozzle (s : State) (n : NozzleId) : List Byte :=
  put8 (s.selector n).code ++ putBool (s.rinseValve n) ++ putOrNone ((s.boundLine n).map LineId.code) ++
  putOrNone ((s.awaitedLine n).map LineId.code) ++ put16 (s.base n).config.lead

/-- Six line records, three nozzle records and the RINSE station spray (R95). The spray byte is off 0, on 1: the model's choice,
DESIGN CHOICE (log entry 34), since no rule lists its values for R168. -/
def State.lineRead (s : State) : List Byte :=
  (lineIds.map fun l => putLine (s.line l)).flatten ++ (platenIds.map s.putNozzle).flatten ++ putBool s.spray

/-! ## RESULT_READ (R41, R175) -/

def State.resultRead (s : State) (h : HeadId) (first : Nat) : List Byte :=
  let rs := (s.seq h).results
  let sent := (rs.drop first).take Config.resultsPerRead
  put8 rs.length ++ put8 first ++ put8 sent.length ++ (sent.map putResult).flatten

/-! ## PAD_READ (R162) -/

def putPad (k : Pad) : List Byte :=
  put32 k.padId ++ put8 k.state.code ++ put32 k.life ++ put32 k.warnLimit ++ put32 k.retireLimit ++ put32 k.wafers ++
  put16 k.sinceExSitu ++ put8 k.interval ++ put8 k.exSituSweeps ++ put8 k.breakInSweeps ++ put8 k.owed ++
  putBool k.polishMark

def putDisk (k : Disk) : List Byte := put32 k.diskId ++ put8 k.state.code ++ put32 k.used ++ put32 k.limit

def ArmState.code : ArmState → Nat
  | .stowed => 0
  | .deploying _ => 1
  | .sweeping _ => 2
  | .stowing => 3
  | .suspended _ _ => 4

def ArmMode.code : ArmMode → Nat
  | .inSitu _ => 0
  | .exSitu => 1

def ArmMode.head? : ArmMode → Option HeadId
  | .inSitu h => some h
  | .exSitu => none

def ArmMotion.code : ArmMotion → Nat
  | .deploying => 0
  | .sweeping => 1

def ArmState.motion? : ArmState → Option ArmMotion
  | .suspended _ m => some m
  | _ => none

def putConditioner (c : Conditioner) : List Byte :=
  put8 c.arm.code ++ putOpt 1 (c.arm.mode.map fun m => put8 m.code) ++
  putOpt 1 (c.arm.motion?.map fun m => put8 m.code) ++
  putBool (decide (c.direction = .inward)) ++ put16 c.position ++ putBool (decide (c.outer = .outer)) ++
  putOpt 1 ((c.arm.mode.bind ArmMode.head?).map fun h => put8 (HeadId.code h)) ++ putBool c.runHeld ++
  put8 c.sweepsDone

def State.padRead (s : State) (p : PlatenId) : List Byte :=
  putPad (s.pad p) ++ putDisk (s.disk p) ++ putConditioner (s.cond p)

/-! ## QUAL_READ (R109) -/

def QualState.code : QualState → Nat
  | .idle => 0
  | .settling _ _ => 1
  | .watch _ _ => 2
  | .confirm _ _ _ => 3

def QualState.remainder? : QualState → Option Nat
  | .settling _ n => some n
  | _ => none

def QualState.start? : QualState → Option Rev
  | .watch _ r => some r
  | .confirm _ r _ => some r
  | _ => none

def QualState.confirmCount : QualState → Nat
  | .confirm _ _ n => n
  | _ => 0

def State.qualRead (s : State) (p : PlatenId) : List Byte :=
  let q := s.qual p
  let b := s.base p
  put8 q.state.code ++ putOpt 1 (q.state.watching.map fun h => put8 (HeadId.code h)) ++
  putOpt 1 (q.state.remainder?.map put8) ++ putOpt 4 (q.state.start?.map fun r => put32 r.toNat) ++
  put8 q.state.confirmCount ++ put8 b.config.confirmNumber ++
  putOpt 4 (q.lastCounted.map fun r => put32 r.toNat) ++ putOrNone (q.lastKind.map MarkKind.code) ++
  put16 q.relock ++ put16 q.late ++ put16 q.unexpected ++ put16 q.ignored ++ put16 q.duplicate ++
  putCapture q.capture ++ put32 b.revolution.toNat ++ put16 b.position

/-! ## NOTICE_READ, LIST_READ, BEAT_READ (R21, R170, R174, R181) -/

/-- A notice pair on a port: kind code and object code (R169, R173). -/
def putNotice (q : Port) (n : Notice) : List Byte := put8 ((n.kind q).getD 0) ++ put8 n.object

def PortUnit.noticeRead (u : PortUnit) (q : Port) : List Byte := putList (u.notices.map (putNotice q))

def State.listRead (s : State) (h : HeadId) (r : StepRecord) : List Byte :=
  put8 (s.seq h).steps.length ++ putRecord r

def BeatUnit.read (b : BeatUnit) : List Byte := putBool b.flag ++ put32 b.counter

end Sys2Proof.Machine
end

