-- ==== Sys2Proof/Machine/Ports.lean ====
section
/-!
DEFINITION. The Port Unit's handling of a request: the window with its bytes in and out, the three stages of checks, the
response and its frame (R164 to R167, R173).
-/
namespace Sys2Proof.Machine

/-! ## Response frames (R165, R173) -/

/-- The value of the status byte (R165). -/
def Status.code : Status → Nat
  | .ok => 0
  | .unknownRequest => 1
  | .badLength => 2
  | .notPermitted => 3
  | .outOfRange => 4
  | .wrongState => 5
  | .busy => 6
  | .claimed => 7
  | .notClaimed => 8
  | .tripped => 9

/-- The bytes of a response frame (R173): status, body length, body. -/
def Response.frame (r : Response) : List Byte := put8 r.status.code ++ put8 r.body.length ++ r.body

/-- The response frame that a port shifts out after its last request; nothing where none was taken (R164; log entry 15). -/
def State.responseFrame (s : State) (q : Port) : List Byte := ((s.port q).response.map Response.frame).getD []

/-! ## Windows, byte by byte (R164; log entry 15) -/

/-- Chip select is asserted: a window opens with no byte in it, and what was not sent of an earlier response is lost (R164).
A chip select asserted since reset opens none (R177). -/
def State.selectPort (s : State) (q : Port) : State :=
  if (s.port q).selectHeld then s else s.modPort q fun u => { u with window := some ⟨[], 0⟩, response := none }

/-- One byte is clocked: the master's byte in, the part's byte out (R164). While the request frame arrives the part sends 0;
the byte that completes the frame makes the command, which joins the queue; after that the master's bytes are ignored and
the response frame goes out, then 0. No byte counts where no window is open. -/
def State.shiftByte (s : State) (q : Port) (b : Byte) : State × Byte :=
  match (s.port q).window with
  | none => (s, 0)
  | some w =>
    if frameWhole w.frame then
      (s.modPort q fun u => { u with window := some { w with sent := w.sent + 1 } }, (s.responseFrame q).getD w.sent 0)
    else
      let bytes := w.frame ++ [b]
      let t := s.modPort q fun u => { u with window := some ⟨bytes, 0⟩ }
      (if frameWhole bytes then { t with pending := t.pending ++ [windowCommand q bytes] } else t, 0)

/-- Bytes are clocked one after another, with no command taken between them: the part's bytes out (R164). -/
def State.shiftBytes (s : State) (q : Port) : List Byte → State × List Byte
  | [] => (s, [])
  | b :: rest =>
    let a := s.shiftByte q b
    let c := State.shiftBytes a.1 q rest
    (c.1, a.2 :: c.2)

/-- Chip select is released: the window closes, and one whose frame is not complete carries no request (R164). A chip select
held since reset is released, and the next one opens a window (R177). -/
def State.releasePort (s : State) (q : Port) : State :=
  match (s.port q).window with
  | none => s.modPort q fun u => { u with selectHeld := false }
  | some w =>
    let t := s.modPort q fun u => { u with window := none }
    if frameWhole w.frame then t else { t with pending := t.pending ++ [.windowClosedEarly q] }

/-- A whole window: chip select, its bytes, release (R164). -/
def State.takeWindow (s : State) (q : Port) (bytes : List Byte) : State :=
  (((s.selectPort q).shiftBytes q bytes).1).releasePort q

/-! ## The stages of a request (R165) -/

/-- What a request answers: the status of a refusal, or the state after it and the response body (R165). -/
abbrev Reply := Except Status (State × List Byte)

/-- A check in its place among the others: the first that fails gives the status (R165). -/
def require (c : Bool) (e : Status) (r : Reply) : Reply := if c then r else .error e

/-- The body length must be that of the request's fields (R165 stage 2). -/
def requireLength (body : List Byte) (n : Nat) (r : Reply) : Reply := require (decide (body.length = n)) .badLength r

/-- A field that must name something of the part, or lie among its codes (R165 stage 2, R168). -/
def requireField {α : Type} (x : Option α) (r : α → Reply) : Reply :=
  match x with
  | none => .error .outOfRange
  | some a => r a

/-- An accepted request that is no read: it answers a body of length 0 (R166), and every speed setpoint and outer limit is
worked out again (R54, R138). -/
def accept (t : State) : Reply := .ok (t.settle, [])

/-- An accepted read: no state changes (R166). -/
def answer (s : State) (b : List Byte) : Reply := .ok (s, b)

/-- The response frame of a request (R165, R173). -/
def State.respond (s : State) (q : Port) (st : Status) (b : List Byte) : State :=
  s.modPort q fun u => { u with response := some ⟨st, b⟩ }

/-- A refused request changes no state and has a response body of length 0; an accepted one has status OK (R165). -/
def State.reply (s : State) (q : Port) (r : Reply) : State :=
  match r with
  | .error e => s.respond q e []
  | .ok (t, b) => t.respond q .ok b

/-- A chip select held since reset opens no window until it is released (R177; log entry 15): the request is not taken, and
the select is released with it. -/
def State.openWindow (s : State) (q : Port) (taken : State) : State :=
  if (s.port q).selectHeld then s.modPort q fun u => { u with selectHeld := false } else taken

/-- A request on a port (R164, R165): permission first, then the checks of the request. -/
def State.takeRequest (s : State) (q : Port) (permitted : Bool) (r : Reply) : State :=
  s.openWindow q (s.reply q (require permitted .notPermitted r))

/-- Requests of the Recipe Port alone (R167). -/
def Port.isRecipe (q : Port) : Bool := decide (q = .recipe)
/-- Requests of the Endpoint Port alone (R167). -/
def Port.isEndpoint (q : Port) : Bool := decide (q = .endpoint)
/-- Requests of the Transfer Port alone (R167). -/
def Port.isTransfer (q : Port) : Bool := decide (q = .transfer)

end Sys2Proof.Machine
end

