-- ==== Sys2Proof/Machine/ConfigRequests.lean ====
section
/-!
DEFINITION. Meanings of HEAD_CONFIG, PLATEN_CONFIG, LINE_CONFIG, MODULE_CONFIG and SERVICE_SET (R16, R64, R74, R94, R129,
R180).
-/
namespace Sys2Proof.Machine

/-! ## HEAD_CONFIG (R74) -/

/-- The head states in which HEAD_CONFIG is refused: RUNNING and CLOSING (R74). -/
def HeadState.configOpen : HeadState → Bool
  | .running => false
  | .closing _ => false
  | .unplaced => true
  | .idle => true
  | .halted _ _ => true

def State.headConfig (s : State) (h : HeadId) (rinse band move : Nat) : Reply :=
  require (s.seq h).state.configOpen .wrongState
    (accept ((s.modZone h fun z => { z with rinsePressure := rinse, bandTimeout := band }).modCarrier h fun c =>
      { c with moveLimit := move }))

def execHeadConfig (q : Port) (body : List Byte) (s : State) : Host.Outcome State Fault Refusal :=
  .next (s.takeRequest q (Port.isRecipe q)
    (requireLength body 7
      (requireField (headOf (le8 body 0)) fun h =>
        require
          (inRange 0 700 (le16 body 1) && inRange 100 10000 (le16 body 3) && inRange 1000 60000 (le16 body 5))
          .outOfRange
          (s.headConfig h (le16 body 1) (le16 body 3) (le16 body 5)))))

/-! ## PLATEN_CONFIG (R64) -/

/-- The configuration of a PLATEN_CONFIG body, in the order of R64's table (R168). -/
def platenConfigOf (b : List Byte) : PlatenConfig :=
  { lines := le16 b 1
    fold := le8 b 3
    tolerance := le8 b 4
    stallWindow := le16 b 5
    lead := le16 b 7
    confirmNumber := le8 b 9
    conditioningSpeed := le8 b 10
    stow := le16 b 11
    inner := le16 b 13
    keepOut := le16 b 15
    outer := le16 b 17
    armSpeed := le16 b 19
    downforce := le16 b 21 }

/-- Every field in its range and every relation of R64. -/
def PlatenConfig.valid (c : PlatenConfig) : Bool :=
  inRange 100 4000 c.lines && (decide (c.fold = 1) || decide (c.fold = 4)) && inRange 0 255 c.tolerance &&
    decide (2 * c.tolerance < c.cpr) && inRange 50 5000 c.stallWindow && decide (c.lead < c.cpr) &&
    inRange 1 7 c.confirmNumber && inRange 10 150 c.conditioningSpeed && decide (c.stow < c.inner) &&
    decide (c.inner < c.keepOut) && decide (c.keepOut ≤ c.outer) && inRange 0 65535 c.outer &&
    inRange 100 20000 c.armSpeed && inRange 0 400 c.downforce

/-- The timebase with a new configuration: a change of CPR sets the position to 0 (R64). -/
def Timebase.configure (b : Timebase) (c : PlatenConfig) : Timebase :=
  { b with config := c, position := if c.cpr = b.config.cpr then b.position else 0 }

/-- A STOWED arm whose position stands above the new S is drawn back at once (R64, R137). -/
def Conditioner.configured (c : Conditioner) (g : PlatenConfig) : Conditioner :=
  if c.arm = .stowed ∧ g.stow < c.position then c.enter g .stowing else c

def State.platenConfig (s : State) (p : PlatenId) (c : PlatenConfig) : Reply :=
  require (!(s.station (.platen p)).inService) .wrongState
    (accept ((s.modBase p fun b => b.configure c).modCond p fun k => k.configured c))

def execPlatenConfig (q : Port) (body : List Byte) (s : State) : Host.Outcome State Fault Refusal :=
  .next (s.takeRequest q (Port.isRecipe q)
    (requireLength body 23
      (requireField (platenOfCode (le8 body 0)) fun p =>
        require (platenConfigOf body).valid .outOfRange (s.platenConfig p (platenConfigOf body)))))

/-! ## LINE_CONFIG (R94) -/

/-- The line record with a new class and recovery time (R94). -/
def Line.configure (k : Line) (c : LineClass) (time : Nat) : Line :=
  { k with
    cls := c
    recoveryTime := time
    state :=
      match k.state, c with
      | _, .none => .disabled
      | .disabled, _ => if k.supplyReady then .idle else .faulted none
      | st, _ => st }

/-- The line is BOUND or waited for (R94). -/
def Line.busy (k : Line) : Bool := k.pumpOn || !k.wait.isEmpty

def LineState.isFaulted : LineState → Bool
  | .faulted _ => true
  | .disabled => false
  | .idle => false
  | .bound _ _ _ => false

/-- The work of an accepted LINE_CONFIG (R94): a line enabled with its supply absent faults; a FAULTED line that is disabled
delivers its recovery and binds no waiter. -/
def State.configureLine (s : State) (l : LineId) (c : LineClass) (time : Nat) : State :=
  let k := s.line l
  let t := s.setLine l (k.configure c time)
  if k.state = .disabled ∧ (k.configure c time).state.isFaulted then t.raise .recipe (.lineFault l)
  else if k.state.isFaulted ∧ c = .none then t.deliverRecovery l
  else t

def State.lineConfig (s : State) (l : LineId) (c : LineClass) (time : Nat) : Reply :=
  require (!(s.line l).busy) .busy (accept (s.configureLine l c time))

def execLineConfig (q : Port) (body : List Byte) (s : State) : Host.Outcome State Fault Refusal :=
  .next (s.takeRequest q (Port.isRecipe q)
    (requireLength body 4
      (requireField (lineOf (le8 body 0)) fun l =>
        requireField (lineClassOf (le8 body 1)) fun c =>
          require (inRange 0 60000 (le16 body 2)) .outOfRange (s.lineConfig l c (le16 body 2)))))

/-! ## MODULE_CONFIG (R129, R180) -/

/-- The Beat Unit with a new period and claim limit (R180): a different period restarts the interval. -/
def BeatUnit.configure (b : BeatUnit) (p : BeatPeriod) (limit : Nat) : BeatUnit :=
  { b with
    period := p
    interval := if p = b.period then b.interval else 0
    claimLimit := limit }

/-- A new claim limit is compared with every held claim at the next beat (R44; log entry 12). -/
def Sequencer.newLimit (q : Sequencer) : Sequencer :=
  { q with claim := q.claim.map fun c => { c with stopped := false } }

def State.moduleConfig (s : State) (x : InterlockSense) (p : BeatPeriod) (limit : Nat) : Reply :=
  let t := if limit = s.beat.claimLimit then s else { s with seqs := s.seqs.map Sequencer.newLimit }
  let u := (t.setBeat (t.beat.configure p limit)).setTrip { t.trip with sense := x }
  accept u.checkTrip

def execModuleConfig (q : Port) (body : List Byte) (s : State) : Host.Outcome State Fault Refusal :=
  .next (s.takeRequest q (Port.isRecipe q)
    (requireLength body 4
      (requireField (senseOf (le8 body 0)) fun x =>
        requireField (periodOf (le8 body 1)) fun p =>
          require (inRange 1 65535 (le16 body 2)) .outOfRange (s.moduleConfig x p (le16 body 2)))))

/-! ## SERVICE_SET (R16) -/

/-- A platen station of SERVICE_SET: naming LOAD or RINSE is out of range (R16, R168). -/
def servicePlatenOf (n : Nat) : Option PlatenId :=
  match stationOfCode n with
  | some (.platen p) => some p
  | _ => none

/-- SERVICE_SET (R16): `inn` says that the state asked for is IN. -/
def State.serviceSet (s : State) (p : PlatenId) (inn : Bool) : Reply :=
  let r := s.station (.platen p)
  if inn = r.inService then accept s
  else if inn then accept ((s.modStation (.platen p) fun k => { k with inService := true }).tryClaim p)
  else
    require (r.holder.isNone && r.wait.isEmpty) .busy
      (accept (s.modStation (.platen p) fun k => { k with inService := false }))

/-- IN is coded 0 and OUT 1 (R16, R168). -/
def execServiceSet (q : Port) (body : List Byte) (s : State) : Host.Outcome State Fault Refusal :=
  .next (s.takeRequest q (Port.isRecipe q)
    (requireLength body 2
      (requireField (servicePlatenOf (le8 body 0)) fun p =>
        requireField (boolOf (le8 body 1)) fun out => s.serviceSet p (!out))))

end Sys2Proof.Machine
end

