-- ==== Sys2Proof/Machine/Expiries.lean ====
section
/-!
DEFINITION. Meanings of the expiries and thresholds of the table. Each row says that its timer or count has reached its end;
it acts when that timer or count runs and does nothing otherwise (assumption log entry 3).
-/
namespace Sys2Proof.Machine

/-- MOVE_LIMIT_EXPIRY (R13). -/
def execMoveLimitExpiry (h : HeadId) (s : State) : Host.Outcome State Fault Refusal := .next (s.faultMove h).settle

/-- STALL_EXPIRY (R55, R56). -/
def execStallExpiry (p : PlatenId) (s : State) : Host.Outcome State Fault Refusal := .next (s.stallExpiry p).settle

/-- BAND_TIMEOUT (R72). -/
def execBandTimeout (h : HeadId) (s : State) : Host.Outcome State Fault Refusal := .next (s.bandExpiry h).settle

/-- LINE_RECOVERY (R92). -/
def execLineRecovery (l : LineId) (s : State) : Host.Outcome State Fault Refusal := .next (s.recoveryExpiry l).settle

/-- DWELL_END (R30). -/
def execDwellEnd (h : HeadId) (s : State) : Host.Outcome State Fault Refusal := .next (s.endDwell h).settle

/-- The gap remaining of a step in GAP reaches 0 (R34). -/
def State.endGap (s : State) (h : HeadId) : State :=
  match s.polishing h with
  | some (w, _, _) => if w.phase = some .gap then s.enterPolish h else s
  | none => s

/-- GAP_END (R34). -/
def execGapEnd (h : HeadId) (s : State) : Host.Outcome State Fault Refusal := .next (s.endGap h).settle

/-- The step of a platen whose accumulator may advance, with its working limit (R58, R59). -/
def State.accruing (s : State) (p : PlatenId) : Option (Working × Nat) :=
  if s.gate p then
    match (s.base p).owner with
    | some o => (s.runningStep o.head).map fun w => (w, o.limit)
    | none => none
  else none

/-- The accumulator reaches the working limit (R60); in OVERPOLISH only where the target is not reached first. -/
def State.reachLimit (s : State) (p : PlatenId) : State :=
  match s.accruing p with
  | none => s
  | some (w, limit) =>
    match w.confirmed with
    | none => s.accrueTo p (max ((s.base p).accumulator + 1) limit)
    | some c =>
      if c.capture.accrued + c.target < limit then s
      else s.accrueTo p (max ((s.base p).accumulator + 1) limit)

/-- ACCUMULATOR_LIMIT (R60). -/
def execAccumulatorLimit (p : PlatenId) (s : State) : Host.Outcome State Fault Refusal := .next (s.reachLimit p).settle

/-- The overpolish accrued reaches the target (R36, R60), where the limit is not reached first. -/
def State.reachTarget (s : State) (p : PlatenId) : State :=
  match s.accruing p with
  | none => s
  | some (w, limit) =>
    match w.confirmed with
    | none => s
    | some c =>
      if limit < c.capture.accrued + c.target then s
      else s.accrueTo p (max ((s.base p).accumulator + 1) (c.capture.accrued + c.target))

/-- OVERPOLISH_TARGET_MET (R36). -/
def execOverpolishTargetMet (p : PlatenId) (s : State) : Host.Outcome State Fault Refusal :=
  .next (s.reachTarget p).settle

/-- The settle remainder reaches 0 (R99). -/
def Qualifier.endSettle (q : Qualifier) (rev : Rev) : Qualifier :=
  match q.state with
  | .settling h _ => { q with state := .watch h rev }
  | .idle | .watch _ _ | .confirm _ _ _ => q

/-- SETTLE_END (R99). -/
def execSettleEnd (p : PlatenId) (s : State) : Host.Outcome State Fault Refusal :=
  .next (s.modQual p fun q => q.endSettle (s.base p).revolution)

/-- The qualifier counts marks: WATCH or CONFIRM (R97). -/
def QualState.counting : QualState → Bool
  | .idle => false
  | .settling _ _ => false
  | .watch _ _ => true
  | .confirm _ _ _ => true

/-- ENDPOINT_CONFIRMATION (R105). -/
def execEndpointConfirmation (p : PlatenId) (s : State) : Host.Outcome State Fault Refusal :=
  .next ((if (s.qual p).state.counting then s.confirm p else s).settle)

/-- The arm sweeps (R135). -/
def ArmState.isSweeping : ArmState → Bool
  | .sweeping _ => true
  | .stowed => false
  | .deploying _ => false
  | .stowing => false
  | .suspended _ _ => false

/-- RUN_COMPLETE (R147): the run held is sweeping. -/
def execRunComplete (p : PlatenId) (s : State) : Host.Outcome State Fault Refusal :=
  .next ((if (s.cond p).runHeld && decide ((s.cond p).arm = .sweeping .exSitu) then s.completeRun p else s).settle)

/-- Life used reaches a limit under a pressing head, in the state that the crossing leaves (R155). -/
def State.reachLife (s : State) (p : PlatenId) (from_ : PadState) (limit : Nat) : State :=
  if s.padPressed p ∧ (s.pad p).state = from_ then
    (s.modPad p fun k => { k with life := max (satSucc Config.max32 k.life) limit }).padCrossing p
  else s

/-- PAD_WARN (R155). -/
def execPadWarn (p : PlatenId) (s : State) : Host.Outcome State Fault Refusal :=
  .next (s.reachLife p .inService (s.pad p).warnLimit).settle

/-- PAD_RETIRED (R155). -/
def execPadRetired (p : PlatenId) (s : State) : Host.Outcome State Fault Refusal :=
  .next (s.reachLife p .warn (s.pad p).retireLimit).settle

/-- Sweeps used of an ACTIVE disk on a sweeping arm reach the sweep limit (R154). -/
def State.spendDisk (s : State) (p : PlatenId) : State :=
  if (s.disk p).state = .active ∧ (s.cond p).arm.isSweeping then
    (s.modDisk p fun k =>
      { k with used := max (satSucc Config.max32 k.used) k.limit, state := .spent }).raise .recipe (.diskSpent p)
  else s

/-- DISK_SPENT (R154). -/
def execDiskSpent (p : PlatenId) (s : State) : Host.Outcome State Fault Refusal := .next (s.spendDisk p)

/-- A running claim timer reaches the claim limit (R44). -/
def State.claimExpires (s : State) (h : HeadId) : State :=
  match (s.seq h).claim with
  | none => s
  | some c =>
    if c.stopped then s
    else (s.modSeq h fun q => { q with claim := some (c.overdue s.beat.claimLimit) }).raiseOverdue h

/-- CLAIM_OVERDUE (R44). -/
def execClaimOverdue (h : HeadId) (s : State) : Host.Outcome State Fault Refusal := .next (s.claimExpires h)

/-- BEAT (R179): the restart beat when a restart is pending (R183). -/
def execBeat (s : State) : Host.Outcome State Fault Refusal := .next s.beatExpiry.settle

/-- WARM_RESTART (R183): the restart beat of a pending restart. -/
def execWarmRestart (s : State) : Host.Outcome State Fault Refusal :=
  .next (if s.beat.restartPending then s.beatExpiry.settle else s)

end Sys2Proof.Machine
end

