-- ==== Sys2Proof/Machine/FieldEvents.lean ====
section
/-!
DEFINITION. Meanings of the field events: counts, index pulses, inputs, drive reports, the reset input.
-/
namespace Sys2Proof.Machine

/-- PLATEN_COUNT (R50). -/
def execPlatenCount (p : PlatenId) (d : Rotation) (s : State) : Host.Outcome State Fault Refusal :=
  .next (s.platenCount p d).settle

/-- INDEX_PULSE (R52). -/
def execIndexPulse (p : PlatenId) (s : State) : Host.Outcome State Fault Refusal := .next (s.indexPulse p).settle

/-- ARM_COUNT (R137). -/
def execArmCount (p : PlatenId) (d : Travel) (s : State) : Host.Outcome State Fault Refusal :=
  .next (s.armCount p d).settle

/-- IN_BAND_CHANGE (R70, R71). -/
def execInBandChange (h : HeadId) (z : ZoneId) (v : Bool) (s : State) : Host.Outcome State Fault Refusal :=
  .next (s.modZone h fun m => m.inBandChange z v)

/-- The supply-ready input goes absent (R90, R91). -/
def State.supplyLost (s : State) (l : LineId) : State :=
  let k := s.line l
  let lost := { k with supplyReady := false }
  match k.state with
  | .bound _ h _ =>
    ((s.setLine l { lost with state := .faulted none }).raise .recipe (.lineFault l)).raiseCause h (.lineFault l)
  | .idle => (s.setLine l { lost with state := .faulted none }).raise .recipe (.lineFault l)
  | .faulted _ => s.setLine l { lost with state := .faulted none }
  | .disabled => s.setLine l lost

/-- The supply-ready input goes present (R91, R92): a recovery time of 0 recovers the line at once. -/
def State.supplyBack (s : State) (l : LineId) : State :=
  let k := s.line l
  let back := { k with supplyReady := true }
  match k.state with
  | .faulted none =>
    let t := s.setLine l { back with state := .faulted (some 0) }
    if k.recoveryTime = 0 then t.recoverLine l else t
  | _ => s.setLine l back

/-- SUPPLY_READY_CHANGE (R90, R91): an input that already stands at the level does not change. -/
def execSupplyReadyChange (l : LineId) (present : Bool) (s : State) : Host.Outcome State Fault Refusal :=
  .next (if present = (s.line l).supplyReady then s
    else (if present then s.supplyBack l else s.supplyLost l).settle)

/-- MOVE_DONE (R10, R12): a number other than the head's current move number is ignored. -/
def execMoveDone (h : HeadId) (num : MoveNo) (s : State) : Host.Outcome State Fault Refusal :=
  .next (if num = (s.carrier h).moveNumber then (s.completeMove h).settle else s)

/-- MOVE_FAULT (R10, R13). -/
def execMoveFault (h : HeadId) (num : MoveNo) (s : State) : Host.Outcome State Fault Refusal :=
  .next (if num = (s.carrier h).moveNumber then (s.faultMove h).settle else s)

/-- INTERLOCK_CHANGE (R129): a trip is made by a change into the trip level. -/
def execInterlockChange (v : Level) (s : State) : Host.Outcome State Fault Refusal :=
  .next (if v = s.trip.input then s else (s.setTrip { s.trip with input := v }).checkTrip.settle)

/-- VACUUM_CHANGE (R127): a wafer that disappears from a RUNNING head is lost. -/
def execVacuumChange (h : HeadId) (wafer : Bool) (s : State) : Host.Outcome State Fault Refusal :=
  let t := s.modSeq h fun q => { q with vacuum := wafer }
  .next (if (s.seq h).vacuum && !wafer && s.isRunning h then (t.finalHalt h .waferLost).settle else t)

/-- COLD_RESET (R185). -/
def execColdReset (selected : List Port) (s : State) : Host.Outcome State Fault Refusal :=
  .next (s.coldReset selected)

end Sys2Proof.Machine
end

