-- ==== Sys2Proof/Machine/ListRequests.lean ====
section
/-!
DEFINITION. Meanings of LIST_WRITE, LIST_CLEAR and LIST_READ (R20, R21, R174).
-/
namespace Sys2Proof.Machine

/-- The head states in which a list may be written (R20, R21). -/
def HeadState.listOpen : HeadState → Bool
  | .unplaced => true
  | .idle => true
  | .running => false
  | .closing _ => false
  | .halted _ _ => false

/-- The list with a record written at an index not above its length (R20). -/
def writeAt (steps : List StepRecord) (i : Nat) (r : StepRecord) : List StepRecord :=
  if i = steps.length then steps ++ [r] else steps.set i r

/-- A POLISH record names a line whose class is not NONE, or RINSE, or NONE (R20). -/
def State.lineListed (s : State) (r : StepRecord) : Bool :=
  match r.line with
  | .line l => !decide ((s.line l).cls = .none)
  | .rinse => true
  | .none => true

/-- The state checks of LIST_WRITE (R20; log entry 11). -/
def State.listWrite (s : State) (h : HeadId) (i : Nat) (r : StepRecord) : Reply :=
  require (s.seq h).state.listOpen .wrongState
    (require (decide (i ≤ (s.seq h).steps.length) && s.lineListed r) .outOfRange
      (accept (s.modSeq h fun q => { q with steps := writeAt q.steps i r })))

/-- The form checks of LIST_WRITE (R174): the kind byte decides the length. -/
def State.listWriteForm (s : State) (body : List Byte) : Reply :=
  require (decide (body.length = 9) || decide (body.length = 10) || decide (body.length = 37)) .badLength
    (requireField (recordLength (le8 body 2)) fun n =>
      requireLength body n
        (requireField (headOf (le8 body 0)) fun h =>
          require (decide (le8 body 1 < Config.listCapacity)) .outOfRange
            (requireField (recordOf body) fun r => s.listWrite h (le8 body 1) r)))

/-- LIST_WRITE (R20). -/
def execListWrite (q : Port) (body : List Byte) (s : State) : Host.Outcome State Fault Refusal :=
  .next (s.takeRequest q (Port.isRecipe q) (s.listWriteForm body))

/-- LIST_CLEAR (R21). -/
def State.listClear (s : State) (h : HeadId) : Reply :=
  require (s.seq h).state.listOpen .wrongState
    (accept (s.modSeq h fun q => { q with steps := [], results := [] }))

def execListClear (q : Port) (body : List Byte) (s : State) : Host.Outcome State Fault Refusal :=
  .next (s.takeRequest q (Port.isRecipe q) (requireLength body 1 (requireField (headOf (le8 body 0)) s.listClear)))

/-- LIST_READ (R21): an index at or beyond the length is refused OUT_OF_RANGE. -/
def State.listReadAt (s : State) (h : HeadId) (i : Nat) : Reply :=
  requireField (s.seq h).steps[i]? fun r => answer s (s.listRead h r)

def execListRead (q : Port) (body : List Byte) (s : State) : Host.Outcome State Fault Refusal :=
  .next (s.takeRequest q (Port.isRecipe q)
    (requireLength body 2 (requireField (headOf (le8 body 0)) fun h => s.listReadAt h (le8 body 1))))

end Sys2Proof.Machine
end

