-- ==== Sys2Proof/Machine/ModuleRequests.lean ====
section
/-!
DEFINITION. Meanings of RESUME_MODULE, RESTART, BEAT_READ (R132, R181, R182), of the claim requests REVOKE_CLAIM, CLAIM,
PLACED, REMOVED, RELEASE (R43 to R46), and of MARK (R101).
-/
namespace Sys2Proof.Machine

/-! ## The module (R132, R181, R182) -/

def State.resumeModule (s : State) : Reply :=
  require (!s.trip.atLevel) .wrongState (accept (if s.trip.tripped then s.clearTrip else s))

def execResumeModule (q : Port) (body : List Byte) (s : State) : Host.Outcome State Fault Refusal :=
  .next (s.takeRequest q (Port.isRecipe q) (requireLength body 0 s.resumeModule))

def State.restart (s : State) : Reply := accept (s.setBeat { s.beat with restartPending := true })

def execRestart (q : Port) (body : List Byte) (s : State) : Host.Outcome State Fault Refusal :=
  .next (s.takeRequest q (Port.isRecipe q) (requireLength body 0 s.restart))

/-- BEAT_READ (R181): the flag and the counter as they stand, then the flag cleared and beat-setting enabled. -/
def State.beatRead (s : State) : Reply :=
  .ok (s.setBeat { s.beat with flag := false, settingEnabled := true }, s.beat.read)

def execBeatRead (q : Port) (body : List Byte) (s : State) : Host.Outcome State Fault Refusal :=
  .next (s.takeRequest q (Port.isRecipe q) (requireLength body 0 s.beatRead))

/-! ## The transfer claim (R43 to R46) -/

/-- The head is RUNNING or CLOSING (R43). -/
def HeadState.active : HeadState → Bool
  | .running => true
  | .closing _ => true
  | .unplaced => false
  | .idle => false
  | .halted _ _ => false

/-- CLAIM (R43), its conditions in order. -/
def State.claimHead (s : State) (h : HeadId) : Reply :=
  require (s.seq h).claim.isNone .busy
    (require (!(s.seq h).state.active) .busy
      (require (decide ((s.seq h).state = .idle) && decide (s.stands? h = some .load)) .wrongState
        (accept (s.modSeq h fun q => { q with claim := some ⟨0, false, .none⟩ }))))

def execClaim (q : Port) (body : List Byte) (s : State) : Host.Outcome State Fault Refusal :=
  .next (s.takeRequest q (Port.isTransfer q) (requireLength body 1 (requireField (headOf (le8 body 0)) s.claimHead)))

/-- The exchange a claimed head reports (R45): `wafer` is what the vacuum sense must show. -/
def State.exchange (s : State) (h : HeadId) (x : ExchangeReport) (wafer : Bool) : Reply :=
  require (s.seq h).claim.isSome .notClaimed
    (require (decide ((s.seq h).vacuum = wafer)) .wrongState
      (accept (s.modSeq h fun q => { q with claim := some ⟨0, false, x⟩ })))

def execPlaced (q : Port) (body : List Byte) (s : State) : Host.Outcome State Fault Refusal :=
  .next (s.takeRequest q (Port.isTransfer q)
    (requireLength body 1 (requireField (headOf (le8 body 0)) fun h => s.exchange h .placed true)))

def execRemoved (q : Port) (body : List Byte) (s : State) : Host.Outcome State Fault Refusal :=
  .next (s.takeRequest q (Port.isTransfer q)
    (requireLength body 1 (requireField (headOf (le8 body 0)) fun h => s.exchange h .removed false)))

/-- The claim ends (R46). -/
def State.endClaim (s : State) (h : HeadId) : State := s.modSeq h fun q => { q with claim := none }

def State.releaseClaim (s : State) (h : HeadId) : Reply :=
  require (s.seq h).claim.isSome .notClaimed (accept (s.endClaim h))

def execRelease (q : Port) (body : List Byte) (s : State) : Host.Outcome State Fault Refusal :=
  .next (s.takeRequest q (Port.isTransfer q) (requireLength body 1 (requireField (headOf (le8 body 0)) s.releaseClaim)))

def State.revokeClaim (s : State) (h : HeadId) : Reply :=
  require (s.seq h).claim.isSome .notClaimed (accept ((s.endClaim h).raise .transfer (.claimRevoked h)))

def execRevokeClaim (q : Port) (body : List Byte) (s : State) : Host.Outcome State Fault Refusal :=
  .next (s.takeRequest q (Port.isRecipe q) (requireLength body 1 (requireField (headOf (le8 body 0)) s.revokeClaim)))

/-! ## MARK (R101 to R105) -/

/-- Disposition codes of a MARK response (R168). -/
def Disposition.code : Disposition → Nat
  | .accepted => 0
  | .late => 1
  | .unexpected => 2
  | .ignored => 3
  | .duplicate => 4

/-- A mark is taken by the qualifier of its platen, and confirms when the run has reached the confirm number (R102 to
R105). -/
def State.takeMark (s : State) (p : PlatenId) (rev : Byte) (k : MarkKind) : State × Disposition :=
  let m := (s.qual p).mark (s.base p).revolution rev k (s.base p).config.confirmNumber
  let t := s.setQual p m.qual
  (if m.confirms then t.confirm p else t, m.disposition)

/-- MARK (R101): always answered OK, with the disposition. -/
def State.mark (s : State) (p : PlatenId) (rev : Byte) (k : MarkKind) : Reply :=
  let r := s.takeMark p rev k
  .ok (r.1.settle, put8 r.2.code)

def execMark (q : Port) (body : List Byte) (s : State) : Host.Outcome State Fault Refusal :=
  .next (s.takeRequest q (Port.isEndpoint q)
    (requireLength body 3
      (requireField (platenOfCode (le8 body 0)) fun p =>
        requireField (markKindOf (le8 body 2)) fun k => s.mark p (body.getD 1 0) k)))

end Sys2Proof.Machine
end

