-- ==== Sys2Proof/Machine/PadRequests.lean ====
section
/-!
DEFINITION. Meanings of PAD_INSTALL, PAD_RESTORE, DISK_INSTALL and CONDITION_NOW (R158 to R161).
-/
namespace Sys2Proof.Machine

/-- The limits of a pad (R153): warn 1 to 2^32-2, retire 2 to 2^32-1, warn below retire. -/
def limitsValid (warn retire : Nat) : Bool :=
  inRange 1 4294967294 warn && inRange 2 4294967295 retire && decide (warn < retire)

/-! ## PAD_INSTALL (R158) -/

/-- The record of a new pad (R158). -/
def Pad.fresh (padId warn retire interval sweeps breakIn : Nat) : Pad :=
  { padId := padId
    state := if 0 < breakIn then .breakIn else .inService
    life := 0
    warnLimit := warn
    retireLimit := retire
    wafers := 0
    sinceExSitu := 0
    interval := interval
    exSituSweeps := sweeps
    breakInSweeps := breakIn
    owed := breakIn
    polishMark := false }

/-- The pad of a PAD_INSTALL body (R158, R168). -/
def installedPad (b : List Byte) : Pad :=
  Pad.fresh (le32 b 1) (le32 b 5) (le32 b 9) (le8 b 13) (le8 b 14) (le8 b 15)

def State.padInstall (s : State) (p : PlatenId) (k : Pad) : Reply :=
  require (!(s.station (.platen p)).inService) .wrongState (accept (s.setPad p k))

def execPadInstall (q : Port) (body : List Byte) (s : State) : Host.Outcome State Fault Refusal :=
  .next (s.takeRequest q (Port.isRecipe q)
    (requireLength body 16
      (requireField (platenOfCode (le8 body 0)) fun p =>
        require (limitsValid (le32 body 5) (le32 body 9) && inRange 1 255 (le8 body 14)) .outOfRange
          (s.padInstall p (installedPad body)))))

/-! ## PAD_RESTORE (R159) -/

/-- The state after a restore (R159). -/
def restoredState (given : PadState) (life warn retire : Nat) : PadState :=
  if retire ≤ life then .retired
  else if warn ≤ life then
    match given with
    | .inService => .warn
    | .warn => .warn
    | .unknown => .unknown
    | .breakIn => .breakIn
    | .retired => .retired
  else given

/-- The record of a PAD_RESTORE body in the order of R153's table (R159, R168). -/
def restoredPad (given : PadState) (b : List Byte) : Pad :=
  { padId := le32 b 1
    state := restoredState given (le32 b 6) (le32 b 10) (le32 b 14)
    life := le32 b 6
    warnLimit := le32 b 10
    retireLimit := le32 b 14
    wafers := le32 b 18
    sinceExSitu := le16 b 22
    interval := le8 b 24
    exSituSweeps := le8 b 25
    breakInSweeps := le8 b 26
    owed := le8 b 27
    polishMark := false }

/-- The range checks of PAD_RESTORE (R159). -/
def restoreValid (given : PadState) (b : List Byte) : Bool :=
  limitsValid (le32 b 10) (le32 b 14) && inRange 1 255 (le8 b 25) &&
    (!decide (given = .breakIn) || decide (0 < le8 b 27))

def State.padRestore (s : State) (p : PlatenId) (k : Pad) : Reply :=
  require (!(s.station (.platen p)).inService) .wrongState (accept (s.setPad p k))

def execPadRestore (q : Port) (body : List Byte) (s : State) : Host.Outcome State Fault Refusal :=
  .next (s.takeRequest q (Port.isRecipe q)
    (requireLength body 28
      (requireField (platenOfCode (le8 body 0)) fun p =>
        requireField (padStateOf (le8 body 5)) fun given =>
          require (restoreValid given body) .outOfRange (s.padRestore p (restoredPad given body)))))

/-! ## DISK_INSTALL (R160) -/

def State.diskInstall (s : State) (p : PlatenId) (diskId limit : Nat) : Reply :=
  require (!(s.station (.platen p)).inService) .wrongState (accept (s.setDisk p ⟨diskId, .active, 0, limit⟩))

def execDiskInstall (q : Port) (body : List Byte) (s : State) : Host.Outcome State Fault Refusal :=
  .next (s.takeRequest q (Port.isRecipe q)
    (requireLength body 9
      (requireField (platenOfCode (le8 body 0)) fun p =>
        require (inRange 1 4000000 (le32 body 5)) .outOfRange (s.diskInstall p (le32 body 1) (le32 body 5)))))

/-! ## CONDITION_NOW (R161) -/

def State.conditionNow (s : State) (p : PlatenId) (sweeps : Nat) : Reply :=
  require (!decide ((s.pad p).state = .unknown)) .wrongState
    (accept ((s.modPad p fun k => { k with owed := max k.owed sweeps }).tryClaim p))

def execConditionNow (q : Port) (body : List Byte) (s : State) : Host.Outcome State Fault Refusal :=
  .next (s.takeRequest q (Port.isRecipe q)
    (requireLength body 2
      (requireField (platenOfCode (le8 body 0)) fun p =>
        require (inRange 1 255 (le8 body 1)) .outOfRange (s.conditionNow p (le8 body 1)))))

end Sys2Proof.Machine
end

