-- ==== Sys2Proof/Machine/ReadRequests.lean ====
section
/-!
DEFINITION. Meanings of the reads, of the notice requests (R170 to R172), of an unknown request (R165) and of a window
closed early (R164).
-/
namespace Sys2Proof.Machine

/-- QUAL_READ (R109). -/
def execQualRead (q : Port) (body : List Byte) (s : State) : Host.Outcome State Fault Refusal :=
  .next (s.takeRequest q (Port.isEndpoint q)
    (requireLength body 1 (requireField (platenOfCode (le8 body 0)) fun p => answer s (s.qualRead p))))

/-- HEAD_READ (R47); a free value it shows is drawn once (log entry 10). -/
def State.headReadReply (s : State) (h : HeadId) : Reply :=
  .ok (if s.drawsFree h then { s with freeCount := s.freeCount + 1 } else s, s.headRead h)

def execHeadRead (q : Port) (body : List Byte) (s : State) : Host.Outcome State Fault Refusal :=
  .next (s.takeRequest q true (requireLength body 1 (requireField (headOf (le8 body 0)) s.headReadReply)))

/-- STATION_READ (R17). -/
def execStationRead (q : Port) (body : List Byte) (s : State) : Host.Outcome State Fault Refusal :=
  .next (s.takeRequest q true (requireLength body 0 (answer s s.stationRead)))

/-- LINE_READ (R95). -/
def execLineRead (q : Port) (body : List Byte) (s : State) : Host.Outcome State Fault Refusal :=
  .next (s.takeRequest q true (requireLength body 0 (answer s s.lineRead)))

/-- RESULT_READ (R41, R175). -/
def execResultRead (q : Port) (body : List Byte) (s : State) : Host.Outcome State Fault Refusal :=
  .next (s.takeRequest q true
    (requireLength body 2
      (requireField (headOf (le8 body 0)) fun h =>
        require (decide (le8 body 1 < Config.listCapacity)) .outOfRange (answer s (s.resultRead h (le8 body 1))))))

/-- PAD_READ (R162). -/
def execPadRead (q : Port) (body : List Byte) (s : State) : Host.Outcome State Fault Refusal :=
  .next (s.takeRequest q true
    (requireLength body 1 (requireField (platenOfCode (le8 body 0)) fun p => answer s (s.padRead p))))

/-- NOTICE_READ (R170). -/
def execNoticeRead (q : Port) (body : List Byte) (s : State) : Host.Outcome State Fault Refusal :=
  .next (s.takeRequest q true (requireLength body 0 (answer s ((s.port q).noticeRead q))))

/-- The notice a pair names on a port: its kind permitted there and its object in the range of its kind (R171). -/
def noticeOf (q : Port) (kind object : Nat) : Option Notice :=
  (catalogue q).find? fun n => decide (n.kind q = some kind) && decide (n.object = object)

/-- The pairs of a NOTICE_ACK body (R171, R173). -/
def noticePairs (q : Port) : List Byte → Option (List Notice)
  | [] => some []
  | [_] => none
  | k :: o :: rest =>
    match noticeOf q k.toNat o.toNat, noticePairs q rest with
    | some n, some ns => some (n :: ns)
    | _, _ => none

/-- An accepted NOTICE_ACK removes each named pair that is pending (R171). -/
def PortUnit.acknowledge (u : PortUnit) (ns : List Notice) : PortUnit :=
  { u with notices := u.notices.filter fun n => !ns.contains n }

/-- NOTICE_ACK (R171). -/
def execNoticeAck (q : Port) (body : List Byte) (s : State) : Host.Outcome State Fault Refusal :=
  .next (s.takeRequest q true
    (require (decide (body.length % 2 = 0) && decide (body.length ≤ Config.maxRequestBody)) .badLength
      (requireField (noticePairs q body) fun ns => .ok (s.modPort q fun u => u.acknowledge ns, []))))

/-- NOTICE_MASK (R172): a bit for a code the port does not have is out of range. -/
def execNoticeMask (q : Port) (body : List Byte) (s : State) : Host.Outcome State Fault Refusal :=
  .next (s.takeRequest q true
    (requireLength body 2
      (require (decide (le16 body 0 < 2 ^ kindCount q)) .outOfRange
        (.ok (s.modPort q fun u => { u with mask := BitVec.ofNat 16 (le16 body 0) }, [])))))

/-- A request whose code names no request of the part is refused UNKNOWN_REQUEST (R165). A code that names a request makes
no such command (log entry 18). -/
def execUnknownRequest (q : Port) (code : Byte) (_body : List Byte) (s : State) : Host.Outcome State Fault Refusal :=
  if requestCodes.contains code.toNat then .fault .illFormedCommand
  else .next (s.openWindow q (s.respond q .unknownRequest []))

/-- A window that closes before its request frame is complete carries no request (R164); a chip select held since reset is
released with it (R177). -/
def execWindowClosedEarly (q : Port) (s : State) : Host.Outcome State Fault Refusal :=
  .next (s.modPort q fun u => { u with selectHeld := false })

end Sys2Proof.Machine
end

