-- ==== Sys2Proof/Machine/RunRequests.lean ====
section
/-!
DEFINITION. Meanings of START, HOLD, RESUME, ABORT, AMEND, FLAG_SET and PLACE_HEAD (R15, R22, R27, R42, R61, R114, R120,
R126).
-/
namespace Sys2Proof.Machine

/-- An accepted START (R27): results and stack emptied, RUNNING with step 0 current. -/
def State.startList (s : State) (h : HeadId) : State :=
  State.advance h (s.seq h).steps 0 none
    (s.modSeq h fun q =>
      { q with results := [], stack := [], lost := none, activity := none, state := .running })

/-- START (R27), its conditions in order. -/
def State.start (s : State) (h : HeadId) : Reply :=
  require (decide ((s.seq h).state = .idle)) .wrongState
    (require (s.seq h).claim.isNone .claimed
      (require (!s.trip.tripped) .tripped
        (require (!(s.seq h).steps.isEmpty) .wrongState
          (accept (s.startList h)))))

def execStart (q : Port) (body : List Byte) (s : State) : Host.Outcome State Fault Refusal :=
  .next (s.takeRequest q (Port.isRecipe q) (requireLength body 1 (requireField (headOf (le8 body 0)) s.start)))

/-- The current activity is a POLISH step in GAP, POLISH or OVERPOLISH (R61, R114). -/
def State.inPolishPhase (s : State) (h : HeadId) : Bool :=
  match s.runningStep h with
  | some w =>
    w.polish?.isSome &&
      (decide (w.phase = some .gap) || decide (w.phase = some .polish) || decide (w.phase = some .overpolish))
  | none => false

/-- Class of a head's current activity (R112). -/
def State.activityRank (s : State) (h : HeadId) : Nat := ((s.seq h).activity.map Activity.rank).getD 0

/-- HOLD (R114), its conditions in order. -/
def State.hold (s : State) (h : HeadId) (c : Cause) : Reply :=
  require (s.isRunning h) .wrongState
    (require (decide (s.activityRank h ≤ c.cls.rank)) .wrongState
      (require (!decide (c = .holdRinse) || s.inPolishPhase h) .wrongState
        (accept (s.raiseCause h c))))

def execHold (q : Port) (body : List Byte) (s : State) : Host.Outcome State Fault Refusal :=
  .next (s.takeRequest q (Port.isRecipe q)
    (requireLength body 2
      (requireField (headOf (le8 body 0)) fun h => requireField (holdOf (le8 body 1)) fun c => s.hold h c)))

/-- The current activity is an intervention that RESUME acts on, of class 1, 2 or 3 (R120). -/
def State.resumable (s : State) (h : HeadId) : Bool :=
  match (s.seq h).activity with
  | some (.intervention .rinse _ _) => true
  | some (.intervention .lift _ _) => true
  | some (.intervention .park _ _) => true
  | _ => false

/-- RESUME (R120, R126). -/
def State.resume (s : State) (h : HeadId) : Reply :=
  match (s.seq h).state with
  | .running => require (s.resumable h) .wrongState (accept (s.resumeRunning h))
  | .halted (.final _) _ => .error .wrongState
  | .halted r e => require (!s.trip.tripped) .tripped (accept (s.resumeHalted h r e))
  | .unplaced => .error .wrongState
  | .idle => .error .wrongState
  | .closing _ => .error .wrongState

def execResume (q : Port) (body : List Byte) (s : State) : Host.Outcome State Fault Refusal :=
  .next (s.takeRequest q (Port.isRecipe q) (requireLength body 1 (requireField (headOf (le8 body 0)) s.resume)))

/-- The head states in which ABORT is accepted (R42). -/
def HeadState.abortable : HeadState → Bool
  | .running => true
  | .halted _ _ => true
  | .unplaced => false
  | .idle => false
  | .closing _ => false

/-- ABORT (R42). -/
def State.abortRequest (s : State) (h : HeadId) : Reply :=
  require (s.seq h).state.abortable .wrongState (accept (s.abort h))

def execAbort (q : Port) (body : List Byte) (s : State) : Host.Outcome State Fault Refusal :=
  .next (s.takeRequest q (Port.isRecipe q) (requireLength body 1 (requireField (headOf (le8 body 0)) s.abortRequest)))

/-- The amendable fields (R61). -/
inductive AmendField where
  | limit | opFixed | opPercent
  deriving DecidableEq, Repr

def amendFieldOf : Nat → Option AmendField
  | 0 => some .limit
  | 1 => some .opFixed
  | 2 => some .opPercent
  | _ => none

/-- The range of an amend's value (R61). -/
def AmendField.inRange : AmendField → Nat → Bool
  | .limit, v => Machine.inRange 1 4000000 v
  | .opFixed, v => Machine.inRange 0 65535 v
  | .opPercent, v => Machine.inRange 0 100 v

/-- The amend buffer with a value written into its entry (R61). -/
def AmendBuffer.write (a : AmendBuffer) (f : AmendField) (v : Nat) : AmendBuffer :=
  match f with
  | .limit => { a with limit := some v }
  | .opFixed => { a with opFixed := some v }
  | .opPercent => { a with opPercent := some v }

/-- AMEND (R61): the buffer is that of the platen of the step. -/
def State.amend (s : State) (h : HeadId) (f : AmendField) (v : Nat) : Reply :=
  require (s.inPolishPhase h) .wrongState
    (match s.platenOf h with
     | some p => accept (s.modBase p fun b => { b with amend := b.amend.write f v })
     | none => .error .wrongState)

def execAmend (q : Port) (body : List Byte) (s : State) : Host.Outcome State Fault Refusal :=
  .next (s.takeRequest q (Port.isRecipe q)
    (requireLength body 6
      (requireField (headOf (le8 body 0)) fun h =>
        requireField (amendFieldOf (le8 body 1)) fun f =>
          require (f.inRange (le32 body 2)) .outOfRange (s.amend h f (le32 body 2)))))

/-- FLAG_SET (R22): accepted in every head state. -/
def State.flagSet (s : State) (h : HeadId) (f : UserFlag) (v : Bool) : Reply :=
  accept (s.modSeq h fun q => q.setUser f v)

def execFlagSet (q : Port) (body : List Byte) (s : State) : Host.Outcome State Fault Refusal :=
  .next (s.takeRequest q (Port.isRecipe q)
    (requireLength body 3
      (requireField (headOf (le8 body 0)) fun h =>
        requireField (userFlagOf (le8 body 1)) fun f =>
          requireField (boolOf (le8 body 2)) fun v => s.flagSet h f v)))

/-- The conditions of PLACE_HEAD (R15). -/
def State.placeable (s : State) (h : HeadId) (d : StationId) : Bool :=
  decide ((s.carrier h).position = .unplaced) && (s.station d).holder.isNone && (s.station d).inService &&
    (s.station d).wait.isEmpty

/-- PLACE_HEAD (R15): the head becomes holder and IDLE. -/
def State.placeHead (s : State) (h : HeadId) (d : StationId) : Reply :=
  require (s.placeable h d) .wrongState
    (accept (((s.modStation d fun r => { r with holder := some (.head h) }).modCarrier h fun c =>
      { c with position := .stands d }).setHead h .idle))

def execPlaceHead (q : Port) (body : List Byte) (s : State) : Host.Outcome State Fault Refusal :=
  .next (s.takeRequest q (Port.isRecipe q)
    (requireLength body 2
      (requireField (headOf (le8 body 0)) fun h =>
        requireField (stationOfCode (le8 body 1)) fun d => s.placeHead h d)))

end Sys2Proof.Machine
end

