-- ==== Sys2Proof/Machine/Dispatch.lean ====
section
/-!
DEFINITION. The meaning of every command: one arm per constructor of Instr.
-/
namespace Sys2Proof.Machine

/-- The effect of one command on everything but the queue. -/
def exec (i : Instr) (s : State) : Host.Outcome State Fault Refusal :=
  match i with
  | .listWrite p body => Sys2Proof.Machine.execListWrite p body s
  | .listClear p body => Sys2Proof.Machine.execListClear p body s
  | .listRead p body => Sys2Proof.Machine.execListRead p body s
  | .start p body => Sys2Proof.Machine.execStart p body s
  | .hold p body => Sys2Proof.Machine.execHold p body s
  | .resume p body => Sys2Proof.Machine.execResume p body s
  | .abort p body => Sys2Proof.Machine.execAbort p body s
  | .amend p body => Sys2Proof.Machine.execAmend p body s
  | .flagSet p body => Sys2Proof.Machine.execFlagSet p body s
  | .placeHead p body => Sys2Proof.Machine.execPlaceHead p body s
  | .headConfig p body => Sys2Proof.Machine.execHeadConfig p body s
  | .platenConfig p body => Sys2Proof.Machine.execPlatenConfig p body s
  | .lineConfig p body => Sys2Proof.Machine.execLineConfig p body s
  | .moduleConfig p body => Sys2Proof.Machine.execModuleConfig p body s
  | .serviceSet p body => Sys2Proof.Machine.execServiceSet p body s
  | .padInstall p body => Sys2Proof.Machine.execPadInstall p body s
  | .padRestore p body => Sys2Proof.Machine.execPadRestore p body s
  | .diskInstall p body => Sys2Proof.Machine.execDiskInstall p body s
  | .conditionNow p body => Sys2Proof.Machine.execConditionNow p body s
  | .resumeModule p body => Sys2Proof.Machine.execResumeModule p body s
  | .restart p body => Sys2Proof.Machine.execRestart p body s
  | .beatRead p body => Sys2Proof.Machine.execBeatRead p body s
  | .revokeClaim p body => Sys2Proof.Machine.execRevokeClaim p body s
  | .mark p body => Sys2Proof.Machine.execMark p body s
  | .qualRead p body => Sys2Proof.Machine.execQualRead p body s
  | .claim p body => Sys2Proof.Machine.execClaim p body s
  | .placed p body => Sys2Proof.Machine.execPlaced p body s
  | .removed p body => Sys2Proof.Machine.execRemoved p body s
  | .release p body => Sys2Proof.Machine.execRelease p body s
  | .headRead p body => Sys2Proof.Machine.execHeadRead p body s
  | .stationRead p body => Sys2Proof.Machine.execStationRead p body s
  | .lineRead p body => Sys2Proof.Machine.execLineRead p body s
  | .resultRead p body => Sys2Proof.Machine.execResultRead p body s
  | .padRead p body => Sys2Proof.Machine.execPadRead p body s
  | .noticeRead p body => Sys2Proof.Machine.execNoticeRead p body s
  | .noticeAck p body => Sys2Proof.Machine.execNoticeAck p body s
  | .noticeMask p body => Sys2Proof.Machine.execNoticeMask p body s
  | .unknownRequest p code body => Sys2Proof.Machine.execUnknownRequest p code body s
  | .windowClosedEarly p => Sys2Proof.Machine.execWindowClosedEarly p s
  | .platenCount p d => Sys2Proof.Machine.execPlatenCount p d s
  | .indexPulse p => Sys2Proof.Machine.execIndexPulse p s
  | .armCount p d => Sys2Proof.Machine.execArmCount p d s
  | .inBandChange h z inBand => Sys2Proof.Machine.execInBandChange h z inBand s
  | .supplyReadyChange l present => Sys2Proof.Machine.execSupplyReadyChange l present s
  | .moveDone h num => Sys2Proof.Machine.execMoveDone h num s
  | .moveFault h num => Sys2Proof.Machine.execMoveFault h num s
  | .moveLimitExpiry h => Sys2Proof.Machine.execMoveLimitExpiry h s
  | .interlockChange v => Sys2Proof.Machine.execInterlockChange v s
  | .vacuumChange h wafer => Sys2Proof.Machine.execVacuumChange h wafer s
  | .coldReset selected => Sys2Proof.Machine.execColdReset selected s
  | .stallExpiry p => Sys2Proof.Machine.execStallExpiry p s
  | .bandTimeout h => Sys2Proof.Machine.execBandTimeout h s
  | .lineRecovery l => Sys2Proof.Machine.execLineRecovery l s
  | .dwellEnd h => Sys2Proof.Machine.execDwellEnd h s
  | .gapEnd h => Sys2Proof.Machine.execGapEnd h s
  | .accumulatorLimit p => Sys2Proof.Machine.execAccumulatorLimit p s
  | .overpolishTargetMet p => Sys2Proof.Machine.execOverpolishTargetMet p s
  | .settleEnd p => Sys2Proof.Machine.execSettleEnd p s
  | .endpointConfirmation p => Sys2Proof.Machine.execEndpointConfirmation p s
  | .runComplete p => Sys2Proof.Machine.execRunComplete p s
  | .padWarn p => Sys2Proof.Machine.execPadWarn p s
  | .padRetired p => Sys2Proof.Machine.execPadRetired p s
  | .diskSpent p => Sys2Proof.Machine.execDiskSpent p s
  | .claimOverdue h => Sys2Proof.Machine.execClaimOverdue h s
  | .beat => Sys2Proof.Machine.execBeat s
  | .warmRestart => Sys2Proof.Machine.execWarmRestart s

end Sys2Proof.Machine
end

