-- ==== Sys2Proof/Machine/Outputs.lean ====
section
/-!
DEFINITION. The field outputs that follow other state and are read by no command: arm outputs (R136), lift and setpoint
outputs (R68, R73), platen speed (R54), pump outputs (R87). Alert lines (R172) are PortUnit.alert in Machine/Ops.lean.
-/
namespace Sys2Proof.Machine

/-- What an arm drive is told (R136). -/
inductive ArmDrive where
  | stop
  | travel (d : Travel)
  deriving DecidableEq, Repr

/-- The three arm outputs (R136). -/
structure ArmOutputs where
  drive : ArmDrive
  speed : Nat
  downforce : Nat
  deriving DecidableEq, Repr

/-- The arm direction output of a unit's state (R136). -/
def Conditioner.drive (c : Conditioner) : ArmDrive :=
  match c.arm with
  | .stowed => .stop
  | .deploying _ => .travel .outward
  | .sweeping _ => .travel c.direction
  | .stowing => .travel .inward
  | .suspended _ _ => .stop

/-- The arm outputs of a platen's unit (R136). -/
def State.armOut (s : State) (p : PlatenId) : ArmOutputs :=
  ⟨(s.cond p).drive, (s.cond p).speedOut, (s.cond p).forceOut⟩

/-- The lift command line of a head: true is DOWN (R73). -/
def State.liftOut (s : State) (h : HeadId) : Bool := s.isDown h

/-- The five setpoint outputs of a head (R68). -/
def State.setpointOut (s : State) (h : HeadId) : PerZone Nat := (s.zone h).setpoints

/-- The speed setpoint output of a platen drive (R54). -/
def State.speedOut (s : State) (p : PlatenId) : Nat := (s.base p).speed

/-- Pump enable and flow setpoint of a line (R87). -/
def State.pumpOut (s : State) (l : LineId) : Bool × Nat := ((s.line l).pumpOn, (s.line l).flow)

/-- The alert line of a port is asserted (R172). -/
def State.alertOut (s : State) (q : Port) : Bool := (s.port q).alert q

end Sys2Proof.Machine
end

