-- ==== Sys2Proof/WellFormed.lean ====
section
/-!
DEFINITION. Which terms of `Instr` are commands: a request's announced body length fits the length byte (R173), and an
UNKNOWN_REQUEST carries a code that names no request (R167).
-/
namespace Sys2Proof

/-- The body the frame announces has a length that byte 1 of the frame can state (R173). A length above 60 is announced
with no body bytes read (R164): the list then stands for the announced length alone. -/
def bodyFits (body : List Byte) : Bool := decide (body.length ≤ 255)

/-- The code of an UNKNOWN_REQUEST names no request of the part (R165, R167). -/
def codeUnknown (code : Byte) : Bool := !(requestCodes.contains code.toNat)

/-- A term of `Instr` that is a command of the table. -/
def Instr.wellFormed : Instr → Bool
  | .listWrite _ b | .listClear _ b | .listRead _ b | .start _ b | .hold _ b | .resume _ b | .abort _ b
  | .amend _ b | .flagSet _ b | .placeHead _ b | .headConfig _ b | .platenConfig _ b | .lineConfig _ b
  | .moduleConfig _ b | .serviceSet _ b | .padInstall _ b | .padRestore _ b | .diskInstall _ b
  | .conditionNow _ b | .resumeModule _ b | .restart _ b | .beatRead _ b | .revokeClaim _ b | .mark _ b
  | .qualRead _ b | .claim _ b | .placed _ b | .removed _ b | .release _ b | .headRead _ b | .stationRead _ b
  | .lineRead _ b | .resultRead _ b | .padRead _ b | .noticeRead _ b | .noticeAck _ b | .noticeMask _ b =>
    bodyFits b
  | .unknownRequest _ c b => bodyFits b && codeUnknown c
  | .windowClosedEarly _ | .platenCount _ _ | .indexPulse _ | .armCount _ _ | .inBandChange _ _ _
  | .supplyReadyChange _ _ | .moveDone _ _ | .moveFault _ _ | .moveLimitExpiry _ | .interlockChange _
  | .vacuumChange _ _ | .stallExpiry _ | .bandTimeout _ | .lineRecovery _ | .dwellEnd _ | .gapEnd _
  | .accumulatorLimit _ | .overpolishTargetMet _ | .settleEnd _ | .endpointConfirmation _ | .runComplete _
  | .padWarn _ | .padRetired _ | .diskSpent _ | .claimOverdue _ | .beat | .warmRestart => true
  | .coldReset selected => decide selected.Nodup

end Sys2Proof
end

