-- ==== Sys2Proof/Safety.lean ====
section
/-!
DEFINITION. The predicates that the obligations speak of: what a healthy state of the part looks like, which records and
configurations lie in their ranges, which ports a request may come in on, what the release of a station does, and what an
accepted request leaves.
-/
namespace Sys2Proof.Machine

/-! ## What the part keeps true -/

/-- A pending set holds each notice of its port at most once, in catalogue order, and no other notice (R169, R170). -/
def PortUnit.canonical (q : Port) (u : PortUnit) : Prop :=
  u.notices = (catalogue q).filter fun n => u.notices.contains n

/-- The three pending sets are canonical (R169). -/
def State.NoticesCanonical (s : State) : Prop := ∀ q, (s.port q).canonical q

/-- No wait list holds a name twice (R3, R78). -/
def State.WaitsNodup (s : State) : Prop := (∀ d, (s.station d).wait.Nodup) ∧ (∀ l, (s.line l).wait.Nodup)

/-- A carrier has been commanded and has not reported (R2). -/
def Position.isMoving : Position → Bool
  | .inTransit _ _ (.moving _ _) => true
  | .inTransit _ _ .halted => false
  | .inTransit _ _ .deferred => false
  | .unplaced => false
  | .stands _ => false

/-- What the trip holds (R128): while the module is tripped every head is UP, no move is commanded and no line is bound. -/
def State.TripHolds (s : State) : Prop :=
  s.trip.tripped = true →
    (∀ h, s.isDown h = false) ∧ (∀ h, (s.carrier h).position.isMoving = false) ∧ (∀ l, (s.line l).pumpOn = false)

/-- While the trip state is CLEAR, the interlock input is not at the trip level (R128). -/
def State.ClearIsSafe (s : State) : Prop := s.trip.tripped = false → s.trip.atLevel = false

/-- Every speed setpoint and every effective outer limit is the one its rule gives, and no stall timer or stalled mark
stands at a setpoint of 0 (R54, R55, R138): working them out again changes nothing. -/
def State.Settled (s : State) : Prop := s.settle = s

/-- Every platen's configuration lies in its ranges and keeps its relations (R64). -/
def State.ConfigsValid (s : State) : Prop := ∀ p, (s.base p).config.valid = true

/-- The platen angle lies below CPR (R49). -/
def State.AnglesInRange (s : State) : Prop := ∀ p, (s.base p).position < (s.base p).config.cpr

/-- Every arm position lies in its counter (R135, R137). -/
def State.ArmsInRange (s : State) : Prop := ∀ p, (s.cond p).position ≤ 65535

/-- The arm outputs stand at 0 wherever the table of R136 has 0: the speed in STOWED and SUSPENDED, the downforce in every
state but SWEEPING. -/
def Conditioner.driven (c : Conditioner) : Prop :=
  match c.arm with
  | .stowed | .suspended _ _ => c.speedOut = 0 ∧ c.forceOut = 0
  | .deploying _ | .stowing => c.forceOut = 0
  | .sweeping _ => True

/-- Every arm is driven as R136 has it. -/
def State.ArmsDriven (s : State) : Prop := ∀ p, (s.cond p).driven

/-- A step list holds at most 16 records (R19), a context stack at most 2 contexts (R116), a station wait list at most 3
heads (R3). -/
def State.StoresInRange (s : State) : Prop :=
  (∀ h, (s.seq h).steps.length ≤ Config.listCapacity ∧ (s.seq h).stack.length ≤ Config.stackDepth) ∧
    ∀ d, (s.station d).wait.length ≤ Config.stationWaiters

/-- What the part keeps true at every step. -/
structure State.Healthy (s : State) : Prop where
  notices : s.NoticesCanonical
  waits : s.WaitsNodup
  trip : s.TripHolds
  clear : s.ClearIsSafe
  settled : s.Settled
  configs : s.ConfigsValid
  angles : s.AnglesInRange
  arms : s.ArmsInRange
  driven : s.ArmsDriven
  stores : s.StoresInRange

/-! ## Ranges of a step record (R19) -/

def PolishRecord.inRange (r : PolishRecord) : Bool :=
  Machine.inRange 1 4000000 r.limit && Machine.inRange 0 255 r.settle && Machine.inRange 0 65535 r.opFixed &&
    Machine.inRange 0 100 r.opPercent && Machine.inRange 0 65535 r.gap && Machine.inRange 0 500 r.flow &&
    Machine.inRange 10 150 r.speed && Machine.inRange 0 700 r.gapPressure && Machine.inRange 0 700 r.zones.z1 &&
    Machine.inRange 0 700 r.zones.z2 && Machine.inRange 0 700 r.zones.z3 && Machine.inRange 0 700 r.zones.z4 &&
    Machine.inRange 0 700 r.zones.ring

/-- Every field of a step record lies in its range (R19). -/
def StepRecord.inRange (r : StepRecord) : Bool :=
  match r.kind with
  | .move _ => true
  | .polish p => p.inRange
  | .dwell t => Machine.inRange 1 65535 t

/-! ## Requests -/

end Sys2Proof.Machine

namespace Sys2Proof

/-- The port a request came in on; none for a command that is no request. -/
def Instr.port? : Instr → Option Port
  | .listWrite q _ | .listClear q _ | .listRead q _ | .start q _ | .hold q _ | .resume q _ | .abort q _
  | .amend q _ | .flagSet q _ | .placeHead q _ | .headConfig q _ | .platenConfig q _ | .lineConfig q _
  | .moduleConfig q _ | .serviceSet q _ | .padInstall q _ | .padRestore q _ | .diskInstall q _
  | .conditionNow q _ | .resumeModule q _ | .restart q _ | .beatRead q _ | .revokeClaim q _ | .mark q _
  | .qualRead q _ | .claim q _ | .placed q _ | .removed q _ | .release q _ | .headRead q _ | .stationRead q _
  | .lineRead q _ | .resultRead q _ | .padRead q _ | .noticeRead q _ | .noticeAck q _ | .noticeMask q _
  | .unknownRequest q _ _ => some q
  | .windowClosedEarly _ | .platenCount _ _ | .indexPulse _ | .armCount _ _ | .inBandChange _ _ _
  | .supplyReadyChange _ _ | .moveDone _ _ | .moveFault _ _ | .moveLimitExpiry _ | .interlockChange _
  | .vacuumChange _ _ | .coldReset _ | .stallExpiry _ | .bandTimeout _ | .lineRecovery _ | .dwellEnd _ | .gapEnd _
  | .accumulatorLimit _ | .overpolishTargetMet _ | .settleEnd _ | .endpointConfirmation _ | .runComplete _
  | .padWarn _ | .padRetired _ | .diskSpent _ | .claimOverdue _ | .beat | .warmRestart => none

/-- The one port that R167 permits a request on; none for a request of all three ports and for no request. -/
def Instr.onlyPort? : Instr → Option Port
  | .listWrite _ _ | .listClear _ _ | .listRead _ _ | .start _ _ | .hold _ _ | .resume _ _ | .abort _ _
  | .amend _ _ | .flagSet _ _ | .placeHead _ _ | .headConfig _ _ | .platenConfig _ _ | .lineConfig _ _
  | .moduleConfig _ _ | .serviceSet _ _ | .padInstall _ _ | .padRestore _ _ | .diskInstall _ _
  | .conditionNow _ _ | .resumeModule _ _ | .restart _ _ | .beatRead _ _ | .revokeClaim _ _ => some .recipe
  | .mark _ _ | .qualRead _ _ => some .endpoint
  | .claim _ _ | .placed _ _ | .removed _ _ | .release _ _ => some .transfer
  | .headRead _ _ | .stationRead _ _ | .lineRead _ _ | .resultRead _ _ | .padRead _ _ | .noticeRead _ _
  | .noticeAck _ _ | .noticeMask _ _ | .unknownRequest _ _ _ => none
  | .windowClosedEarly _ | .platenCount _ _ | .indexPulse _ | .armCount _ _ | .inBandChange _ _ _
  | .supplyReadyChange _ _ | .moveDone _ _ | .moveFault _ _ | .moveLimitExpiry _ | .interlockChange _
  | .vacuumChange _ _ | .coldReset _ | .stallExpiry _ | .bandTimeout _ | .lineRecovery _ | .dwellEnd _ | .gapEnd _
  | .accumulatorLimit _ | .overpolishTargetMet _ | .settleEnd _ | .endpointConfirmation _ | .runComplete _
  | .padWarn _ | .padRetired _ | .diskSpent _ | .claimOverdue _ | .beat | .warmRestart => none

/-- The body of a request whose fields have a fixed length, with that length (R168); none for LIST_WRITE and NOTICE_ACK,
whose lengths vary, for UNKNOWN_REQUEST and for a command that is no request. -/
def Instr.fixedBody? : Instr → Option (List Byte × Nat)
  | .listClear _ b | .start _ b | .resume _ b | .abort _ b | .revokeClaim _ b | .qualRead _ b | .claim _ b
  | .placed _ b | .removed _ b | .release _ b | .headRead _ b | .padRead _ b => some (b, 1)
  | .listRead _ b | .hold _ b | .placeHead _ b | .serviceSet _ b | .conditionNow _ b | .resultRead _ b
  | .noticeMask _ b => some (b, 2)
  | .flagSet _ b | .mark _ b => some (b, 3)
  | .lineConfig _ b | .moduleConfig _ b => some (b, 4)
  | .amend _ b => some (b, 6)
  | .headConfig _ b => some (b, 7)
  | .diskInstall _ b => some (b, 9)
  | .padInstall _ b => some (b, 16)
  | .platenConfig _ b => some (b, 23)
  | .padRestore _ b => some (b, 28)
  | .resumeModule _ b | .restart _ b | .beatRead _ b | .stationRead _ b | .lineRead _ b | .noticeRead _ b =>
    some (b, 0)
  | .listWrite _ _ | .noticeAck _ _ | .unknownRequest _ _ _ | .windowClosedEarly _ | .platenCount _ _ | .indexPulse _
  | .armCount _ _ | .inBandChange _ _ _ | .supplyReadyChange _ _ | .moveDone _ _ | .moveFault _ _
  | .moveLimitExpiry _ | .interlockChange _ | .vacuumChange _ _ | .coldReset _ | .stallExpiry _ | .bandTimeout _
  | .lineRecovery _ | .dwellEnd _ | .gapEnd _ | .accumulatorLimit _ | .overpolishTargetMet _ | .settleEnd _
  | .endpointConfirmation _ | .runComplete _ | .padWarn _ | .padRetired _ | .diskSpent _ | .claimOverdue _ | .beat
  | .warmRestart => none

/-- How many objects the first body byte of a request may name (R168): four heads, three platens or six lines; none for a
request whose first byte names no such object. -/
def Instr.named? : Instr → Option Nat
  | .listClear _ _ | .listRead _ _ | .start _ _ | .hold _ _ | .resume _ _ | .abort _ _ | .amend _ _ | .flagSet _ _
  | .placeHead _ _ | .headConfig _ _ | .revokeClaim _ _ | .claim _ _ | .placed _ _ | .removed _ _ | .release _ _
  | .headRead _ _ | .resultRead _ _ => some 4
  | .platenConfig _ _ | .padInstall _ _ | .padRestore _ _ | .diskInstall _ _ | .conditionNow _ _ | .mark _ _
  | .qualRead _ _ | .padRead _ _ => some 3
  | .lineConfig _ _ => some 6
  | .listWrite _ _ | .moduleConfig _ _ | .serviceSet _ _ | .resumeModule _ _ | .restart _ _ | .beatRead _ _
  | .stationRead _ _ | .lineRead _ _ | .noticeRead _ _ | .noticeAck _ _ | .noticeMask _ _ | .unknownRequest _ _ _
  | .windowClosedEarly _ | .platenCount _ _ | .indexPulse _ | .armCount _ _ | .inBandChange _ _ _
  | .supplyReadyChange _ _ | .moveDone _ _ | .moveFault _ _ | .moveLimitExpiry _ | .interlockChange _
  | .vacuumChange _ _ | .coldReset _ | .stallExpiry _ | .bandTimeout _ | .lineRecovery _ | .dwellEnd _ | .gapEnd _
  | .accumulatorLimit _ | .overpolishTargetMet _ | .settleEnd _ | .endpointConfirmation _ | .runComplete _
  | .padWarn _ | .padRetired _ | .diskSpent _ | .claimOverdue _ | .beat | .warmRestart => none

/-- The command carries platen p over a revolution boundary (R51, R52): a FORWARD count at the last position, or an index
pulse in the upper half of the revolution. -/
def Instr.atBoundary (c : Instr) (s : Machine.State) (p : PlatenId) : Prop :=
  (c = .platenCount p .forward ∧ (s.base p).config.cpr ≤ (s.base p).position + 1) ∨
    (c = .indexPulse p ∧ 0 < (s.base p).position ∧ (s.base p).config.cpr ≤ 2 * (s.base p).position)

end Sys2Proof

namespace Sys2Proof.Machine

/-! ## What the statements share -/

/-- The ms timers of the part: dwell (R30), band (R71), move limit (R2), stall (R55), recovery (R92), the accumulator of a
TIME step (R59) and the beat interval (R178). -/
inductive Timer where
  | dwell (h : HeadId)
  | band (h : HeadId)
  | move (h : HeadId)
  | stall (p : PlatenId)
  | recovery (l : LineId)
  | time (p : PlatenId)
  | beat
  deriving DecidableEq, Repr

/-- The timer runs and comes to its end at its next count. -/
def State.timerDue (s : State) : Timer → Prop
  | .dwell h => ∃ w, s.dwelling h = some w ∧ w.dwellRemaining ≤ 1
  | .band h => ∃ x b, (s.zone h).lift = .down x b ∧ b.running = true ∧ (s.zone h).bandTimeout ≤ b.ms + 1
  | .move h => ∃ o d n l, (s.carrier h).position = .inTransit o d (.moving n l) ∧ l ≤ n + 1
  | .stall p => ∃ n, (s.base p).stallTimer = some n ∧ (s.base p).config.stallWindow ≤ n + 1
  | .recovery l => ∃ n, (s.line l).state = .faulted (some n) ∧ (s.line l).recoveryTime ≤ n + 1
  | .time p => s.gate p = true ∧ ∃ h limit w, (s.base p).owner = some ⟨h, limit, .time⟩ ∧ s.runningStep h = some w ∧
      (limit ≤ (s.base p).accumulator + 1 ∨
        ∃ c, w.confirmed = some c ∧ c.target ≤ (s.base p).accumulator + 1 - c.capture.accrued)
  | .beat => s.beat.period.ms ≤ s.beat.interval + 1

/-- No IDLE line has a waiter: a line that becomes free is handed on within its event (R82, R83). -/
def State.IdleLinesFree (s : State) : Prop := ∀ l, (s.line l).state = .idle → (s.line l).wait = []

/-- Line l, left by its nozzle or recovered, is handed between s and t to the oldest waiting nozzle n (R82, R83 step 3, R92
step 2), whose user's step leaves ACQUIRE_LINE: into KEEPOUT_WAIT while the arm stands beyond K, else DOWN into GAP (R33, R34,
R67). A touch-down on a platen that is stalled or turns in reverse, which begins LIFT and gives the line back (R56, R57), is
left out. -/
def State.HandedOn (s t : State) (l : LineId) : Prop :=
  ∀ n rest g w r, (s.line l).wait = n :: rest → s.headOn n = some g → s.polishing g = some (w, r, n) →
    s.isDown g = false → (s.seq g).stack = [] → (∀ m f, (s.line l).state ≠ .bound m g f) →
    ((s.base n).config.keepOut < (s.cond n).position ∨
      (s.base n).stalled = false ∧ (s.base n).direction = .forward) →
    t.line l = { s.line l with state := .bound n g r.flow, wait := rest } ∧
    ((s.base n).config.keepOut < (s.cond n).position →
      t.isDown g = false ∧
        t.seq g = { s.seq g with activity := some (.step { w with phase := some .keepoutWait }) }) ∧
    ((s.cond n).position ≤ (s.base n).config.keepOut → 0 < r.gap →
      (t.zone g).lift = .down (.gap r.gapPressure) ⟨0, !(s.zone g).inBand.allTrue, false⟩ ∧
        t.seq g = { s.seq g with
          activity := some (.step { w with
            phase := some .gap
            gapRemaining := (effectiveGap r (s.base n).config.lead w.keptLine).1
            flags := { w.flags with
              gapExtended := w.flags.gapExtended || (effectiveGap r (s.base n).config.lead w.keptLine).2 } }) })

/-- The lost step record of a discarded step, the intervention that discards it counted (R116, R117 step 7). -/
def Working.lostBy (w : Working) : LostStep :=
  { index := w.index, startBeat := w.startBeat, interventions := satSucc 255 w.interventions, flags := w.flags,
    accrued := w.accrued
    overpolish :=
      match w.confirmed with
      | some c => w.accrued - c.capture.accrued
      | none => 0
    platen := w.platen
    line :=
      match w.record.kind with
      | .polish r => r.line
      | .move _ | .dwell _ => .none }

/-- The pad record of platen p once its station has been left (R8 step 1, R156): a head that leaves it with the polish mark
set counts a wafer, and may owe the ex-situ sweeps. -/
def State.padLeft (s : State) (p : PlatenId) : Pad :=
  let k := s.pad p
  if (s.headOn p).isSome ∧ k.polishMark = true then
    { k with
      wafers := satSucc 4294967295 k.wafers
      sinceExSitu := satSucc 65535 k.sinceExSitu
      polishMark := false
      owed := if 0 < k.interval ∧ k.interval ≤ satSucc 65535 k.sinceExSitu then max k.owed k.exSituSweeps else k.owed }
  else k

/-- The oldest waiter of station d takes it between s and t (R8 steps 3 and 5): it is granted, its move is sent, or deferred
by a trip (R11), and its step or its PARK goes on; without a waiter the station is free. -/
def State.Granted (s t : State) (d : StationId) : Prop :=
  ((s.station d).wait = [] → t.station d = { s.station d with holder := none }) ∧
    ∀ g rest, (s.station d).wait = g :: rest →
      t.station d = { s.station d with holder := some (.head g), wait := rest } ∧
      (s.trip.tripped = false → t.carrier g = { s.carrier g with
        position := .inTransit (s.stationOf g) d (.moving 0 (s.carrier g).moveLimit)
        moveNumber := (s.carrier g).moveNumber + 1
        sent := (s.carrier g).sent ++ [.move d ((s.carrier g).moveNumber + 1)] }) ∧
      (s.trip.tripped = true → t.carrier g = { s.carrier g with position := .inTransit (s.stationOf g) d .deferred }) ∧
      (∀ w, (s.seq g).activity = some (.step w) →
        t.seq g = { s.seq g with activity := some (.step { w with phase := some .inTransit }) }) ∧
      (∀ k cs x, (s.seq g).activity = some (.intervention k cs (some x)) →
        t.seq g = { s.seq g with activity := some (.intervention k cs (some .moving)) })

/-- Station d is released between s and t (R8): LOAD and RINSE go to the oldest waiter; a platen counts its wafer (step 1),
goes to an owed run that the conditioner can claim, or stays free with its waiters (step 2), goes to the oldest waiter where
its pad may be used (step 3), and turns its waiters away where it may not (step 4). -/
def State.Released (s t : State) (d : StationId) : Prop :=
  (d = .load ∨ d = .rinse → s.Granted t d) ∧
    ∀ p, d = .platen p →
      t.pad p = s.padLeft p ∧
      (0 < (s.padLeft p).owed →
        ((s.disk p).state = .active → s.trip.tripped = false → (s.cond p).runHeld = false →
          t.station d = { s.station d with holder := some .conditioner } ∧ (t.cond p).runHeld = true ∧
            (t.cond p).sweepsDone = 0 ∧ ((s.cond p).arm = .stowed → (t.cond p).arm = .deploying .exSitu)) ∧
        ((s.disk p).state ≠ .active ∨ s.trip.tripped = true ∨ (s.cond p).runHeld = true →
          t.station d = { s.station d with holder := none })) ∧
      ((s.padLeft p).owed = 0 → (s.padLeft p).state = .inService ∨ (s.padLeft p).state = .warn → s.Granted t d) ∧
      ((s.padLeft p).owed = 0 → (s.padLeft p).state ≠ .inService → (s.padLeft p).state ≠ .warn →
        t.station d = { s.station d with holder := none, wait := [] } ∧
          ∀ g ∈ (s.station d).wait, (s.seq g).state = .running →
            (t.seq g).state = .halted .stationUnavailable none ∧ .halted g ∈ (t.port .recipe).notices)

/-- The port opens windows: no chip select has been held since reset (R177). -/
def State.opens (s : State) (q : Port) : Prop := (s.port q).selectHeld = false

/-- What an accepted request that is no read leaves, from the state its work has made: every speed setpoint and outer limit
decided anew (R54, R138), and the response OK with a body of length 0 (R165, R166). -/
def State.accepted (t : State) (q : Port) : State := t.settle.respond q .ok []

/-- What a refused request leaves: the status, and nothing else (R165). -/
def State.refusal (s : State) (q : Port) (e : Status) : State := s.respond q e []

end Sys2Proof.Machine
end

