-- ==== Sys2Proof/Certificates/Slice0/Obligations.lean ====
section
/-!
DEFINITION. The statements about the PT440 for the provers. Each speaks of exec (one command) or of step (the front of the
queue, or one millisecond); an accepted request leaves `State.accepted` of the state its work has made, a refused one
`State.refusal` (Safety.lean). A statement that rests on a choice of the model says so and names the log entry.
-/

open Sys2Proof Sys2Proof.Machine

/-! ## The queue, reset and the forms of requests -/

/-- The command at the front of the queue acts on the state with the rest of the queue. -/
def Obligations.StepRunsTheFrontCommand : Prop :=
  ∀ (c : Instr) (rest : List Instr) (s : State),
    s.pending = c :: rest → step s = exec c { s with pending := rest }

/-- With no command waiting one millisecond passes (the model's choice, log entry 2): every running ms timer counts once, the
dwell remaining (R30), the band timer (R71), the move limit timer (R2), the stall timer (R55), the recovery timer (R92), the
accumulator of a TIME step whose gate is on (R59) and the beat interval (R178), and nothing else changes where no timer comes
to its end. A timer that alone comes to its end acts in that millisecond: the DWELL step ends (R30), the band timer begins
LIFT (R72), the move faults (R13), the platen stalls (R55, R56), the line recovers (R92), the step ends at its limit (R60), a
beat expires (R179). Where several come to their ends together the order is log entry 23, and a timer that one of them starts
is log entry 31; those milliseconds are shut out here. -/
def Obligations.IdleStepIsOneMillisecond : Prop :=
  (∀ s : State, s.pending = [] →
    step s = .next s.tick ∧
      (s.beat.interval + 1 < s.beat.period.ms →
        s.tick.beat = { s.beat with interval := s.beat.interval + 1 }) ∧
      (s.beat.period.ms ≤ s.beat.interval + 1 →
        s.tick.beat.interval = 0 ∧ s.tick.beat.counter = satSucc Config.max32 s.beat.counter)) ∧
  (∀ s : State, s.pending = [] → s.Settled → (∀ x, ¬ s.timerDue x) →
    ∃ t, step s = .next t ∧
      t = { s with
        seqs := t.seqs, zones := t.zones, carriers := t.carriers, bases := t.bases, lines := t.lines, pads := t.pads
        beat := { s.beat with interval := s.beat.interval + 1 } } ∧
      (∀ h, s.dwelling h = none → t.seq h = s.seq h) ∧
      (∀ h w n, (s.seq h).state = .running → (s.seq h).activity = some (.step w) → w.record.kind = .dwell n →
        w.phase = some .dwell →
        t.seq h = { s.seq h with activity := some (.step { w with dwellRemaining := w.dwellRemaining - 1 }) }) ∧
      (∀ h, t.zone h = { s.zone h with
        lift := match (s.zone h).lift with
          | .up => .up
          | .down x b => .down x (if b.running then { b with ms := b.ms + 1 } else b) }) ∧
      (∀ h, t.carrier h = { s.carrier h with
        position := match (s.carrier h).position with
          | .inTransit o d (.moving n l) => .inTransit o d (.moving (n + 1) l)
          | x => x }) ∧
      (∀ l, t.line l = { s.line l with
        state := match (s.line l).state with
          | .faulted (some n) => .faulted (some (n + 1))
          | x => x }) ∧
      (∀ p,
        let accrues : Bool := s.gate p && decide ((s.base p).owner.map Owner.clock = some .time)
        t.base p = { s.base p with
          stallTimer := (s.base p).stallTimer.map fun n => n + 1
          accumulator := if accrues then (s.base p).accumulator + 1 else (s.base p).accumulator } ∧
        t.pad p = { s.pad p with polishMark := (s.pad p).polishMark || accrues })) ∧
  (∀ (s : State) (x : Timer), s.pending = [] → s.timerDue x → (∀ y, y ≠ x → ¬ s.timerDue y) →
    ∃ t, step s = .next t ∧
      (∀ h w, x = .dwell h → (s.seq h).activity = some (.step w) →
        ∃ k, (s.seq h).results ++ [k] <+: (t.seq h).results ∧ k.index = w.index ∧ k.outcome = .completed ∧
          k.startBeat = w.startBeat ∧ k.endBeat = s.beat.counter) ∧
      (∀ h a, x = .band h → (s.seq h).state = .running → (s.seq h).activity = some a → s.dwelling h = none →
        a.rank < 2 → (s.seq h).stack.length < 2 →
        t.seq h = Sequencer.bump { s.seq h with
          activity := some (.intervention .lift [.pressureBand] none)
          stack := ⟨s.saved h a, (s.carrier h).halt.position.transit?⟩ :: (s.seq h).stack } ∧
        t.isDown h = false ∧ .intervened h ∈ (t.port .recipe).notices) ∧
      (∀ h o d n l, x = .move h → (s.carrier h).position = .inTransit o d (.moving n l) → s.dwelling h = none →
        t.carrier h = { s.carrier h with position := .inTransit o d .halted, sent := (s.carrier h).sent ++ [.halt] } ∧
        t.seq h = { s.seq h with
          state := match (s.seq h).state with
            | .closing e => .halted .moveFault (some e)
            | .halted _ e => .halted .moveFault e
            | .unplaced | .idle | .running => .halted .moveFault none } ∧
        .halted h ∈ (t.port .recipe).notices) ∧
      (∀ p h w r, x = .stall p → s.trip.tripped = false → s.headOn p = some h → s.isDown h = true →
        (s.seq h).state = .running → (s.seq h).activity = some (.step w) → w.record.kind = .polish r →
        w.platen = some p → 0 < r.speed → 0 < (s.base p).speed → (s.seq h).stack = [] →
        (t.base p).stalled = true ∧ (t.base p).stallTimer = none ∧
        t.seq h = Sequencer.bump { s.seq h with
          activity := some (.intervention .lift [.platenStall] none)
          stack := [⟨.step (s.collect h w).suspended, (s.carrier h).halt.position.transit?⟩] } ∧
        t.isDown h = false) ∧
      (∀ l, x = .recovery l → (∀ k, (s.line k).wait = []) →
        (∀ g, s.isRunning g = true → ∀ k cs y, (s.seq g).activity = some (.intervention k cs y) →
          ∃ c ∈ cs, c ≠ .lineFault l) →
        t.line l = { s.line l with state := .idle }) ∧
      (∀ p h w r limit, x = .time p → (s.base p).owner = some ⟨h, limit, .time⟩ → s.ownedPlaten h = some p →
        (s.seq h).activity = some (.step w) → w.record.kind = .polish r → (s.base p).accumulator + 1 = limit →
        w.phase = some .polish → w.confirmed = none →
        ∃ k, (s.seq h).results ++ [k] <+: (t.seq h).results ∧ k.index = w.index ∧ k.accrued = limit ∧
          k.outcome = (match r.termination with
            | .limit => .completed
            | .endpoint => .epMiss)))

/-- The values the manual gives the part for cold reset, block by block. The levels of the field inputs are the model's
choice (log entry 4) and are not claimed here; the last clause, the empty queue, is the model's own choice (log entry 16). -/
def Obligations.ResetValues : Prop :=
  (∀ d, (State.reset.station d).holder = none ∧ (State.reset.station d).wait = []) ∧
  ((State.reset.station .load).inService = true ∧ (State.reset.station .rinse).inService = true ∧
    ∀ p, (State.reset.station (.platen p)).inService = false) ∧
  (∀ h, (State.reset.carrier h).position = .unplaced ∧ (State.reset.carrier h).moveNumber = 0 ∧
    (State.reset.carrier h).moveLimit = 20000) ∧
  (∀ h, (State.reset.seq h).steps = [] ∧ (State.reset.seq h).results = [] ∧ (State.reset.seq h).ep = false ∧
    (State.reset.seq h).epmiss = false ∧ (State.reset.seq h).u1 = false ∧ (State.reset.seq h).u2 = false ∧
    (State.reset.seq h).state = .unplaced ∧ (State.reset.seq h).activity = none ∧ (State.reset.seq h).stack = [] ∧
    (State.reset.seq h).lost = none ∧ (State.reset.seq h).claim = none) ∧
  (∀ h, (State.reset.zone h).lift = .up ∧ (State.reset.zone h).rinsePressure = 50 ∧
    (State.reset.zone h).bandTimeout = 2000) ∧
  (∀ p, State.reset.base p =
    { config :=
        { lines := 1000, fold := 4, tolerance := 8, stallWindow := 500, lead := 1000, confirmNumber := 3,
          conditioningSpeed := 60, stow := 200, inner := 2000, keepOut := 20000, outer := 40000, armSpeed := 4000,
          downforce := 150 }
      position := 0, revolution := 0, direction := .forward, speed := 0, stallTimer := none, stalled := false,
      accumulator := 0, owner := none, amend := ⟨none, none, none⟩ }) ∧
  (∀ p, State.reset.qual p = ⟨.idle, none, none, 0, 0, 0, 0, 0, none⟩) ∧
  (∀ p, State.reset.cond p = ⟨.stowed, .inward, 0, .outer, false, 0, 0, 0⟩) ∧
  (∀ p, State.reset.pad p = ⟨0, .unknown, 0, 0, 0, 0, 0, 0, 0, 0, 0, false⟩) ∧
  (∀ p, State.reset.disk p = ⟨0, .unknown, 0, 0⟩) ∧
  (∀ l, (State.reset.line l).cls = .none ∧ (State.reset.line l).state = .disabled ∧
    (State.reset.line l).recoveryTime = 5000 ∧ (State.reset.line l).wait = []) ∧
  (State.reset.trip.sense = .tripOnLow ∧ State.reset.trip.tripped = true) ∧
  State.reset.beat = ⟨.ms100, 0, 0, false, false, false, 300⟩ ∧
  (∀ q, (State.reset.port q).notices = [] ∧ (State.reset.port q).mask = 0 ∧ (State.reset.port q).window = none) ∧
  State.reset.pending = []

/-- The state after cold reset satisfies every invariant of State.Healthy. -/
def Obligations.ResetIsHealthy : Prop := State.reset.Healthy

/-- A request is refused, and then leaves nothing but its status and an empty body, or accepted with status OK (R165). -/
def Obligations.RequestsAreRefusedOrAccepted : Prop :=
  ∀ (c : Instr) (q : Port) (s : State), c.wellFormed = true → c.port? = some q → s.opens q →
    (∃ e, e ≠ .ok ∧ exec c s = .next (s.refusal q e)) ∨ (∃ (t : State) (b : List Byte), exec c s = .next (t.respond q .ok b))

/-- The first checks of a request (R165, R168, R174). One that R167 permits on another port alone is refused NOT_PERMITTED
before any other check. Then the body of a request whose fields have a fixed length must have that length, a LIST_WRITE the
length of its kind, a NOTICE_ACK an even one, and no body is longer than 60 bytes: otherwise BAD_LENGTH. Then a code that
names no head, platen, line or station of the part, and an enumerated code out of its list, are refused OUT_OF_RANGE. That a
LIST_WRITE checks its index and the ranges of its record here, whatever the state of the head, is the model's reading of R20
beside R165 (log entry 11). -/
def Obligations.PortsAndLengthsAreChecked : Prop :=
  ((∀ (c : Instr) (q p : Port) (s : State), c.wellFormed = true → c.port? = some q → c.onlyPort? = some p → q ≠ p →
     s.opens q → exec c s = .next (s.refusal q .notPermitted)) ∧
   (∀ (c : Instr) (q : Port) (b : List Byte) (n : Nat) (s : State), c.port? = some q → c.fixedBody? = some (b, n) →
     (∀ p, c.onlyPort? = some p → q = p) → s.opens q → b.length ≠ n → exec c s = .next (s.refusal q .badLength)) ∧
   (∀ (q : Port) (b : List Byte) (s : State), s.opens q → 60 < b.length ∨ b.length % 2 = 1 →
     exec (.noticeAck q b) s = .next (s.refusal q .badLength))) ∧
  (∀ (b : List Byte) (s : State), s.opens .recipe →
    (60 < b.length → exec (.listWrite .recipe b) s = .next (s.refusal .recipe .badLength)) ∧
    (∀ n, recordLength (le8 b 2) = some n → b.length ≠ n →
      exec (.listWrite .recipe b) s = .next (s.refusal .recipe .badLength)) ∧
    (3 ≤ le8 b 2 →
      (b.length ≠ 9 → b.length ≠ 10 → b.length ≠ 37 →
        exec (.listWrite .recipe b) s = .next (s.refusal .recipe .badLength)) ∧
      (b.length = 9 ∨ b.length = 10 ∨ b.length = 37 →
        exec (.listWrite .recipe b) s = .next (s.refusal .recipe .outOfRange))) ∧
    (recordLength (le8 b 2) = some b.length → 4 ≤ le8 b 0 ∨ 16 ≤ le8 b 1 ∨ recordOf b = none →
      exec (.listWrite .recipe b) s = .next (s.refusal .recipe .outOfRange)) ∧
    (recordLength 0 = some 9 ∧ recordLength 1 = some 37 ∧ recordLength 2 = some 10)) ∧
  (∀ (c : Instr) (q : Port) (b : List Byte) (n k : Nat) (s : State), c.port? = some q → c.fixedBody? = some (b, n) →
    (∀ p, c.onlyPort? = some p → q = p) → s.opens q → b.length = n →
    (c.named? = some k → k ≤ le8 b 0 → exec c s = .next (s.refusal q .outOfRange)) ∧
    (c = .placeHead q b → 5 ≤ le8 b 1 → exec c s = .next (s.refusal q .outOfRange)) ∧
    (c = .serviceSet q b → le8 b 0 = 0 ∨ 4 ≤ le8 b 0 ∨ 2 ≤ le8 b 1 → exec c s = .next (s.refusal q .outOfRange)) ∧
    (c = .hold q b → 3 ≤ le8 b 1 → exec c s = .next (s.refusal q .outOfRange)) ∧
    (c = .flagSet q b → 2 ≤ le8 b 1 ∨ 2 ≤ le8 b 2 → exec c s = .next (s.refusal q .outOfRange)) ∧
    (c = .lineConfig q b → 3 ≤ le8 b 1 → exec c s = .next (s.refusal q .outOfRange)) ∧
    (c = .moduleConfig q b → 2 ≤ le8 b 0 ∨ 3 ≤ le8 b 1 → exec c s = .next (s.refusal q .outOfRange)) ∧
    (c = .mark q b → 3 ≤ le8 b 2 → exec c s = .next (s.refusal q .outOfRange)) ∧
    (c = .resultRead q b → 16 ≤ le8 b 1 → exec c s = .next (s.refusal q .outOfRange)))

/-! ## Step lists, flags and records -/

/-- LIST_WRITE (R20, R174). -/
def Obligations.ListWriteStoresTheRecord : Prop :=
  ∀ (s : State) (b : List Byte) (h : HeadId) (r : StepRecord), s.opens .recipe →
    recordLength (le8 b 2) = some b.length → headOf (le8 b 0) = some h → le8 b 1 < 16 → recordOf b = some r →
    ((s.seq h).state = .unplaced ∨ (s.seq h).state = .idle → le8 b 1 ≤ (s.seq h).steps.length →
      (∀ l, r.line = .line l → (s.line l).cls ≠ .none) →
      exec (.listWrite .recipe b) s = .next ((s.modSeq h fun q =>
        { q with
          steps := if le8 b 1 = q.steps.length then q.steps ++ [r] else q.steps.set (le8 b 1) r }).accepted .recipe)) ∧
    ((s.seq h).state ≠ .unplaced → (s.seq h).state ≠ .idle →
      exec (.listWrite .recipe b) s = .next (s.refusal .recipe .wrongState)) ∧
    ((s.seq h).state = .unplaced ∨ (s.seq h).state = .idle →
      (s.seq h).steps.length < le8 b 1 ∨ (∃ l, r.line = .line l ∧ (s.line l).cls = .none) →
      exec (.listWrite .recipe b) s = .next (s.refusal .recipe .outOfRange))

/-- LIST_CLEAR (R21), FLAG_SET (R22) and PLACE_HEAD (R15): PLACE_HEAD sends no move, leaves the move number unchanged, and
neither the pad, an owed run nor the trip takes part in it. -/
def Obligations.ListClearFlagSetPlaceHead : Prop :=
  (∀ (s : State) (b : List Byte) (h : HeadId), s.opens .recipe → headOf (le8 b 0) = some h →
     (b.length = 1 → (s.seq h).state = .unplaced ∨ (s.seq h).state = .idle →
       exec (.listClear .recipe b) s =
         .next ((s.modSeq h fun q => { q with steps := [], results := [] }).accepted .recipe)) ∧
     (b.length = 1 → (s.seq h).state ≠ .unplaced → (s.seq h).state ≠ .idle →
       exec (.listClear .recipe b) s = .next (s.refusal .recipe .wrongState)) ∧
     (∀ v : Bool, b.length = 3 → le8 b 1 = 0 → le8 b 2 = v.toNat →
       exec (.flagSet .recipe b) s = .next ((s.modSeq h fun q => { q with u1 := v }).accepted .recipe)) ∧
     (∀ v : Bool, b.length = 3 → le8 b 1 = 1 → le8 b 2 = v.toNat →
       exec (.flagSet .recipe b) s = .next ((s.modSeq h fun q => { q with u2 := v }).accepted .recipe))) ∧
  (∀ (s : State) (b : List Byte) (h : HeadId) (d : StationId), s.opens .recipe → b.length = 2 →
     headOf (le8 b 0) = some h → stationOfCode (le8 b 1) = some d →
     ((s.carrier h).position = .unplaced → (s.station d).holder = none → (s.station d).inService = true →
       (s.station d).wait = [] →
       exec (.placeHead .recipe b) s = .next ((((s.modStation d fun k => { k with holder := some (.head h) }).modCarrier h
         fun c => { c with position := .stands d }).modSeq h fun q => { q with state := .idle }).accepted .recipe)) ∧
     ((s.carrier h).position ≠ .unplaced ∨ (s.station d).holder ≠ none ∨ (s.station d).inService = false ∨
         (s.station d).wait ≠ [] →
       exec (.placeHead .recipe b) s = .next (s.refusal .recipe .wrongState)))

/-- The byte layout of a step record (R174) loses nothing: a record in its ranges (R19), laid out from byte 2 on as
LIST_READ sends it, is read back from a LIST_WRITE body as itself, in a body of 9, 37 or 10 bytes. -/
def Obligations.RecordsReadBack : Prop :=
  ∀ (h i : Byte) (r : StepRecord), r.inRange = true →
    recordOf (h :: i :: putRecord r) = some r ∧
      recordLength (le8 (h :: i :: putRecord r) 2) = some (h :: i :: putRecord r).length ∧
      le8 (h :: i :: putRecord r) 0 = h.toNat ∧ le8 (h :: i :: putRecord r) 1 = i.toNat

/-! ## Reads -/

/-- A read is answered with what it names and changes no state but the response (R17, R21, R41, R47, R95, R109, R162). The free
value that HEAD_READ shows for a step whose context is lost is drawn from a counter of the model (log entry 10), which alone
advances. The bodies are spelled out, byte by byte, of STATION_READ (R17, R176), HEAD_READ and QUAL_READ (R47, R109, R176),
LINE_READ (R95), RESULT_READ (R175), PAD_READ (R162) and LIST_READ (R174), and so is when LINE_READ shows the spray and a rinse
valve on (R88, R89). The bits of the flags byte are log entry 8, the absent phase of a step turned down log entry 20, the codes
of enumerated values without a table log entry 21, those of the spray byte and the claimed mark log entry 34, the valve and the
spray on a HALTED head log entry 30. -/
def Obligations.ReadsChangeNothing : Prop :=
  ((∀ (s : State) (b : List Byte) (h : HeadId) (r : StepRecord), s.opens .recipe → b.length = 2 →
     headOf (le8 b 0) = some h → (s.seq h).steps[le8 b 1]? = some r →
     exec (.listRead .recipe b) s = .next (s.respond .recipe .ok (put8 (s.seq h).steps.length ++ putRecord r))) ∧
   (∀ (s : State) (b : List Byte) (h : HeadId), s.opens .recipe → b.length = 2 → headOf (le8 b 0) = some h →
     (s.seq h).steps.length ≤ le8 b 1 → exec (.listRead .recipe b) s = .next (s.refusal .recipe .outOfRange)) ∧
   (∀ (s : State) (q : Port), s.opens q →
     exec (.stationRead q []) s = .next (s.respond q .ok
       ((stationIds.map fun d => putStation (s.station d)).flatten ++ (headIds.map s.putCarrier).flatten)) ∧
     exec (.lineRead q []) s = .next (s.respond q .ok
       ((lineIds.map fun l => putLine (s.line l)).flatten ++ (platenIds.map s.putNozzle).flatten ++ putBool s.spray))) ∧
   (∀ (s : State) (q : Port) (b : List Byte) (h : HeadId), s.opens q → b.length = 2 → headOf (le8 b 0) = some h →
     le8 b 1 < 16 →
     exec (.resultRead q b) s = .next (s.respond q .ok
       (put8 (s.seq h).results.length ++ put8 (le8 b 1) ++ put8 (min 7 ((s.seq h).results.length - le8 b 1)) ++
         (((s.seq h).results.drop (le8 b 1)).take 7 |>.map putResult).flatten))) ∧
   (∀ (s : State) (q : Port) (b : List Byte) (p : PlatenId), s.opens q → b.length = 1 → platenOfCode (le8 b 0) = some p →
     exec (.padRead q b) s =
       .next (s.respond q .ok (putPad (s.pad p) ++ putDisk (s.disk p) ++ putConditioner (s.cond p)))) ∧
   (∀ (s : State) (b : List Byte) (p : PlatenId), s.opens .endpoint → b.length = 1 → platenOfCode (le8 b 0) = some p →
     exec (.qualRead .endpoint b) s = .next (s.respond .endpoint .ok (s.qualRead p)))) ∧
  (∀ (s : State) (q : Port) (b : List Byte) (h : HeadId), s.opens q → b.length = 1 → headOf (le8 b 0) = some h →
     (s.drawsFree h = false → exec (.headRead q b) s = .next (s.respond q .ok (s.headRead h))) ∧
     (s.drawsFree h = true →
       exec (.headRead q b) s = .next ({ s with freeCount := s.freeCount + 1 }.respond q .ok (s.headRead h)))) ∧
  (∀ (s : State) (h : HeadId),
    let q := s.seq h
    let phases : List Phase := [.waitStation, .inTransit, .acquireLine, .keepoutWait, .gap, .polish, .overpolish, .dwell]
    s.headRead h =
      (match q.state with
        | .unplaced => [0, 0, 0]
        | .idle => [1, 0, 0]
        | .running => [2, 0, 0]
        | .closing .idle => [3, 1, 0]
        | .closing (.halted .refusedPlace) => [3, 2, 4]
        | .closing (.halted .refusedNoWafer) => [3, 2, 5]
        | .closing (.halted .waferLost) => [3, 2, 6]
        | .closing (.halted .lost) => [3, 2, 7]
        | .halted .cycle _ => [4, 0, 1]
        | .halted .stationUnavailable _ => [4, 0, 2]
        | .halted .moveFault _ => [4, 0, 3]
        | .halted (.final .refusedPlace) _ => [4, 0, 4]
        | .halted (.final .refusedNoWafer) _ => [4, 0, 5]
        | .halted (.final .waferLost) _ => [4, 0, 6]
        | .halted (.final .lost) _ => [4, 0, 7]) ++
      putOpt 1 ((s.stepShown h).1.map put8) ++ putOpt 1 ((s.stepShown h).2.map fun x => [x]) ++
      (match q.activity with
        | none => [0, 0]
        | some (.step _) => [1, 0]
        | some (.intervention .rinse _ _) => [1, 1]
        | some (.intervention .lift _ _) => [1, 2]
        | some (.intervention .park _ _) => [1, 3]
        | some (.intervention .trip _ _) => [1, 4]) ++
      put8 q.stack.length ++ put8 (if q.lost = none then 0 else 1) ++
      put8 (q.ep.toNat + 2 * q.epmiss.toNat + 4 * q.u1.toNat + 8 * q.u2.toNat + 16 * (s.padWarnFlag h).toNat) ++
      put8 q.steps.length ++ put8 q.results.length ++
      (match q.claim with
        | none => [0, 0, 0, 0]
        | some c => put8 1 ++ put16 c.timer ++ (match c.report with
          | .none => [0]
          | .placed => [1]
          | .removed => [2])) ++
      put16 (s.zone h).rinsePressure ++ put16 (s.zone h).bandTimeout ++ put16 (s.carrier h).moveLimit ∧
    (∀ w, q.activity = some (.step w) →
      s.stepShown h = (some w.index, w.phase.map fun f => BitVec.ofNat 8 (phases.idxOf f))) ∧
    (∀ k cs x front w tr, q.activity = some (.intervention k cs x) → q.stack = front ++ [⟨.step w, tr⟩] →
      (∀ c ∈ front, ∃ j js, c.saved = .intervention j js) →
      s.stepShown h = (some w.index, w.resume.map fun f => BitVec.ofNat 8 (phases.idxOf f))) ∧
    ((∀ w, q.activity ≠ some (.step w)) → (∀ c ∈ q.stack, ∃ j js, c.saved = .intervention j js) →
      (∀ l, q.lost = some l → (s.stepShown h).1 = some l.index ∧ (s.stepShown h).2.isSome = true) ∧
      (q.lost = none → s.stepShown h = (none, none)))) ∧
  (∀ (s : State) (p : PlatenId),
    let q := s.qual p
    s.qualRead p =
      (match q.state with
        | .idle => put8 0 ++ putOpt 1 none ++ putOpt 1 none ++ putOpt 4 none ++ put8 0
        | .settling h n => put8 1 ++ putOpt 1 (some (put8 (HeadId.code h))) ++ putOpt 1 (some (put8 n)) ++ putOpt 4 none ++ put8 0
        | .watch h r => put8 2 ++ putOpt 1 (some (put8 (HeadId.code h))) ++ putOpt 1 none ++ putOpt 4 (some (put32 r.toNat)) ++
            put8 0
        | .confirm h r n => put8 3 ++ putOpt 1 (some (put8 (HeadId.code h))) ++ putOpt 1 none ++
            putOpt 4 (some (put32 r.toNat)) ++ put8 n) ++
      put8 (s.base p).config.confirmNumber ++ putOpt 4 (q.lastCounted.map fun r => put32 r.toNat) ++
      (match q.lastKind with
        | none => [0]
        | some .film => [1]
        | some .clearing => [2]
        | some .cleared => [3]) ++
      put16 q.relock ++ put16 q.late ++ put16 q.unexpected ++ put16 q.ignored ++ put16 q.duplicate ++
      putOpt 10 (q.capture.map fun c => put32 c.revolution.toNat ++ put16 c.position ++ put32 c.accrued) ++
      put32 (s.base p).revolution.toNat ++ put16 (s.base p).position) ∧
  ((∀ n, put8 n = [BitVec.ofNat 8 n] ∧ put16 n = [BitVec.ofNat 8 n, BitVec.ofNat 8 (n / 256)] ∧
     put32 n = [BitVec.ofNat 8 n, BitVec.ofNat 8 (n / 256), BitVec.ofNat 8 (n / 65536), BitVec.ofNat 8 (n / 16777216)]) ∧
   (∀ n b, putOpt n none = 0 :: List.replicate n 0 ∧ putOpt n (some b) = 1 :: b) ∧
   headIds.map HeadId.code = [0, 1, 2, 3]) ∧
  ((∀ s : State, s.spray = true ↔ s.trip.tripped = false ∧ ∃ h, (s.station .rinse).holder = some (.head h) ∧
     (s.carrier h).position = .stands .rinse ∧
     ((∃ w n, (s.seq h).activity = some (.step w) ∧ w.record.kind = .dwell n) ∨
       ∃ cs, (s.seq h).activity = some (.intervention .park cs (some .atRinse)))) ∧
   (∀ (s : State) (p : PlatenId), s.rinseValve p = true ↔ s.trip.tripped = false ∧ ∃ h, s.headOn p = some h ∧
     ((∃ w r f, (s.seq h).state = .running ∧ (s.seq h).activity = some (.step w) ∧ w.record.kind = .polish r ∧
         r.line = .rinse ∧ w.platen = some p ∧ w.phase = some f ∧ f.atPlaten = true) ∨
       ∃ cs x, (s.seq h).activity = some (.intervention .rinse cs x)))) ∧
  ((∀ k : Station, putStation k =
     (match k.holder with
       | none => [0]
       | some (.head g) => put8 (HeadId.code g + 1)
       | some .conditioner => [5]) ++
     [if k.inService then 0 else 1] ++ put8 k.wait.length ++ k.wait.map fun g => BitVec.ofNat 8 (HeadId.code g)) ∧
   (∀ (s : State) (h : HeadId), s.putCarrier h =
     (match (s.carrier h).position with
       | .unplaced => [0, 0, 0, 0, 0]
       | .stands d => 1 :: put8 (StationId.code d) ++ [0, 0, 0]
       | .inTransit o d st => 2 :: put8 (StationId.code o) ++ put8 (StationId.code d) ++
           (match st with
             | .moving _ _ => [1, 0]
             | .halted => [1, 1]
             | .deferred => [1, 2])) ++
     [(s.carrier h).moveNumber] ++
     (match s.awaited h with
       | none => [0]
       | some d => put8 (StationId.code d + 1))) ∧
   (∀ (s : State) (h : HeadId), (∀ d, s.awaited h = some d → h ∈ (s.station d).wait) ∧
     (s.awaited h = none → ∀ d, h ∉ (s.station d).wait))) ∧
  ((∀ k : Line, putLine k =
     (match k.cls with
       | .none => [0]
       | .slurry => [1]
       | .chem => [2]) ++
     (match k.state with
       | .disabled => [0, 0, 0, 0, 0, 0, 0]
       | .idle => [1, 0, 0, 0, 0, 0, 0]
       | .bound n h f => [2, 1] ++ put8 (PlatenId.code n) ++ [1] ++ put8 (HeadId.code h) ++ put16 f
       | .faulted _ => [3, 0, 0, 0, 0, 0, 0]) ++
     put16 k.recoveryTime ++ [if k.supplyReady then 0 else 1] ++
     (match k.state with
       | .faulted (some n) => 1 :: put16 n
       | _ => [0, 0, 0]) ++
     put8 k.wait.length ++ k.wait.map fun n => BitVec.ofNat 8 (PlatenId.code n)) ∧
   (∀ (s : State) (n : NozzleId), s.putNozzle n =
     (match s.boundLine n with
       | some l => put8 (LineId.code l + 1)
       | none => [if s.rinseValve n then 7 else 0]) ++
     [if s.rinseValve n then 1 else 0] ++
     (match s.boundLine n with
       | some l => put8 (LineId.code l + 1)
       | none => [0]) ++
     (match s.awaitedLine n with
       | some l => put8 (LineId.code l + 1)
       | none => [0]) ++
     put16 (s.base n).config.lead) ∧
   (∀ (s : State) (n : NozzleId),
     (∀ l, s.boundLine n = some l → ∃ h f, (s.line l).state = .bound n h f) ∧
     (s.boundLine n = none → ∀ l h f, (s.line l).state ≠ .bound n h f) ∧
     (∀ l, s.awaitedLine n = some l → n ∈ (s.line l).wait) ∧ (s.awaitedLine n = none → ∀ l, n ∉ (s.line l).wait)) ∧
   (∀ b : Bool, putBool b = [if b then 1 else 0])) ∧
  (∀ r : ResultRecord, (putResult r).length = 35 ∧ putResult r =
    put8 r.index ++
    (match r.outcome with
      | .completed => [0]
      | .endpoint => [1]
      | .epMiss => [2]
      | .skipped => [3]
      | .aborted => [4]
      | .lost => [5]
      | .waferLost => [6]
      | .refusedPlace => [7]
      | .refusedNoWafer => [8]) ++
    put8 (r.flags.gapExtended.toNat + 2 * r.flags.clamped.toNat + 4 * r.flags.amendLoaded.toNat +
      8 * r.flags.amendDropped.toNat + 16 * r.flags.noInsitu.toNat) ++
    put32 r.accrued ++ put32 r.overpolish ++
    (match r.capture with
      | none => List.replicate 11 0
      | some c => 1 :: put32 c.revolution.toNat ++ put16 c.position ++ put32 c.accrued) ++
    put8 r.interventions ++ put32 r.startBeat ++ put32 r.endBeat ++
    (match r.platen with
      | none => [0, 0]
      | some p => 1 :: put8 (PlatenId.code p)) ++
    (match r.line with
      | .none => [0, 0]
      | .rinse => [1, 6]
      | .line l => 1 :: put8 (LineId.code l))) ∧
  ((∀ k : Pad, putPad k =
     put32 k.padId ++
     (match k.state with
       | .unknown => [0]
       | .breakIn => [1]
       | .inService => [2]
       | .warn => [3]
       | .retired => [4]) ++
     put32 k.life ++ put32 k.warnLimit ++ put32 k.retireLimit ++ put32 k.wafers ++ put16 k.sinceExSitu ++
     put8 k.interval ++ put8 k.exSituSweeps ++ put8 k.breakInSweeps ++ put8 k.owed ++ [if k.polishMark then 1 else 0]) ∧
   (∀ k : Disk, putDisk k =
     put32 k.diskId ++
     (match k.state with
       | .unknown => [0]
       | .active => [1]
       | .spent => [2]) ++
     put32 k.used ++ put32 k.limit) ∧
   (∀ c : Conditioner,
     let mode (m : ArmMode) : Byte := match m with
       | .inSitu _ => 0
       | .exSitu => 1
     let motion (m : ArmMotion) : Byte := match m with
       | .deploying => 0
       | .sweeping => 1
     let head (m : ArmMode) : List Byte := match m with
       | .inSitu h => 1 :: put8 (HeadId.code h)
       | .exSitu => [0, 0]
     putConditioner c =
       (match c.arm with
         | .stowed => put8 0 ++ [0, 0, 0, 0]
         | .deploying m => [1, 1, mode m, 0, 0]
         | .sweeping m => [2, 1, mode m, 0, 0]
         | .stowing => [3, 0, 0, 0, 0]
         | .suspended m x => [4, 1, mode m, 1, motion x]) ++
       (match c.direction with
         | .outward => put8 0
         | .inward => put8 1) ++
       put16 c.position ++
       (match c.outer with
         | .keepOut => put8 0
         | .outer => put8 1) ++
       (match c.arm with
         | .deploying m | .sweeping m | .suspended m _ => head m
         | .stowed | .stowing => [0, 0]) ++
       put8 (if c.runHeld then 1 else 0) ++ put8 c.sweepsDone)) ∧
  (∀ r : StepRecord, putRecord r =
    (match r.kind with
      | .move _ => put8 0
      | .polish _ => put8 1
      | .dwell _ => put8 2) ++
    (match r.guard with
      | none => [0, 0, 0]
      | some g => 1 ::
          (match g.flag with
            | .ep => put8 0
            | .epmiss => put8 1
            | .padwarn => put8 2
            | .u1 => put8 3
            | .u2 => put8 4) ++
          (match g.sense with
            | .skipIfSet => put8 0
            | .skipIfClear => put8 1)) ++
    (match r.action with
      | none => [0, 0]
      | some ⟨.u1, true⟩ => [1, 0]
      | some ⟨.u1, false⟩ => [1, 1]
      | some ⟨.u2, true⟩ => [1, 2]
      | some ⟨.u2, false⟩ => [1, 3]) ++
    (match r.kind with
      | .move d => put8 (StationId.code d)
      | .dwell n => put16 n
      | .polish k =>
        (match k.clock with
          | .time => put8 0
          | .counts => put8 1
          | .revs => put8 2) ++
        put32 k.limit ++
        (match k.termination with
          | .limit => put8 0
          | .endpoint => put8 1) ++
        put8 k.settle ++ put16 k.opFixed ++ put8 k.opPercent ++ put16 k.gap ++
        (match k.line with
          | .line l => put8 (LineId.code l)
          | .rinse => put8 6
          | .none => put8 7) ++
        put16 k.flow ++ put8 k.speed ++ put16 k.gapPressure ++ put16 k.zones.z1 ++ put16 k.zones.z2 ++
        put16 k.zones.z3 ++ put16 k.zones.z4 ++ put16 k.zones.ring ++ put8 (if k.inSitu then 1 else 0))) ∧
  (platenIds.map PlatenId.code = [0, 1, 2] ∧ lineIds.map LineId.code = [0, 1, 2, 3, 4, 5] ∧
    stationIds.map StationId.code = [0, 1, 2, 3, 4])

/-! ## Running a list -/

/-- START (R27 to R33, R79, R80): the steps its guards skip leave their SKIPPED results (R23, R40) and the first other step
becomes current. A MOVE to a free station is granted and sent, a DWELL starts its timer, a POLISH away from a platen or
without a wafer is a final halt, and a list whose every step is skipped is done. A POLISH at a platen with a wafer takes the
accumulator and, bound to its line or needing none, goes by the arm into KEEPOUT_WAIT or DOWN into GAP; it waits UP for a
line that is bound or faulted, with LINE_WAIT, and halts on a DISABLED one. The four conditions are checked in the order of
R27, and the first that fails gives the refusal. -/
def Obligations.StartTakesTheFirstStep : Prop :=
  (∀ (s : State) (b : List Byte) (h : HeadId) (o : StationId) (pre rest : List StepRecord),
     s.opens .recipe → b.length = 1 → headOf (le8 b 0) = some h → (s.seq h).state = .idle → (s.seq h).claim = none →
     s.trip.tripped = false → (s.carrier h).position = .stands o → (s.seq h).steps = pre ++ rest →
     (s.seq h).steps ≠ [] → (∀ x ∈ pre, s.guardSkips h x.guard = true) →
     let done : List ResultRecord := pre.mapIdx fun i x =>
       { index := i, outcome := .skipped, flags := ⟨false, false, false, false, false⟩, accrued := 0, overpolish := 0,
         capture := none, interventions := 0, startBeat := s.beat.counter, endBeat := s.beat.counter, platen := none
         line :=
           match x.kind with
           | .polish r => r.line
           | .move _ | .dwell _ => .none }
     (rest = [] →
       ∃ t, exec (.start .recipe b) s = .next t ∧ (t.port .recipe).response = some ⟨.ok, []⟩ ∧
         t.carrier h = s.carrier h ∧ .listDone h ∈ (t.port .recipe).notices ∧
         t.seq h = { s.seq h with results := done, stack := [], lost := none, activity := none, state := .idle }) ∧
     (∀ rec more, rest = rec :: more → s.guardSkips h rec.guard = false →
       let w := Working.fresh pre.length rec o s.beat.counter false
       (∀ d, rec.kind = .move d → d ≠ o → s.closedTo d = false → (s.station d).holder = none →
         s.keptForRun d = false →
         ∃ t, exec (.start .recipe b) s = .next t ∧ (t.port .recipe).response = some ⟨.ok, []⟩ ∧
           t.seq h = { s.seq h with
             results := done, stack := [], lost := none, state := .running
             activity := some (.step { w with phase := some .inTransit }) } ∧
           t.carrier h = { s.carrier h with
             position := .inTransit o d (.moving 0 (s.carrier h).moveLimit)
             moveNumber := (s.carrier h).moveNumber + 1
             sent := (s.carrier h).sent ++ [.move d ((s.carrier h).moveNumber + 1)] } ∧
           (t.station d).holder = some (.head h)) ∧
       (∀ n, rec.kind = .dwell n →
         ∃ t, exec (.start .recipe b) s = .next t ∧ (t.port .recipe).response = some ⟨.ok, []⟩ ∧
           t.carrier h = s.carrier h ∧
           t.seq h = { s.seq h with
             results := done, stack := [], lost := none, state := .running, activity := some (.step w) }) ∧
       (∀ k, rec.kind = .polish k → (∀ p, o ≠ .platen p) ∨ (s.seq h).vacuum = false →
         ∃ t r, exec (.start .recipe b) s = .next t ∧ (t.port .recipe).response = some ⟨.ok, []⟩ ∧
           (t.seq h).results = done ++ [r] ∧ r.index = pre.length ∧ (t.seq h).activity = none ∧ t.isDown h = false ∧
           ((∀ p, o ≠ .platen p) → r.outcome = .refusedPlace ∧ r.platen = none ∧
             (t.seq h).state = .halted (.final .refusedPlace) none) ∧
           (∀ p, o = .platen p → r.outcome = .refusedNoWafer ∧ r.platen = some p ∧
             (t.seq h).state = .halted (.final .refusedNoWafer) none)) ∧
       (∀ k p, rec.kind = .polish k → o = .platen p → (s.seq h).vacuum = true → s.isDown h = false → s.IdleLinesFree →
         let v : Working := { w with
           platen := some p
           flags := { w.flags with noInsitu := k.inSitu && !decide ((s.disk p).state = .active) } }
         let taken (t : State) (x : Working) (y : HeadState) : Prop :=
           exec (.start .recipe b) s = .next t ∧ (t.port .recipe).response = some ⟨.ok, []⟩ ∧
             t.carrier h = s.carrier h ∧ (t.base p).accumulator = 0 ∧
             (t.base p).owner = some ⟨h, k.limit, k.clock⟩ ∧
             t.seq h = { s.seq h with
               results := done, stack := [], lost := none, state := y, activity := some (.step x) }
         (k.line = .none ∨ k.line = .rinse ∨ (∃ l, k.line = .line l ∧ (s.line l).state = .idle) →
           ((s.base p).config.keepOut < (s.cond p).position →
             ∃ t, taken t { v with phase := some .keepoutWait } .running ∧ t.isDown h = false ∧
               (∀ l, k.line = .line l → t.line l = { s.line l with state := .bound p h k.flow })) ∧
           ((s.cond p).position ≤ (s.base p).config.keepOut → (s.base p).stalled = false →
             (s.base p).direction = .forward →
             let long := !decide (k.line = .none) && decide (k.gap < (s.base p).config.lead)
             let n := if long then (s.base p).config.lead else k.gap
             ∃ t, taken t { v with
                 phase := some (if n = 0 then .polish else .gap)
                 gapRemaining := n
                 flags := { v.flags with gapExtended := long } } .running ∧
               (t.zone h).lift = .down (if n = 0 then .polish k.zones else .gap k.gapPressure)
                 ⟨0, !(s.zone h).inBand.allTrue, false⟩ ∧
               (∀ l, k.line = .line l → t.line l = { s.line l with state := .bound p h k.flow }))) ∧
         (∀ l, k.line = .line l →
           (∃ n x f, (s.line l).state = .bound n x f ∧ n ≠ p) ∨ (∃ x, (s.line l).state = .faulted x) →
           p ∉ (s.line l).wait →
           ∃ t, taken t { v with phase := some .acquireLine } .running ∧ t.isDown h = false ∧
             t.line l = { s.line l with wait := (s.line l).wait ++ [p] } ∧ .lineWait h ∈ (t.port .recipe).notices) ∧
         (∀ l, k.line = .line l → (s.line l).state = .disabled →
           ∃ t, taken t { v with phase := some .acquireLine } (.halted .stationUnavailable none) ∧
             t.isDown h = false ∧ t.line l = s.line l ∧ .halted h ∈ (t.port .recipe).notices)))) ∧
  (∀ (s : State) (b : List Byte) (h : HeadId), s.opens .recipe → b.length = 1 → headOf (le8 b 0) = some h →
     ((s.seq h).state ≠ .idle → exec (.start .recipe b) s = .next (s.refusal .recipe .wrongState)) ∧
     ((s.seq h).state = .idle → (s.seq h).claim ≠ none →
       exec (.start .recipe b) s = .next (s.refusal .recipe .claimed)) ∧
     ((s.seq h).state = .idle → (s.seq h).claim = none → s.trip.tripped = true →
       exec (.start .recipe b) s = .next (s.refusal .recipe .tripped)) ∧
     ((s.seq h).state = .idle → (s.seq h).claim = none → s.trip.tripped = false → (s.seq h).steps = [] →
       exec (.start .recipe b) s = .next (s.refusal .recipe .wrongState)))

/-- HOLD over a current step (R114, R115, R117 to R119): the step is saved, the intervention of the hold's class begins with
the hold as its only cause, and the step's intervention count is raised. A LIFT or a PARK lifts the head; a PARK with RINSE
free sends the move there; a RINSE leaves the lift as it is. Over an intervention of its own class the hold joins the causes
(R113); over one of a lower class with two contexts saved, the step at the bottom is discarded into the lost step record,
with CONTEXT_LOST (R116). HOLD is refused WRONG_STATE on a head that is not RUNNING, over an activity of a higher class, and,
for RINSE, over anything but a POLISH step in GAP, POLISH or OVERPOLISH. -/
def Obligations.HoldSuspendsTheStep : Prop :=
  (∀ (s : State) (b : List Byte) (h : HeadId) (w : Working), s.opens .recipe → b.length = 2 → headOf (le8 b 0) = some h →
     (s.seq h).state = .running → (s.seq h).activity = some (.step w) → (s.seq h).stack = [] → (s.seq h).lost = none →
     (le8 b 1 = 0 → s.inPolishPhase h = true →
       ∃ t, exec (.hold .recipe b) s = .next t ∧ (t.port .recipe).response = some ⟨.ok, []⟩ ∧
         t.seq h = { s.seq h with
           activity := some (.intervention .rinse [.holdRinse] none)
           stack := [⟨.step (s.collect h w).suspended.bump, (s.carrier h).halt.position.transit?⟩] } ∧
         t.isDown h = s.isDown h ∧ .intervened h ∈ (t.port .recipe).notices) ∧
     (le8 b 1 = 1 →
       ∃ t, exec (.hold .recipe b) s = .next t ∧ (t.port .recipe).response = some ⟨.ok, []⟩ ∧
         t.seq h = { s.seq h with
           activity := some (.intervention .lift [.holdLift] none)
           stack := [⟨.step (s.collect h w).suspended.bump, (s.carrier h).halt.position.transit?⟩] } ∧
         t.isDown h = false ∧ t.carrier h = (s.carrier h).halt ∧ .intervened h ∈ (t.port .recipe).notices) ∧
     (∀ o, le8 b 1 = 2 → (s.carrier h).position = .stands o → o ≠ .rinse → s.trip.tripped = false →
       (s.station .rinse).holder = none → (s.station .rinse).inService = true →
       ∃ t, exec (.hold .recipe b) s = .next t ∧ (t.port .recipe).response = some ⟨.ok, []⟩ ∧
         t.seq h = { s.seq h with
           activity := some (.intervention .park [.holdPark] (some .moving))
           stack := [⟨.step (s.collect h w).suspended.bump, none⟩] } ∧
         t.isDown h = false ∧
         (t.carrier h).position = .inTransit o .rinse (.moving 0 (s.carrier h).moveLimit) ∧
         .intervened h ∈ (t.port .recipe).notices)) ∧
  (∀ (s : State) (b : List Byte) (h : HeadId), s.opens .recipe → b.length = 2 → headOf (le8 b 0) = some h →
     (s.seq h).state = .running →
     (∀ k cs x c, (s.seq h).activity = some (.intervention k cs x) → holdOf (le8 b 1) = some c → c ≠ .holdRinse →
       c.cls = k → s.IdleLinesFree →
       exec (.hold .recipe b) s = .next ((s.modSeq h fun q =>
         { q with activity := some (.intervention k (if c ∈ cs then cs else cs ++ [c]) x) }).accepted .recipe)) ∧
     (∀ cs x k ks w tr tw, le8 b 1 = 2 → (s.seq h).activity = some (.intervention .lift cs x) →
       (s.seq h).stack = [⟨.intervention k ks, tr⟩, ⟨.step w, tw⟩] →
       ∃ t y, exec (.hold .recipe b) s = .next t ∧ (t.port .recipe).response = some ⟨.ok, []⟩ ∧
         t.seq h = { s.seq h with
           activity := some (.intervention .park [.holdPark] (some y))
           stack := [⟨.intervention .lift cs, (s.carrier h).halt.position.transit?⟩, ⟨.intervention k ks, tr⟩]
           lost := some w.lostBy } ∧
         t.isDown h = false ∧ .contextLost h ∈ (t.port .recipe).notices ∧
         .intervened h ∈ (t.port .recipe).notices)) ∧
  (∀ (s : State) (b : List Byte) (h : HeadId) (c : Cause), s.opens .recipe → b.length = 2 → headOf (le8 b 0) = some h →
     holdOf (le8 b 1) = some c →
     ((s.seq h).state ≠ .running ∨ c.cls.rank < s.activityRank h ∨ (c = .holdRinse ∧ s.inPolishPhase h = false)) →
     exec (.hold .recipe b) s = .next (s.refusal .recipe .wrongState))

/-- RESUME of a RUNNING head (R120, R122, R124): an intervention whose causes RESUME clears ends, and the context on top of
the stack becomes current, an intervention with its causes or a DWELL that runs on. Where no context with work is left the
list ends LOST, with the result of the lost step (R116, R122). A POLISH step that resumes at its platen on a FAULTED line is
saved again under a RINSE for that fault (R79, R81, R123). An intervention held by LINE_FAULT causes alone stays; over a step
or a TRIP the request is refused. -/
def Obligations.ResumeUnwindsTheStack : Prop :=
  ∀ (s : State) (b : List Byte) (h : HeadId), s.opens .recipe → b.length = 1 → headOf (le8 b 0) = some h →
    (s.seq h).state = .running →
    (∀ k cs p k' x xs tr rest, k ≠ .trip → (s.seq h).activity = some (.intervention k cs p) →
      (∀ c ∈ cs, c.clearedByResume = true) → (s.seq h).stack = ⟨.intervention k' (x :: xs), tr⟩ :: rest → k' ≠ .park →
      ∃ t, exec (.resume .recipe b) s = .next t ∧ (t.port .recipe).response = some ⟨.ok, []⟩ ∧
        t.carrier h = s.carrier h ∧
        t.seq h = { s.seq h with activity := some (.intervention k' (x :: xs) none), stack := rest }) ∧
    (∀ k cs p w n tr, k ≠ .trip → (s.seq h).activity = some (.intervention k cs p) →
      (∀ c ∈ cs, c.clearedByResume = true) → (s.seq h).stack = [⟨.step w, tr⟩] → w.record.kind = .dwell n →
      (s.carrier h).position = .stands w.station →
      ∃ t, exec (.resume .recipe b) s = .next t ∧ (t.port .recipe).response = some ⟨.ok, []⟩ ∧
        t.carrier h = s.carrier h ∧ t.isDown h = false ∧
        t.seq h = { s.seq h with
          activity := some (.step { w with phase := some .dwell, resume := none, resuming := true, keptLine := false })
          stack := [] }) ∧
    (∀ k cs x l, k ≠ .trip → (s.seq h).activity = some (.intervention k cs x) → (∀ c ∈ cs, c.clearedByResume = true) →
      (∀ c ∈ (s.seq h).stack, ∃ j, c.saved = .intervention j []) → (s.seq h).lost = some l →
      ∃ t, exec (.resume .recipe b) s = .next t ∧ (t.port .recipe).response = some ⟨.ok, []⟩ ∧ t.isDown h = false ∧
        t.seq h = { s.seq h with
          activity := none, stack := [], lost := none
          results := (s.seq h).results ++ [
            { index := l.index, outcome := .lost, flags := l.flags, accrued := l.accrued, overpolish := l.overpolish,
              capture := none, interventions := l.interventions, startBeat := l.startBeat,
              endBeat := s.beat.counter, platen := l.platen, line := l.line }]
          state :=
            match (s.carrier h).position with
            | .inTransit _ _ _ => .closing (.halted .lost)
            | _ => .halted (.final .lost) none } ∧
        (∀ d, (s.carrier h).position = .stands d → .halted h ∈ (t.port .recipe).notices)) ∧
    (∀ k cs x w r p l f tr, k ≠ .trip → (s.seq h).activity = some (.intervention k cs x) →
      (∀ c ∈ cs, c.clearedByResume = true) → (s.seq h).stack = [⟨.step w, tr⟩] → (s.seq h).lost = none →
      w.record.kind = .polish r → r.line = .line l → (s.line l).state = .faulted f → w.platen = some p →
      w.station = .platen p → (s.carrier h).position = .stands (.platen p) →
      (s.station (.platen p)).holder = some (.head h) → (s.seq h).vacuum = true →
      s.ownedPlaten h = none → (s.base p).amend = ⟨none, none, none⟩ →
      ∃ t, exec (.resume .recipe b) s = .next t ∧ (t.port .recipe).response = some ⟨.ok, []⟩ ∧ t.isDown h = false ∧
        t.seq h = { s.seq h with
          activity := some (.intervention .rinse [.lineFault l] none)
          stack := [⟨.step { w with
            phase := some .acquireLine
            resume := some .acquireLine
            resuming := true
            keptLine := false
            interventions := satSucc 255 w.interventions
            flags := { w.flags with
              noInsitu := w.flags.noInsitu || (r.inSitu && !decide ((s.disk p).state = .active)) } }, none⟩] } ∧
        p ∉ (t.line l).wait ∧ .intervened h ∈ (t.port .recipe).notices) ∧
    (∀ k cs p, k ≠ .trip → (s.seq h).activity = some (.intervention k cs p) → cs ≠ [] →
      (∀ c ∈ cs, c.clearedByResume = false) → exec (.resume .recipe b) s = .next (s.accepted .recipe)) ∧
    ((∃ w, (s.seq h).activity = some (.step w)) ∨ (∃ cs p, (s.seq h).activity = some (.intervention .trip cs p)) →
      exec (.resume .recipe b) s = .next (s.refusal .recipe .wrongState))

/-- RESUME of a HALTED head (R26, R126): the request of a MOVE step is made again, a halted move is sent again and the head
is RUNNING in the activity it had or CLOSING as before; a final halt refuses WRONG_STATE, a tripped module TRIPPED. -/
def Obligations.ResumeRetriesTheHalt : Prop :=
  ∀ (s : State) (b : List Byte) (h : HeadId), s.opens .recipe → b.length = 1 → headOf (le8 b 0) = some h →
    (∀ r w d o, r = .cycle ∨ r = .stationUnavailable → (s.seq h).state = .halted r none → s.trip.tripped = false →
      (s.seq h).activity = some (.step w) → w.record.kind = .move d → w.station = d → w.phase = none →
      (s.carrier h).position = .stands o → o ≠ d → s.closedTo d = false → (s.station d).holder = none →
      s.keptForRun d = false →
      ∃ t, exec (.resume .recipe b) s = .next t ∧ (t.port .recipe).response = some ⟨.ok, []⟩ ∧
        t.seq h = { s.seq h with state := .running, activity := some (.step { w with phase := some .inTransit }) } ∧
        (t.carrier h).position = .inTransit o d (.moving 0 (s.carrier h).moveLimit) ∧
        (t.station d).holder = some (.head h)) ∧
    (∀ w o d, (s.seq h).state = .halted .moveFault none → s.trip.tripped = false →
      (s.seq h).activity = some (.step w) → ((∃ r, w.record.kind = .polish r) → (s.seq h).vacuum = true) →
      (s.carrier h).position = .inTransit o d .halted →
      ∃ t, exec (.resume .recipe b) s = .next t ∧ (t.port .recipe).response = some ⟨.ok, []⟩ ∧
        t.seq h = { s.seq h with state := .running } ∧
        t.carrier h = { s.carrier h with
          position := .inTransit o d (.moving 0 (s.carrier h).moveLimit)
          moveNumber := (s.carrier h).moveNumber + 1
          sent := (s.carrier h).sent ++ [.move d ((s.carrier h).moveNumber + 1)] }) ∧
    (∀ e o d, (s.seq h).state = .halted .moveFault (some e) → s.trip.tripped = false →
      (s.carrier h).position = .inTransit o d .halted →
      ∃ t, exec (.resume .recipe b) s = .next t ∧ (t.port .recipe).response = some ⟨.ok, []⟩ ∧
        t.seq h = { s.seq h with state := .closing e } ∧
        (t.carrier h).position = .inTransit o d (.moving 0 (s.carrier h).moveLimit)) ∧
    (∀ r e, (s.seq h).state = .halted (.final r) e →
      exec (.resume .recipe b) s = .next (s.refusal .recipe .wrongState)) ∧
    (∀ r e, (s.seq h).state = .halted r e → (∀ x, r ≠ .final x) → s.trip.tripped = true →
      exec (.resume .recipe b) s = .next (s.refusal .recipe .tripped)) ∧
    ((s.seq h).state = .unplaced ∨ (s.seq h).state = .idle ∨ (∃ e, (s.seq h).state = .closing e) →
      exec (.resume .recipe b) s = .next (s.refusal .recipe .wrongState))

/-- ABORT (R42): the result of the step is written with outcome ABORTED if it has none yet, the stack is emptied, the head is
UP and goes IDLE where it stands with LIST_DONE, and its READY notice at LOAD, or CLOSING(IDLE) in transit with its move
going forward; the list, the flags, the claim and the vacuum sense are kept. Its line goes to the oldest waiting nozzle (R83,
State.HandedOn). -/
def Obligations.AbortEndsTheList : Prop :=
  ∀ (s : State) (b : List Byte) (h : HeadId), s.opens .recipe → b.length = 1 → headOf (le8 b 0) = some h →
    ((s.seq h).state.abortable = true →
      (∀ d, (s.carrier h).position = .stands d →
        ∃ t, exec (.abort .recipe b) s = .next t ∧ (t.port .recipe).response = some ⟨.ok, []⟩ ∧
          t.seq h = { s.seq h with
            results := (s.seq h).results ++ (s.stepResult h .aborted).toList
            activity := none, stack := [], lost := none, state := .idle } ∧
          t.carrier h = s.carrier h ∧ t.isDown h = false ∧ .listDone h ∈ (t.port .recipe).notices ∧
          (d = .load → (if (s.seq h).vacuum then .readyUnload h else .readyLoad h) ∈ (t.port .transfer).notices)) ∧
      (∀ p l f, s.headOn p = some h → (s.carrier h).position = .stands (.platen p) →
        (s.line l).state = .bound p h f → p ∉ (s.line l).wait →
        (∀ k m j, (s.line k).state = .bound m h j → k = l) → s.trip.tripped = false → s.IdleLinesFree →
        ∃ t, exec (.abort .recipe b) s = .next t ∧ s.HandedOn t l) ∧
      (∀ o d st, (s.carrier h).position = .inTransit o d st →
        ∃ t, exec (.abort .recipe b) s = .next t ∧ (t.port .recipe).response = some ⟨.ok, []⟩ ∧
          t.seq h = { s.seq h with
            results := (s.seq h).results ++ (s.stepResult h .aborted).toList
            activity := none, stack := [], lost := none, state := .closing .idle } ∧
          t.isDown h = false ∧
          ((∃ n l, st = .moving n l) → t.carrier h = s.carrier h) ∧
          ((∀ n l, st ≠ .moving n l) → s.trip.tripped = true →
            (t.carrier h).position = .inTransit o d .deferred ∧
            (t.carrier h).moveNumber = (s.carrier h).moveNumber) ∧
          ((∀ n l, st ≠ .moving n l) → s.trip.tripped = false →
            (t.carrier h).position = .inTransit o d (.moving 0 (s.carrier h).moveLimit) ∧
            (t.carrier h).moveNumber = (s.carrier h).moveNumber + 1))) ∧
    ((s.seq h).state.abortable = false →
      exec (.abort .recipe b) s = .next (s.refusal .recipe .wrongState))

/-- AMEND (R61): the value is checked against its field's range first, then it is written into the buffer entry of its field
on the platen of the step, for a head whose current activity is a POLISH step in GAP, POLISH or OVERPOLISH. At the next
revolution boundary (R62), whether a count or an index pulse makes it (R53), the pending entries load together: limit and
overpolish values are the new ones, the target of a confirmed step is recomputed, AMEND_LOADED is set and the buffer emptied;
then the step is checked once, and in POLISH or OVERPOLISH it may end at the load. That a FORWARD count makes its boundary
before it shortens the gap or accrues a unit is log entry 7. -/
def Obligations.AmendWaitsForTheBoundary : Prop :=
  (∀ (s : State) (b : List Byte) (h : HeadId), s.opens .recipe → b.length = 6 → headOf (le8 b 0) = some h →
     (∀ p, s.inPolishPhase h = true → (s.carrier h).position = .stands (.platen p) →
       (le8 b 1 = 0 → 1 ≤ le32 b 2 → le32 b 2 ≤ 4000000 →
         exec (.amend .recipe b) s = .next ((s.modBase p fun k =>
           { k with amend := { k.amend with limit := some (le32 b 2) } }).accepted .recipe)) ∧
       (le8 b 1 = 1 → le32 b 2 ≤ 65535 →
         exec (.amend .recipe b) s = .next ((s.modBase p fun k =>
           { k with amend := { k.amend with opFixed := some (le32 b 2) } }).accepted .recipe)) ∧
       (le8 b 1 = 2 → le32 b 2 ≤ 100 →
         exec (.amend .recipe b) s = .next ((s.modBase p fun k =>
           { k with amend := { k.amend with opPercent := some (le32 b 2) } }).accepted .recipe))) ∧
     ((le8 b 1 = 0 ∧ (le32 b 2 = 0 ∨ 4000000 < le32 b 2)) ∨ (le8 b 1 = 1 ∧ 65535 < le32 b 2) ∨
         (le8 b 1 = 2 ∧ 100 < le32 b 2) ∨ 3 ≤ le8 b 1 →
       exec (.amend .recipe b) s = .next (s.refusal .recipe .outOfRange)) ∧
     (s.inPolishPhase h = false → (le8 b 1 = 0 → 1 ≤ le32 b 2 ∧ le32 b 2 ≤ 4000000) →
         (le8 b 1 = 1 → le32 b 2 ≤ 65535) → (le8 b 1 = 2 → le32 b 2 ≤ 100) → le8 b 1 ≤ 2 →
       exec (.amend .recipe b) s = .next (s.refusal .recipe .wrongState))) ∧
  (∀ (s : State) (c : Instr) (h : HeadId) (p : PlatenId) (w : Working) (r : PolishRecord) (limit : Nat) (clk : StepClock),
    c.atBoundary s p → (s.base p).amend ≠ ⟨none, none, none⟩ → (s.base p).owner = some ⟨h, limit, clk⟩ →
    s.ownedPlaten h = some p → s.headOn p = some h → s.polishing h = some (w, r, p) →
    let amend := (s.base p).amend
    let newLimit := amend.limit.getD limit
    let fixed := amend.opFixed.getD w.opFixed
    let percent := amend.opPercent.getD w.opPercent
    let loaded : Working := { w with
      opFixed := fixed
      opPercent := percent
      confirmed := w.confirmed.map fun k => ⟨k.capture, fixed + percent * k.capture.accrued / 100⟩
      flags := { w.flags with amendLoaded := true } }
    (w.phase = some .gap →
      ∃ t v, exec c s = .next t ∧ (t.base p).amend = ⟨none, none, none⟩ ∧
        (t.base p).owner = some ⟨h, newLimit, clk⟩ ∧ (t.base p).accumulator = (s.base p).accumulator ∧
        t.seq h = { s.seq h with activity := some (.step v) } ∧ v.opFixed = fixed ∧ v.opPercent = percent ∧
        v.confirmed = loaded.confirmed ∧ v.flags = loaded.flags) ∧
    (w.phase = some .polish → (s.base p).accumulator + 1 < newLimit →
      ∃ t, exec c s = .next t ∧ (t.base p).amend = ⟨none, none, none⟩ ∧
        (t.base p).owner = some ⟨h, newLimit, clk⟩ ∧
        t.seq h = { s.seq h with activity := some (.step loaded) }) ∧
    (w.phase = some .polish → newLimit ≤ (s.base p).accumulator →
      ∃ t x, exec c s = .next t ∧ (s.seq h).results ++ [x] <+: (t.seq h).results ∧ x.index = w.index ∧
        x.accrued = (s.base p).accumulator ∧ x.flags = loaded.flags ∧
        x.outcome = (match r.termination with
          | .limit => .completed
          | .endpoint => .epMiss)) ∧
    (∀ k, w.phase = some .overpolish → w.confirmed = some k →
      let target := fixed + percent * k.capture.accrued / 100
      (target ≤ (s.base p).accumulator - k.capture.accrued →
        ∃ t x, exec c s = .next t ∧ (s.seq h).results ++ [x] <+: (t.seq h).results ∧ x.index = w.index ∧
          x.outcome = .endpoint ∧ x.flags = loaded.flags ∧ x.capture = some k.capture) ∧
      ((s.base p).accumulator - k.capture.accrued < target → newLimit ≤ (s.base p).accumulator →
        ∃ t x, exec c s = .next t ∧ (s.seq h).results ++ [x] <+: (t.seq h).results ∧ x.index = w.index ∧
          x.outcome = .endpoint ∧ x.flags = { loaded.flags with clamped := true } ∧ x.capture = some k.capture) ∧
      ((s.base p).accumulator + 1 - k.capture.accrued < target → (s.base p).accumulator + 1 < newLimit →
        ∃ t, exec c s = .next t ∧ (t.base p).amend = ⟨none, none, none⟩ ∧
          (t.base p).owner = some ⟨h, newLimit, clk⟩ ∧
          t.seq h = { s.seq h with activity := some (.step loaded) })))

/-! ## Placing, configuration and records -/

/-- HEAD_CONFIG (R74) and PLATEN_CONFIG (R64): ranges first, then the state; all values are written at once. The fields of a
PLATEN_CONFIG body and the ranges and relations of R64 are spelled out (the fold as the number 1 or 4: log entry 9). A change
of CPR sets the position to 0 and keeps the revolution counter; a STOWED arm above the new S is drawn back (R137) at the new
arm speed (R136). -/
def Obligations.HeadAndPlatenConfig : Prop :=
  (∀ (s : State) (b : List Byte) (h : HeadId), s.opens .recipe → b.length = 7 → headOf (le8 b 0) = some h →
    (le16 b 1 ≤ 700 → 100 ≤ le16 b 3 → le16 b 3 ≤ 10000 → 1000 ≤ le16 b 5 → le16 b 5 ≤ 60000 →
      ((s.seq h).state.configOpen = true →
        exec (.headConfig .recipe b) s = .next (((s.modZone h fun z =>
          { z with rinsePressure := le16 b 1, bandTimeout := le16 b 3 }).modCarrier h fun c =>
          { c with moveLimit := le16 b 5 }).accepted .recipe)) ∧
      ((s.seq h).state = .running ∨ (∃ e, (s.seq h).state = .closing e) →
        exec (.headConfig .recipe b) s = .next (s.refusal .recipe .wrongState))) ∧
    (700 < le16 b 1 ∨ le16 b 3 < 100 ∨ 10000 < le16 b 3 ∨ le16 b 5 < 1000 ∨ 60000 < le16 b 5 →
      exec (.headConfig .recipe b) s = .next (s.refusal .recipe .outOfRange))) ∧
  (∀ (s : State) (b : List Byte) (p : PlatenId), s.opens .recipe → b.length = 23 → platenOfCode (le8 b 0) = some p →
    ((platenConfigOf b).valid = true → (s.station (.platen p)).inService = false →
      exec (.platenConfig .recipe b) s = .next (((s.modBase p fun k =>
        { k with
          config := platenConfigOf b
          position := if (platenConfigOf b).cpr = k.config.cpr then k.position else 0 }).modCond p fun c =>
        if c.arm = .stowed ∧ (platenConfigOf b).stow < c.position then
          { c with arm := .stowing, speedOut := (platenConfigOf b).armSpeed, forceOut := 0 }
        else c).accepted .recipe)) ∧
    ((platenConfigOf b).valid = true → (s.station (.platen p)).inService = true →
      exec (.platenConfig .recipe b) s = .next (s.refusal .recipe .wrongState)) ∧
    ((platenConfigOf b).valid = false →
      exec (.platenConfig .recipe b) s = .next (s.refusal .recipe .outOfRange))) ∧
  (∀ b : List Byte,
    platenConfigOf b =
      { lines := le16 b 1, fold := le8 b 3, tolerance := le8 b 4, stallWindow := le16 b 5, lead := le16 b 7,
        confirmNumber := le8 b 9, conditioningSpeed := le8 b 10, stow := le16 b 11, inner := le16 b 13,
        keepOut := le16 b 15, outer := le16 b 17, armSpeed := le16 b 19, downforce := le16 b 21 } ∧
    ((platenConfigOf b).valid = true ↔
      100 ≤ le16 b 1 ∧ le16 b 1 ≤ 4000 ∧ (le8 b 3 = 1 ∨ le8 b 3 = 4) ∧ 2 * le8 b 4 < le16 b 1 * le8 b 3 ∧
        50 ≤ le16 b 5 ∧ le16 b 5 ≤ 5000 ∧ le16 b 7 < le16 b 1 * le8 b 3 ∧ 1 ≤ le8 b 9 ∧ le8 b 9 ≤ 7 ∧
        10 ≤ le8 b 10 ∧ le8 b 10 ≤ 150 ∧ le16 b 11 < le16 b 13 ∧ le16 b 13 < le16 b 15 ∧ le16 b 15 ≤ le16 b 17 ∧
        100 ≤ le16 b 19 ∧ le16 b 19 ≤ 20000 ∧ le16 b 21 ≤ 400))

/-- LINE_CONFIG (R94), the table of an accepted request by the state of the line, and its refusals. -/
def Obligations.LineConfig : Prop :=
  ∀ (s : State) (b : List Byte) (l : LineId) (c : LineClass), s.opens .recipe → b.length = 4 →
    lineOf (le8 b 0) = some l → lineClassOf (le8 b 1) = some c →
    (le16 b 2 ≤ 60000 → (s.line l).wait = [] →
      ((s.line l).state = .disabled → c = .none →
        exec (.lineConfig .recipe b) s = .next ((s.modLine l fun k =>
          { k with cls := .none, recoveryTime := le16 b 2 }).accepted .recipe)) ∧
      ((s.line l).state = .disabled → c ≠ .none → (s.line l).supplyReady = true →
        exec (.lineConfig .recipe b) s = .next ((s.modLine l fun k =>
          { k with cls := c, recoveryTime := le16 b 2, state := .idle }).accepted .recipe)) ∧
      ((s.line l).state = .disabled → c ≠ .none → (s.line l).supplyReady = false →
        exec (.lineConfig .recipe b) s = .next (((s.modLine l fun k =>
          { k with cls := c, recoveryTime := le16 b 2, state := .faulted none }).raise .recipe (.lineFault l)).accepted
          .recipe)) ∧
      ((s.line l).state = .idle → c = .none →
        exec (.lineConfig .recipe b) s = .next ((s.modLine l fun k =>
          { k with cls := .none, recoveryTime := le16 b 2, state := .disabled }).accepted .recipe)) ∧
      ((s.line l).state = .idle ∨ (∃ t, (s.line l).state = .faulted t) → c ≠ .none →
        exec (.lineConfig .recipe b) s = .next ((s.modLine l fun k =>
          { k with cls := c, recoveryTime := le16 b 2 }).accepted .recipe)) ∧
      ((∃ t, (s.line l).state = .faulted t) → c = .none →
        ∃ t, exec (.lineConfig .recipe b) s = .next t ∧ (t.port .recipe).response = some ⟨.ok, []⟩ ∧
          t.line l = { s.line l with cls := .none, recoveryTime := le16 b 2, state := .disabled, wait := [] })) ∧
    (le16 b 2 ≤ 60000 → (∃ n h f, (s.line l).state = .bound n h f) ∨ (s.line l).wait ≠ [] →
      exec (.lineConfig .recipe b) s = .next (s.refusal .recipe .busy)) ∧
    (60000 < le16 b 2 → exec (.lineConfig .recipe b) s = .next (s.refusal .recipe .outOfRange))

/-- MODULE_CONFIG (R129, R180): the three values are written at once; a different period restarts the beat interval; a sense
under which the input stands at the trip level trips a module that is CLEAR. That only a different claim limit lets a
stopped claim timer run again is the model's reading (log entry 12). -/
def Obligations.ModuleConfig : Prop :=
  ∀ (s : State) (b : List Byte) (x : InterlockSense) (p : BeatPeriod), s.opens .recipe → b.length = 4 →
    senseOf (le8 b 0) = some x → periodOf (le8 b 1) = some p →
    (1 ≤ le16 b 2 → s.trip.tripped = true ∨ x.level ≠ s.trip.input →
      exec (.moduleConfig .recipe b) s = .next
        (State.accepted { s with
            seqs := if le16 b 2 = s.beat.claimLimit then s.seqs else s.seqs.map fun q =>
              { q with claim := q.claim.map fun c => { c with stopped := false } }
            beat := { s.beat with
              period := p
              interval := if p = s.beat.period then s.beat.interval else 0
              claimLimit := le16 b 2 }
            trip := { s.trip with sense := x } } .recipe)) ∧
    (1 ≤ le16 b 2 → s.trip.tripped = false → x.level = s.trip.input →
      ∃ t, exec (.moduleConfig .recipe b) s = .next t ∧ (t.port .recipe).response = some ⟨.ok, []⟩ ∧
        t.trip = { s.trip with sense := x, tripped := true } ∧ t.beat.period = p ∧ t.beat.claimLimit = le16 b 2 ∧
        .tripped ∈ (t.port .recipe).notices ∧ .tripped ∈ (t.port .transfer).notices) ∧
    (le16 b 2 = 0 → exec (.moduleConfig .recipe b) s = .next (s.refusal .recipe .outOfRange))

/-- SERVICE_SET (R16): LOAD and RINSE are out of range; OUT needs a free station without waiters; the same state changes
nothing; IN lets the conditioner claim a free station whose pad owes a run (R7, R145, R146). -/
def Obligations.ServiceSet : Prop :=
  ∀ (s : State) (b : List Byte), s.opens .recipe → b.length = 2 → le8 b 1 ≤ 1 →
    (le8 b 0 = 0 ∨ 4 ≤ le8 b 0 → exec (.serviceSet .recipe b) s = .next (s.refusal .recipe .outOfRange)) ∧
    (∀ p, stationOfCode (le8 b 0) = some (.platen p) →
      ((s.station (.platen p)).inService = decide (le8 b 1 = 0) →
        exec (.serviceSet .recipe b) s = .next (s.accepted .recipe)) ∧
      (le8 b 1 = 1 → (s.station (.platen p)).inService = true → (s.station (.platen p)).holder = none →
        (s.station (.platen p)).wait = [] →
        exec (.serviceSet .recipe b) s =
          .next ((s.modStation (.platen p) fun k => { k with inService := false }).accepted .recipe)) ∧
      (le8 b 1 = 1 → (s.station (.platen p)).inService = true →
        (s.station (.platen p)).holder ≠ none ∨ (s.station (.platen p)).wait ≠ [] →
        exec (.serviceSet .recipe b) s = .next (s.refusal .recipe .busy)) ∧
      (le8 b 1 = 0 → (s.station (.platen p)).inService = false →
        (s.pad p).owed = 0 ∨ (s.disk p).state ≠ .active ∨ s.trip.tripped = true ∨
          (s.station (.platen p)).holder ≠ none →
        exec (.serviceSet .recipe b) s =
          .next ((s.modStation (.platen p) fun k => { k with inService := true }).accepted .recipe)) ∧
      (le8 b 1 = 0 → (s.station (.platen p)).inService = false → 0 < (s.pad p).owed → (s.disk p).state = .active →
        s.trip.tripped = false → (s.cond p).runHeld = false → (s.cond p).arm = .stowed →
        (s.station (.platen p)).holder = none →
        ∃ t, exec (.serviceSet .recipe b) s = .next t ∧ (t.port .recipe).response = some ⟨.ok, []⟩ ∧
          t.station (.platen p) =
            { s.station (.platen p) with inService := true, holder := some .conditioner } ∧
          (t.cond p).arm = .deploying .exSitu ∧ (t.cond p).runHeld = true ∧ (t.cond p).sweepsDone = 0 ∧
          (t.base p).speed = (s.base p).config.conditioningSpeed))

/-- PAD_INSTALL (R158), PAD_RESTORE (R159) and DISK_INSTALL (R160): form checks first, then the platen must be OUT of
service; the record named is replaced and no other. -/
def Obligations.PadAndDiskRecords : Prop :=
  ∀ (s : State) (b : List Byte) (p : PlatenId), s.opens .recipe → platenOfCode (le8 b 0) = some p →
    (b.length = 16 →
      (1 ≤ le32 b 5 → le32 b 5 < le32 b 9 → 1 ≤ le8 b 14 →
        ((s.station (.platen p)).inService = false →
          exec (.padInstall .recipe b) s = .next ((s.setPad p
            { padId := le32 b 1, state := if 0 < le8 b 15 then .breakIn else .inService, life := 0,
              warnLimit := le32 b 5, retireLimit := le32 b 9, wafers := 0, sinceExSitu := 0, interval := le8 b 13,
              exSituSweeps := le8 b 14, breakInSweeps := le8 b 15, owed := le8 b 15,
              polishMark := false }).accepted .recipe)) ∧
        ((s.station (.platen p)).inService = true →
          exec (.padInstall .recipe b) s = .next (s.refusal .recipe .wrongState))) ∧
      (le32 b 5 = 0 ∨ le32 b 9 ≤ le32 b 5 ∨ le8 b 14 = 0 →
        exec (.padInstall .recipe b) s = .next (s.refusal .recipe .outOfRange))) ∧
    (b.length = 28 →
      (∀ g, padStateOf (le8 b 5) = some g → 1 ≤ le32 b 10 → le32 b 10 < le32 b 14 → 1 ≤ le8 b 25 →
        (g = .breakIn → 1 ≤ le8 b 27) →
        ((s.station (.platen p)).inService = false →
          exec (.padRestore .recipe b) s = .next ((s.setPad p
            { padId := le32 b 1
              state :=
                if le32 b 14 ≤ le32 b 6 then .retired
                else if le32 b 10 ≤ le32 b 6 ∧ g = .inService then .warn
                else g
              life := le32 b 6, warnLimit := le32 b 10, retireLimit := le32 b 14, wafers := le32 b 18,
              sinceExSitu := le16 b 22, interval := le8 b 24, exSituSweeps := le8 b 25, breakInSweeps := le8 b 26,
              owed := le8 b 27, polishMark := false }).accepted .recipe)) ∧
        ((s.station (.platen p)).inService = true →
          exec (.padRestore .recipe b) s = .next (s.refusal .recipe .wrongState))) ∧
      (le8 b 5 = 0 ∨ 5 ≤ le8 b 5 ∨ le32 b 10 = 0 ∨ le32 b 14 ≤ le32 b 10 ∨ le8 b 25 = 0 ∨
          (le8 b 5 = 1 ∧ le8 b 27 = 0) →
        exec (.padRestore .recipe b) s = .next (s.refusal .recipe .outOfRange))) ∧
    (b.length = 9 →
      (1 ≤ le32 b 5 → le32 b 5 ≤ 4000000 →
        ((s.station (.platen p)).inService = false →
          exec (.diskInstall .recipe b) s =
            .next ((s.setDisk p ⟨le32 b 1, .active, 0, le32 b 5⟩).accepted .recipe)) ∧
        ((s.station (.platen p)).inService = true →
          exec (.diskInstall .recipe b) s = .next (s.refusal .recipe .wrongState))) ∧
      (le32 b 5 = 0 ∨ 4000000 < le32 b 5 →
        exec (.diskInstall .recipe b) s = .next (s.refusal .recipe .outOfRange)))

/-- CONDITION_NOW (R161): the owed sweeps become the larger of their value and the count given; on a free platen IN service
with an ACTIVE disk and no trip the conditioner takes the station at once and its arm deploys (R145, R146). -/
def Obligations.ConditionNow : Prop :=
  ∀ (s : State) (b : List Byte) (p : PlatenId), s.opens .recipe → b.length = 2 → platenOfCode (le8 b 0) = some p →
    (1 ≤ le8 b 1 → (s.pad p).state ≠ .unknown →
      ((s.station (.platen p)).holder ≠ none ∨ (s.station (.platen p)).inService = false ∨ (s.disk p).state ≠ .active ∨
          s.trip.tripped = true →
        exec (.conditionNow .recipe b) s =
          .next ((s.modPad p fun k => { k with owed := max k.owed (le8 b 1) }).accepted .recipe)) ∧
      ((s.station (.platen p)).holder = none → (s.station (.platen p)).inService = true →
        (s.disk p).state = .active → s.trip.tripped = false → (s.cond p).runHeld = false → (s.cond p).arm = .stowed →
        ∃ t, exec (.conditionNow .recipe b) s = .next t ∧ (t.port .recipe).response = some ⟨.ok, []⟩ ∧
          t.pad p = { s.pad p with owed := max (s.pad p).owed (le8 b 1) } ∧
          t.station (.platen p) = { s.station (.platen p) with holder := some .conditioner } ∧
          (t.cond p).arm = .deploying .exSitu ∧ (t.cond p).runHeld = true ∧ (t.cond p).sweepsDone = 0 ∧
          (t.base p).speed = (s.base p).config.conditioningSpeed)) ∧
    (1 ≤ le8 b 1 → (s.pad p).state = .unknown →
      exec (.conditionNow .recipe b) s = .next (s.refusal .recipe .wrongState)) ∧
    (le8 b 1 = 0 → exec (.conditionNow .recipe b) s = .next (s.refusal .recipe .outOfRange))

/-! ## Notices and alert lines -/

/-- NOTICE_READ (R170): a count byte and one pair per pending notice; the pairs of a canonical set ascend by kind code and,
within a kind, by object code. Nothing changes but the response; the longest body, the Recipe Port's full set, has 103
bytes. -/
def Obligations.NoticeRead : Prop :=
  ∀ (s : State) (q : Port), s.opens q →
    exec (.noticeRead q []) s = .next (s.respond q .ok (put8 (s.port q).notices.length ++
      ((s.port q).notices.map fun n => put8 ((n.kind q).getD 0) ++ put8 n.object).flatten)) ∧
    ((s.port q).canonical q →
      ((s.port q).notices.map fun n => ((n.kind q).getD 0, n.object)).Pairwise
        (fun a b => a.1 < b.1 ∨ (a.1 = b.1 ∧ a.2 < b.2)) ∧ ((s.port q).noticeRead q).length ≤ 103) ∧
    (∀ u : PortUnit, u.notices = catalogue .recipe → (u.noticeRead .recipe).length = 103)

/-- NOTICE_ACK (R171): the pairs named leave the pending set; a pair that names no notice of the port refuses the whole
request. (Its length check is in PortsAndLengthsAreChecked.) NOTICE_MASK replaces the mask whole or is refused OUT_OF_RANGE,
and the alert line of a port is asserted exactly while a notice of a kind in the mask is pending (R172). -/
def Obligations.NoticeAckAndMask : Prop :=
  ((∀ (s : State) (q : Port) (ns : List Notice), s.opens q → ns.length ≤ 30 → (∀ n ∈ ns, n ∈ catalogue q) →
     exec (.noticeAck q (ns.map (putNotice q)).flatten) s =
       .next ((s.modPort q fun u => { u with notices := u.notices.filter fun n => !ns.contains n }).respond q .ok [])) ∧
   (∀ (s : State) (q : Port) (front back : List Byte) (k o : Byte), s.opens q → front.length % 2 = 0 →
     (front ++ k :: o :: back).length ≤ 60 → (front ++ k :: o :: back).length % 2 = 0 →
     (∀ n ∈ catalogue q, ¬(n.kind q = some k.toNat ∧ n.object = o.toNat)) →
     exec (.noticeAck q (front ++ k :: o :: back)) s = .next (s.refusal q .outOfRange))) ∧
  ((∀ (s : State) (q : Port) (b : List Byte), s.opens q → b.length = 2 →
     (le16 b 0 < 2 ^ kindCount q →
       exec (.noticeMask q b) s =
         .next ((s.modPort q fun u => { u with mask := BitVec.ofNat 16 (le16 b 0) }).respond q .ok [])) ∧
     (2 ^ kindCount q ≤ le16 b 0 → exec (.noticeMask q b) s = .next (s.refusal q .outOfRange))) ∧
   (∀ (s : State) (q : Port),
     s.alertOut q = true ↔ ∃ n ∈ (s.port q).notices, ∃ k, n.kind q = some k ∧ (s.port q).mask.getLsbD k = true))

/-! ## Windows -/

/-- The frames of a port (R164, R165, R167, R173). The bytes of one window make the request that byte 0 names, with the n body
bytes that byte 1 announces; a window closed before its frame is complete carries no request, bytes after the frame count for
nothing, and of a body announced above 60 bytes no byte is read (log entry 29). The request joins the queue at the byte that
completes its frame. The part sends 0 while the frame arrives, then the bytes of its response frame, then 0 until the window
closes, whatever the master sends meanwhile. The codes and the status values are those of
their tables, and a response is its status, its length and its body. A request whose code names none is refused
UNKNOWN_REQUEST. The rest is the model's choice: a term that gives a known code to UNKNOWN_REQUEST faults (log entry 18), and
a request sent in a chip select held since reset is not taken, the select being released with it (R177, log entry 15). -/
def Obligations.Windows : Prop :=
  ((∀ (s : State) (q : Port) (code : Byte) (b : List Byte), s.opens q → codeUnknown code = true →
     exec (.unknownRequest q code b) s = .next (s.refusal q .unknownRequest)) ∧
   (∀ (s : State) (q : Port) (code : Byte) (b : List Byte), codeUnknown code = false →
     exec (.unknownRequest q code b) s = .fault .illFormedCommand) ∧
   (∀ (s : State) (q : Port), s.opens q → exec (.windowClosedEarly q) s = .next s) ∧
   (∀ (s : State) (q : Port),
     exec (.windowClosedEarly q) s = .next (s.modPort q fun u => { u with selectHeld := false })) ∧
   (∀ (c : Instr) (s : State) (q : Port), c.wellFormed = true → c.port? = some q → (s.port q).selectHeld = true →
     exec c s = .next (s.modPort q fun u => { u with selectHeld := false }))) ∧
  ((∀ (q : Port) (code n : Byte) (body more : List Byte),
     windowCommand q [] = .windowClosedEarly q ∧ windowCommand q [code] = .windowClosedEarly q ∧
     (n.toNat ≤ 60 → body.length < n.toNat → windowCommand q (code :: n :: body) = .windowClosedEarly q) ∧
     (n.toNat ≤ 60 → body.length = n.toNat → windowCommand q (code :: n :: (body ++ more)) = requestOf q code body) ∧
     (60 < n.toNat → ∃ x : List Byte, x.length = n.toNat ∧ windowCommand q (code :: n :: body) = requestOf q code x)) ∧
   (∀ (s : State) (q : Port) (bytes : List Byte), s.opens q →
     s.takeWindow q bytes = { s.modPort q (fun u => { u with window := none, response := none }) with
       pending := s.pending ++ [windowCommand q bytes] })) ∧
  ((∀ code n : Byte, ∀ body : List Byte, frameWhole [] = false ∧ frameWhole [code] = false ∧
     (frameWhole (code :: n :: body) = true ↔ 60 < n.toNat ∨ n.toNat ≤ body.length)) ∧
   (∀ (s : State) (q : Port),
     (s.opens q → s.selectPort q = s.modPort q fun u => { u with window := some ⟨[], 0⟩, response := none }) ∧
     ((s.port q).selectHeld = true → s.selectPort q = s) ∧
     (∀ b, (s.port q).window = none → s.shiftByte q b = (s, 0)) ∧
     ((s.port q).window = none → s.releasePort q = s.modPort q fun u => { u with selectHeld := false }) ∧
     (∀ w b, (s.port q).window = some w → frameWhole w.frame = false →
       let t := s.modPort q fun u => { u with window := some ⟨w.frame ++ [b], 0⟩ }
       (frameWhole (w.frame ++ [b]) = false → s.shiftByte q b = (t, 0)) ∧
       (frameWhole (w.frame ++ [b]) = true →
         s.shiftByte q b = ({ t with pending := s.pending ++ [windowCommand q (w.frame ++ [b])] }, 0)) ∧
       s.releasePort q = { s.modPort q (fun u => { u with window := none }) with
         pending := s.pending ++ [.windowClosedEarly q] }) ∧
     (∀ w, (s.port q).window = some w → frameWhole w.frame = true →
       (∀ more, s.shiftBytes q more =
         (s.modPort q fun u => { u with window := some { w with sent := w.sent + more.length } },
           ((s.responseFrame q).drop w.sent ++ List.replicate more.length 0).take more.length)) ∧
       s.releasePort q = s.modPort q fun u => { u with window := none }))) ∧
  (∀ (q : Port) (b : List Byte),
    ([1, 2, 3, 4, 5, 6, 7, 8, 9, 10, 11, 12, 13, 14, 15, 16, 17, 18, 19, 20, 21, 22, 23].map fun c : Byte =>
      requestOf q c b) =
      [.listWrite q b, .listClear q b, .listRead q b, .start q b, .hold q b, .resume q b, .abort q b, .amend q b,
        .flagSet q b, .placeHead q b, .headConfig q b, .platenConfig q b, .lineConfig q b, .moduleConfig q b,
        .serviceSet q b, .padInstall q b, .padRestore q b, .diskInstall q b, .conditionNow q b, .resumeModule q b,
        .restart q b, .beatRead q b, .revokeClaim q b] ∧
    ([32, 33, 40, 41, 42, 43, 48, 49, 50, 51, 52, 53, 54, 55].map fun c : Byte => requestOf q c b) =
      [.mark q b, .qualRead q b, .claim q b, .placed q b, .removed q b, .release q b, .headRead q b, .stationRead q b,
        .lineRead q b, .resultRead q b, .padRead q b, .noticeRead q b, .noticeAck q b, .noticeMask q b] ∧
    (∀ c : Byte, codeUnknown c = true ↔ requestOf q c b = .unknownRequest q c b) ∧
    (∀ c : Byte, (requestOf q c b).port? = some q ∧ (requestOf q c b).code? = some c.toNat)) ∧
  ([Status.ok, .unknownRequest, .badLength, .notPermitted, .outOfRange, .wrongState, .busy, .claimed, .notClaimed,
      .tripped].map Status.code = [0, 1, 2, 3, 4, 5, 6, 7, 8, 9] ∧
    ∀ (s : State) (q : Port) (e : Status) (b : List Byte),
      (s.respond q e b).responseFrame q = BitVec.ofNat 8 e.code :: BitVec.ofNat 8 b.length :: b)

/-! ## The module and the beat -/

/-- RESUME_MODULE (R132): refused while the input stands at the trip level; without effect on a module that is CLEAR; on a
tripped one the trip is cleared, the owed move of a CLOSING head and the DEFERRED move of a RUNNING one are sent (R11, R26), an
IDLE line binds its waiter (R86), a suspended run goes on, a suspended in-situ sweep stows and an owed run takes its free
station (R145, R149). A TRIP over a saved intervention hands the head back to that intervention, and a TRIP over a saved step
resumes it (R123, R124): a halted transit toward its station goes forward, a free station is granted, a DWELL AT its station
runs on, a POLISH AT its platen takes its clock and its line back and goes by the arm into KEEPOUT_WAIT or DOWN into GAP. Where
the heads in TRIP could meet each other in their order (log entry 6) the head of the clause is the only one. -/
def Obligations.ResumeModule : Prop :=
  ∀ s : State, s.opens .recipe →
    (s.trip.atLevel = true → exec (.resumeModule .recipe []) s = .next (s.refusal .recipe .wrongState)) ∧
    (s.trip.atLevel = false → s.trip.tripped = false →
      exec (.resumeModule .recipe []) s = .next (s.accepted .recipe)) ∧
    (s.trip.atLevel = false → s.trip.tripped = true →
      ∃ t, exec (.resumeModule .recipe []) s = .next t ∧ (t.port .recipe).response = some ⟨.ok, []⟩ ∧
        t.trip = { s.trip with tripped := false } ∧
        (∀ h o d e st, (s.carrier h).position = .inTransit o d st → st = .halted ∨ st = .deferred →
          (s.seq h).state = .closing e → (∀ x, h ∉ (s.station x).wait) →
          (t.seq h).state = .closing e ∧ (t.carrier h).position = .inTransit o d (.moving 0 (s.carrier h).moveLimit) ∧
            (t.carrier h).moveNumber = (s.carrier h).moveNumber + 1) ∧
        (∀ h cs p k x xs tr rest, (s.seq h).state = .running →
          (s.seq h).activity = some (.intervention .trip cs p) →
          (s.seq h).stack = ⟨.intervention k (x :: xs), tr⟩ :: rest → k ≠ .park → (∀ y, h ∉ (s.station y).wait) →
          t.seq h = { s.seq h with activity := some (.intervention k (x :: xs) none), stack := rest }) ∧
        (∀ h o d, (s.carrier h).position = .inTransit o d .deferred → (s.seq h).state = .running →
          (∀ cs p, (s.seq h).activity ≠ some (.intervention .trip cs p)) →
          t.seq h = s.seq h ∧ t.carrier h = { s.carrier h with
            position := .inTransit o d (.moving 0 (s.carrier h).moveLimit)
            moveNumber := (s.carrier h).moveNumber + 1
            sent := (s.carrier h).sent ++ [.move d ((s.carrier h).moveNumber + 1)] }) ∧
        (∀ h cs p w tr rest, (s.seq h).state = .running → (s.seq h).activity = some (.intervention .trip cs p) →
          (s.seq h).stack = ⟨.step w, tr⟩ :: rest →
          let v : Working := { w with
            resuming := true
            keptLine := false
            resume := match w.record.kind with
              | .move _ => none
              | _ => w.resume }
          (∀ o st, (s.carrier h).position = .inTransit o w.station st → (∀ n l, st ≠ .moving n l) →
            t.seq h = { s.seq h with activity := some (.step { v with phase := some .inTransit }), stack := rest } ∧
            t.carrier h = { s.carrier h with
              position := .inTransit o w.station (.moving 0 (s.carrier h).moveLimit)
              moveNumber := (s.carrier h).moveNumber + 1
              sent := (s.carrier h).sent ++ [.move w.station ((s.carrier h).moveNumber + 1)] }) ∧
          (∀ n, w.record.kind = .dwell n → (s.carrier h).position = .stands w.station →
            t.carrier h = s.carrier h ∧ t.isDown h = false ∧
            t.seq h = { s.seq h with
              activity := some (.step { v with phase := some .dwell, resume := none }), stack := rest }) ∧
          ((∀ g, g ≠ h → (s.seq g).state = .running → ∀ js y, (s.seq g).activity ≠ some (.intervention .trip js y)) →
            (∀ o, (s.carrier h).position = .stands o → o ≠ w.station → s.closedTo w.station = false →
              (s.station w.station).holder = none →
              (∀ q, w.station = .platen q → (s.pad q).owed = 0 ∧ (s.pad q).state ≠ .breakIn) →
              t.seq h = { s.seq h with activity := some (.step { v with phase := some .inTransit }), stack := rest } ∧
              (t.station w.station).holder = some (.head h) ∧
              t.carrier h = { s.carrier h with
                position := .inTransit o w.station (.moving 0 (s.carrier h).moveLimit)
                moveNumber := (s.carrier h).moveNumber + 1
                sent := (s.carrier h).sent ++ [.move w.station ((s.carrier h).moveNumber + 1)] }) ∧
            (∀ r q, w.record.kind = .polish r → w.platen = some q → w.station = .platen q →
              (s.carrier h).position = .stands (.platen q) → (s.station (.platen q)).holder = some (.head h) →
              (s.seq h).vacuum = true → (∀ l, (s.line l).wait = []) →
              r.line = .none ∨ (∃ l, r.line = .line l ∧ (s.line l).state = .idle) →
              (s.base q).config.keepOut < (s.cond q).position ∨
                (s.base q).stalled = false ∧ (s.base q).direction = .forward →
              let y : Working := { v with
                resume := none
                flags := { w.flags with
                  noInsitu := w.flags.noInsitu || (r.inSitu && !decide ((s.disk q).state = .active)) } }
              (t.base q).accumulator = w.accrued ∧ (t.base q).owner = some ⟨h, w.limit, r.clock⟩ ∧
              (∀ l, r.line = .line l → t.line l = { s.line l with state := .bound q h r.flow }) ∧
              ((s.base q).config.keepOut < (s.cond q).position → t.isDown h = false ∧
                t.seq h = { s.seq h with activity := some (.step { y with phase := some .keepoutWait }), stack := rest }) ∧
              ((s.cond q).position ≤ (s.base q).config.keepOut → 0 < r.gap →
                t.isDown h = true ∧
                t.seq h = { s.seq h with
                  stack := rest
                  activity := some (.step { y with
                    phase := some .gap
                    gapRemaining := (effectiveGap r (s.base q).config.lead false).1
                    flags := { y.flags with
                      gapExtended := w.flags.gapExtended || (effectiveGap r (s.base q).config.lead false).2 } }) })))) ∧
        (∀ p m, (s.cond p).arm = .suspended .exSitu m → (s.base p).stalled = false → (s.cond p).runHeld = true →
          (s.station (.platen p)).holder = some .conditioner →
          (t.cond p).arm = (match m with
            | .deploying => .deploying .exSitu
            | .sweeping => .sweeping .exSitu) ∧
          (t.cond p).direction = (s.cond p).direction ∧ (t.cond p).sweepsDone = (s.cond p).sweepsDone ∧
          (t.cond p).runHeld = true ∧ (t.cond p).speedOut = (s.base p).config.armSpeed ∧
          (t.cond p).forceOut = (match m with
            | .deploying => 0
            | .sweeping => (s.base p).config.downforce) ∧
          (t.station (.platen p)).holder = some .conditioner ∧ (t.base p).speed = (s.base p).config.conditioningSpeed) ∧
        (∀ p h m, (s.cond p).arm = .suspended (.inSitu h) m → (s.pad p).owed = 0 →
          (∀ g, (s.carrier g).position ≠ .stands (.platen p)) →
          (t.cond p).arm = (if (s.cond p).position ≤ (s.base p).config.stow then .stowed else .stowing) ∧
          (t.cond p).forceOut = 0) ∧
        (∀ p, 0 < (s.pad p).owed → (s.disk p).state = .active → (s.cond p).runHeld = false →
          (s.station (.platen p)).holder = none → (s.station (.platen p)).inService = true →
          (t.station (.platen p)).holder = some .conditioner ∧ (t.cond p).runHeld = true ∧ (t.cond p).sweepsDone = 0 ∧
          (t.base p).speed = (s.base p).config.conditioningSpeed ∧
          ((s.cond p).arm = .stowed → (t.cond p).arm = .deploying .exSitu)) ∧
        (∀ l, (s.line l).state = .idle → (∀ k, k ≠ l → (s.line k).state = .idle → (s.line k).wait = []) →
          (∀ g, (s.seq g).state = .running → ∀ js y, (s.seq g).activity ≠ some (.intervention .trip js y)) →
          s.HandedOn t l))

/-- RESTART (R182) sets restart-pending; BEAT_READ (R181) answers the flag and the counter, then clears the flag and enables
beat-setting. -/
def Obligations.RestartAndBeatRead : Prop :=
  ∀ s : State, s.opens .recipe →
    exec (.restart .recipe []) s =
      .next ((s.setBeat { s.beat with restartPending := true }).accepted .recipe) ∧
    exec (.beatRead .recipe []) s =
      .next ((s.setBeat { s.beat with flag := false, settingEnabled := true }).respond .recipe .ok
        (put8 s.beat.flag.toNat ++ put32 s.beat.counter))

/-- A beat with no restart pending (R179, R44): the interval restarts, the counter goes up to its end, the flag is set where
beat-setting is enabled, and every running claim timer counts, stopping at the limit with its notices. CLAIM_OVERDUE says
that a running claim timer has reached the limit; with no claim, or a timer that has stopped, that row has nothing to act on
(log entry 3). -/
def Obligations.BeatReachesTheClaims : Prop :=
  (∀ s : State, s.beat.restartPending = false →
    ∃ t, exec .beat s = .next t ∧
      t.beat = { s.beat with
        interval := 0, counter := satSucc 4294967295 s.beat.counter, flag := s.beat.flag || s.beat.settingEnabled } ∧
      (∀ h, (s.seq h).claim = none → t.seq h = s.seq h) ∧
      (∀ h c, (s.seq h).claim = some c →
        (c.stopped = true → t.seq h = s.seq h) ∧
        (c.stopped = false → c.timer + 1 < s.beat.claimLimit →
          t.seq h = { s.seq h with claim := some { c with timer := c.timer + 1 } }) ∧
        (c.stopped = false → s.beat.claimLimit ≤ c.timer + 1 →
          t.seq h = { s.seq h with claim := some { c with timer := s.beat.claimLimit, stopped := true } } ∧
            .claimOverdue h ∈ (t.port .recipe).notices ∧ .claimOverdue h ∈ (t.port .transfer).notices))) ∧
  (∀ (s : State) (h : HeadId),
    (∀ c, (s.seq h).claim = some c → c.stopped = false →
      exec (.claimOverdue h) s = .next (((s.modSeq h fun q =>
        { q with claim := some { c with timer := s.beat.claimLimit, stopped := true } }).raise .recipe
          (.claimOverdue h)).raise .transfer (.claimOverdue h))) ∧
    ((s.seq h).claim = none ∨ (∃ c, (s.seq h).claim = some c ∧ c.stopped = true) →
      exec (.claimOverdue h) s = .next s))

/-- The restart beat (R183 and the tables it names): every block takes its warm-restart values, the module is tripped, and
the notices of the restart stand pending. BEAT and WARM_RESTART name the same beat (log entry 3); with no restart pending
WARM_RESTART does nothing. -/
def Obligations.WarmRestart : Prop :=
  ∀ s : State,
    (s.beat.restartPending = false → exec .warmRestart s = .next s) ∧
    (s.beat.restartPending = true →
      ∃ t, exec .warmRestart s = .next t ∧ exec .beat s = .next t ∧
        t.beat = { s.beat with
          interval := 0, counter := satSucc 4294967295 s.beat.counter, flag := true, restartPending := false } ∧
        t.trip = { s.trip with tripped := true } ∧
        (∀ h d, (s.carrier h).position = .stands d →
          t.carrier h = s.carrier h ∧ (t.seq h).state = .idle) ∧
        (∀ h, (∀ d, (s.carrier h).position ≠ .stands d) →
          (t.carrier h).position = .unplaced ∧ (t.carrier h).moveNumber = (s.carrier h).moveNumber ∧
            (t.seq h).state = .unplaced) ∧
        (∀ h, t.seq h = { s.seq h with
          results := [], ep := false, epmiss := false, u1 := false, u2 := false, state := (t.seq h).state
          activity := none, stack := [], lost := none, claim := none }) ∧
        (∀ h, t.zone h = { s.zone h with lift := .up }) ∧
        (∀ d, (t.station d).wait = [] ∧ (t.station d).inService = (s.station d).inService ∧
          (t.station d).holder ≠ some .conditioner ∧
          ∀ h, (t.station d).holder = some (.head h) ↔
            (s.station d).holder = some (.head h) ∧ (s.carrier h).position = .stands d) ∧
        (∀ p, t.base p = { s.base p with
          speed := 0, stallTimer := none, stalled := false, accumulator := 0, owner := none, amend := ⟨none, none, none⟩ }) ∧
        (∀ l, (t.line l).wait = [] ∧ (t.line l).pumpOn = false ∧ (t.line l).cls = (s.line l).cls ∧
          (t.line l).recoveryTime = (s.line l).recoveryTime ∧ (t.line l).supplyReady = (s.line l).supplyReady ∧
          (∀ n h f, (s.line l).state = .bound n h f → (t.line l).state = .idle) ∧
          ((s.line l).state = .idle → (t.line l).state = .idle) ∧
          ((s.line l).state = .disabled → (t.line l).state = .disabled) ∧
          (∀ x, (s.line l).state = .faulted x →
            (t.line l).state = .faulted (if (s.line l).supplyReady then some 0 else none))) ∧
        (∀ p, t.qual p = ⟨.idle, none, none, 0, 0, 0, 0, 0, none⟩) ∧
        (∀ p, (t.cond p).runHeld = false ∧ (t.cond p).sweepsDone = 0 ∧ (t.cond p).position = (s.cond p).position ∧
          (t.cond p).direction = .inward ∧ (t.cond p).outer = .outer ∧
          (t.cond p).arm =
            if (s.cond p).arm = .stowed ∨ (s.cond p).position ≤ (s.base p).config.stow then .stowed else .stowing) ∧
        (∀ p, t.pad p = { s.pad p with
          owed := if (s.cond p).runHeld then (s.pad p).owed - (s.cond p).sweepsDone else (s.pad p).owed
          polishMark := false } ∧ t.disk p = s.disk p) ∧
        (t.port .recipe).notices = [.tripped, .restarted] ∧ (t.port .transfer).notices = [.tripped] ∧
        (∀ n, n ∈ (t.port .endpoint).notices ↔ ∃ p, n = .watchClosed p ∧ (s.qual p).state ≠ .idle) ∧
        (∀ q, (t.port q).mask = (s.port q).mask ∧ (t.port q).window = (s.port q).window))

/-- COLD_RESET (R185): every block starts from its cold-reset values, whatever stood before. The field inputs keep the levels
they have (log entry 28) and a port whose chip select is asserted opens no window yet (R177). -/
def Obligations.ColdReset : Prop :=
  ∀ (s : State) (selected : List Port),
    ∃ t, exec (.coldReset selected) s = .next t ∧
      t.stations = State.reset.stations ∧ t.carriers = State.reset.carriers ∧ t.bases = State.reset.bases ∧
      t.quals = State.reset.quals ∧ t.conds = State.reset.conds ∧ t.pads = State.reset.pads ∧
      t.disks = State.reset.disks ∧ t.beat = State.reset.beat ∧
      (∀ h, t.seq h = { State.reset.seq h with vacuum := (s.seq h).vacuum }) ∧
      (∀ h, t.zone h = { State.reset.zone h with inBand := (s.zone h).inBand }) ∧
      (∀ l, t.line l = { State.reset.line l with supplyReady := (s.line l).supplyReady }) ∧
      t.trip = ⟨s.trip.input, .tripOnLow, true⟩ ∧
      (∀ q, (t.port q).notices = [] ∧ (t.port q).mask = 0 ∧ (t.port q).window = none ∧
        ((t.port q).selectHeld = true ↔ q ∈ selected))

/-! ## The transfer claim -/

/-- CLAIM (R43), its conditions in their order; RELEASE and REVOKE_CLAIM (R46) end a claim, and REVOKE_CLAIM alone raises
CLAIM_REVOKED on the Transfer Port. -/
def Obligations.ClaimBeginsAndEnds : Prop :=
  (∀ (s : State) (b : List Byte) (h : HeadId), s.opens .transfer → b.length = 1 → headOf (le8 b 0) = some h →
     ((s.seq h).claim = none → (s.seq h).state = .idle → (s.carrier h).position = .stands .load →
       exec (.claim .transfer b) s =
         .next ((s.modSeq h fun q => { q with claim := some ⟨0, false, .none⟩ }).accepted .transfer)) ∧
     ((s.seq h).claim ≠ none ∨ (s.seq h).state = .running ∨ (∃ e, (s.seq h).state = .closing e) →
       exec (.claim .transfer b) s = .next (s.refusal .transfer .busy)) ∧
     ((s.seq h).claim = none → (s.seq h).state ≠ .running → (∀ e, (s.seq h).state ≠ .closing e) →
       (s.seq h).state ≠ .idle ∨ (s.carrier h).position ≠ .stands .load →
       exec (.claim .transfer b) s = .next (s.refusal .transfer .wrongState))) ∧
  (∀ (s : State) (b : List Byte) (h : HeadId), b.length = 1 → headOf (le8 b 0) = some h →
     (s.opens .transfer →
       ((s.seq h).claim ≠ none → exec (.release .transfer b) s =
         .next ((s.modSeq h fun q => { q with claim := none }).accepted .transfer)) ∧
       ((s.seq h).claim = none → exec (.release .transfer b) s = .next (s.refusal .transfer .notClaimed))) ∧
     (s.opens .recipe →
       ((s.seq h).claim ≠ none → exec (.revokeClaim .recipe b) s =
         .next (((s.modSeq h fun q => { q with claim := none }).raise .transfer (.claimRevoked h)).accepted .recipe)) ∧
       ((s.seq h).claim = none → exec (.revokeClaim .recipe b) s = .next (s.refusal .recipe .notClaimed))))

/-- PLACED and REMOVED (R45): NOT_CLAIMED without a claim; with one, answered against the vacuum sense, the report stored and
the claim timer set to 0, so that a timer stopped at the limit counts again. -/
def Obligations.PlacedAndRemoved : Prop :=
  ∀ (s : State) (b : List Byte) (h : HeadId), s.opens .transfer → b.length = 1 → headOf (le8 b 0) = some h →
    ((s.seq h).claim = none →
      exec (.placed .transfer b) s = .next (s.refusal .transfer .notClaimed) ∧
        exec (.removed .transfer b) s = .next (s.refusal .transfer .notClaimed)) ∧
    ((s.seq h).claim ≠ none → (s.seq h).vacuum = true →
      exec (.placed .transfer b) s =
        .next ((s.modSeq h fun q => { q with claim := some ⟨0, false, .placed⟩ }).accepted .transfer) ∧
        exec (.removed .transfer b) s = .next (s.refusal .transfer .wrongState)) ∧
    ((s.seq h).claim ≠ none → (s.seq h).vacuum = false →
      exec (.removed .transfer b) s =
        .next ((s.modSeq h fun q => { q with claim := some ⟨0, false, .removed⟩ }).accepted .transfer) ∧
        exec (.placed .transfer b) s = .next (s.refusal .transfer .wrongState))

/-! ## Marks and endpoint -/

/-- What MARK answers and stores when it does not confirm (R101): the qualifier as the rules of its state leave it, and the
disposition. -/
def Obligations.MarkAnswersItsDisposition : Prop :=
  ∀ (s : State) (b : List Byte) (p : PlatenId) (k : MarkKind), s.opens .endpoint → b.length = 3 →
    platenOfCode (le8 b 0) = some p → markKindOf (le8 b 2) = some k →
    let m := (s.qual p).mark (s.base p).revolution (b.getD 1 0) k (s.base p).config.confirmNumber
    (m.confirms = false → exec (.mark .endpoint b) s =
      .next ((s.setQual p m.qual).settle.respond .endpoint .ok (put8 m.disposition.code))) ∧
    (m.confirms = true → m.disposition = .accepted ∧
      exec (.mark .endpoint b) s = .next (((s.setQual p m.qual).confirm p).settle.respond .endpoint .ok (put8 0)))

/-- The classification of a mark (R101, R102), in its order. -/
def Obligations.MarksAreClassified : Prop :=
  ∀ (q : Qualifier) (counter : Rev) (rev : Byte) (k : MarkKind) (number : Nat),
    let delta := (counter.setWidth 8 - rev).toNat
    let taken := q.mark counter rev k number
    (q.state = .idle →
      taken = ⟨{ q with unexpected := satSucc 65535 q.unexpected }, .unexpected, false⟩) ∧
    (q.state ≠ .idle → 2 ≤ delta → taken = ⟨{ q with late := satSucc 65535 q.late }, .late, false⟩) ∧
    (∀ h n, q.state = .settling h n → delta < 2 →
      taken = ⟨{ q with ignored := satSucc 65535 q.ignored }, .ignored, false⟩) ∧
    (∀ h start, q.state = .watch h start ∨ (∃ n, q.state = .confirm h start n) → delta < 2 →
      revNotBefore (counter - BitVec.ofNat 32 delta) start = false →
      taken = ⟨{ q with ignored := satSucc 65535 q.ignored }, .ignored, false⟩) ∧
    (∀ h start, q.state = .watch h start → delta < 2 →
      revNotBefore (counter - BitVec.ofNat 32 delta) start = true →
      taken = q.markInWatch h start (counter - BitVec.ofNat 32 delta) k number) ∧
    (∀ h start n l, q.state = .confirm h start n → q.lastCounted = some l → delta < 2 →
      revNotBefore (counter - BitVec.ofNat 32 delta) start = true →
      taken = q.markInConfirm h start n l (counter - BitVec.ofNat 32 delta) k number)

/-- A mark taken in WATCH (R103) and in CONFIRM (R104), by its kind and its revolution m against the last counted revolution
l: m lies at most one revolution before the current one, as R104 says. -/
def Obligations.MarksCountRevolutions : Prop :=
  ∀ (q : Qualifier) (h : HeadId) (start m l : Rev) (n number : Nat),
    q.markInWatch h start m .film number = ⟨{ q with lastKind := some .film }, .accepted, false⟩ ∧
    (∀ k, k ≠ .film →
      q.markInWatch h start m k number =
        ⟨{ q with state := .confirm h start 1, lastCounted := some m, lastKind := some k }, .accepted,
          decide (number ≤ 1)⟩ ∧
      (m = l ∨ revNotBefore m l = false →
        q.markInConfirm h start n l m k number =
          ⟨{ q with duplicate := satSucc 65535 q.duplicate }, .duplicate, false⟩) ∧
      (m = l + 1 →
        q.markInConfirm h start n l m k number =
          ⟨{ q with state := .confirm h start (n + 1), lastCounted := some m, lastKind := some k }, .accepted,
            decide (number ≤ n + 1)⟩) ∧
      (m ≠ l → m ≠ l + 1 → revNotBefore m l = true →
        q.markInConfirm h start n l m k number =
          ⟨{ q with state := .confirm h start 1, lastCounted := some m, lastKind := some k }, .accepted,
            decide (number ≤ 1)⟩)) ∧
    (revNotBefore m l = true →
      q.markInConfirm h start n l m .film number =
        ⟨{ q with
            state := .watch h start, lastCounted := none, relock := satSucc 65535 q.relock, lastKind := some .film },
          .accepted, false⟩) ∧
    (revNotBefore m l = false →
      q.markInConfirm h start n l m .film number =
        ⟨{ q with duplicate := satSucc 65535 q.duplicate }, .duplicate, false⟩)

/-- A confirmation (R36, R105), by the MARK that reaches the confirm number, which is answered ACCEPTED, or by
ENDPOINT_CONFIRMATION; q is the qualifier that the command leaves before it confirms. With a target above 0 the step enters
OVERPOLISH with the capture and its target, EP is set and EPMISS cleared, the capture is stored, CONFIRMED is raised and the
watch closes with its own notice. With a target of 0 the step ends ENDPOINT with the capture (log entry 27).
ENDPOINT_CONFIRMATION at a qualifier in IDLE or SETTLING has no confirmation to make (log entry 3). -/
def Obligations.Confirmation : Prop :=
  (∀ (s : State) (p : PlatenId), (s.qual p).state.counting = false →
    exec (.endpointConfirmation p) s = .next s.settle) ∧
  (∀ (s : State) (c : Instr) (p : PlatenId) (q : Qualifier) (h : HeadId) (w : Working),
    (c = .endpointConfirmation p ∧ (s.qual p).state.counting = true ∧ q = s.qual p ∨
      ∃ b k, c = .mark .endpoint b ∧ s.opens .endpoint ∧ b.length = 3 ∧ platenOfCode (le8 b 0) = some p ∧
        markKindOf (le8 b 2) = some k ∧
        (s.qual p).mark (s.base p).revolution (b.getD 1 0) k (s.base p).config.confirmNumber = ⟨q, .accepted, true⟩) →
    q.state.watching = some h → (s.seq h).state = .running → (s.seq h).activity = some (.step w) →
    let x : Capture := ⟨(s.base p).revolution, (s.base p).position, (s.base p).accumulator⟩
    let target := w.opFixed + w.opPercent * x.accrued / 100
    (0 < target →
      ∃ t, exec c s = .next t ∧
        t.seq h = { s.seq h with
          activity := some (.step { w with phase := some .overpolish, confirmed := some ⟨x, target⟩ })
          ep := true, epmiss := false } ∧
        t.qual p = { q with state := .idle, capture := some x } ∧
        .confirmed p ∈ (t.port .endpoint).notices ∧ .watchClosed p ∈ (t.port .endpoint).notices ∧
        (∀ b, c = .mark .endpoint b → (t.port .endpoint).response = some ⟨.ok, [0]⟩)) ∧
    (target = 0 →
      ∃ t r, exec c s = .next t ∧ (s.seq h).results ++ [r] <+: (t.seq h).results ∧
        r.index = w.index ∧ r.outcome = .endpoint ∧ r.capture = some x ∧
        .confirmed p ∈ (t.port .endpoint).notices ∧ .watchClosed p ∈ (t.port .endpoint).notices ∧
        (∀ b, c = .mark .endpoint b → (t.port .endpoint).response = some ⟨.ok, [0]⟩)))

/-! ## Counts of the platens and the arms -/

/-- PLATEN_COUNT (R50, R51): the angle of the platen turned and of no other; pad life at a boundary under a pressing head and
at no other count (R155); the gap of a step in GAP (R34); one unit for a COUNTS step whose gate is on (R59); a REVERSE count
under a DOWN head lifts it (R57). That a count makes its boundary before it acts on the gap, so that the pad life at a count
that also ends the gap goes by the head as it stood before, is log entry 7. The count that ends the gap and the count that
reaches the limit are left out of the clauses for the gap and for a COUNTS step, and what a boundary delivers to the qualifier
and to a REVS step is in IndexPulse. -/
def Obligations.PlatenCounts : Prop :=
  (∀ (s : State) (p : PlatenId), ∃ t, exec (.platenCount p .forward) s = .next t ∧
    (t.base p).config = (s.base p).config ∧ (t.base p).direction = .forward ∧
    ((s.base p).position + 1 < (s.base p).config.cpr →
      (t.base p).position = (s.base p).position + 1 ∧ (t.base p).revolution = (s.base p).revolution ∧
        (t.pad p).life = (s.pad p).life) ∧
    ((s.base p).config.cpr ≤ (s.base p).position + 1 →
      (t.base p).position = 0 ∧ (t.base p).revolution = (s.base p).revolution + 1 ∧
        (t.pad p).life = if s.padPressed p then satSucc 4294967295 (s.pad p).life else (s.pad p).life) ∧
    (∀ j, j ≠ p → (t.base j).position = (s.base j).position ∧ (t.base j).revolution = (s.base j).revolution ∧
      (t.base j).direction = (s.base j).direction) ∧
    ((s.base p).position + 1 < (s.base p).config.cpr → (s.base p).stalled = false →
      (∀ h w r, s.headOn p = some h → s.polishing h = some (w, r, p) → w.phase = some .gap → 1 < w.gapRemaining →
        t.seq h = { s.seq h with activity := some (.step { w with gapRemaining := w.gapRemaining - 1 }) }) ∧
      (∀ h w r limit, s.headOn p = some h → s.polishing h = some (w, r, p) → w.phase = some .polish →
        s.gate p = true → (s.base p).owner = some ⟨h, limit, .counts⟩ → (s.base p).accumulator + 1 < limit →
        t.seq h = s.seq h ∧ (t.base p).accumulator = (s.base p).accumulator + 1 ∧ (t.pad p).polishMark = true))) ∧
  (∀ (s : State) (p : PlatenId), ∃ t, exec (.platenCount p .reverse) s = .next t ∧
    (t.base p).config = (s.base p).config ∧ (t.base p).direction = .reverse ∧ (t.pad p).life = (s.pad p).life ∧
    (0 < (s.base p).position →
      (t.base p).position = (s.base p).position - 1 ∧ (t.base p).revolution = (s.base p).revolution) ∧
    ((s.base p).position = 0 →
      (t.base p).position = (s.base p).config.cpr - 1 ∧ (t.base p).revolution = (s.base p).revolution - 1) ∧
    (∀ h a, s.headOn p = some h → s.isDown h = true → (s.seq h).state = .running → (s.seq h).activity = some a →
      a.rank < 2 → (s.seq h).stack.length < 2 →
      t.seq h = Sequencer.bump { s.seq h with
        activity := some (.intervention .lift [.platenReverse] none)
        stack := ⟨s.saved h a, (s.carrier h).halt.position.transit?⟩ :: (s.seq h).stack } ∧
      t.isDown h = false ∧ .intervened h ∈ (t.port .recipe).notices))

/-- INDEX_PULSE (R52): the position becomes 0; in the upper half the revolution counter counts the missed wrap; ENCODER_SLIP
is raised when the distance from 0 lies above the tolerance. And what every revolution boundary delivers, made by a FORWARD
count or by an index pulse (R53), to a step in POLISH that does not reach its limit: one unit to a REVS step whose gate is on
(R59), one down from the settle remainder of its qualifier, whose watch starts at the new revolution when it reaches 0 (R99).
That a FORWARD count on a stalled platen makes its boundary before it clears the stalled mark, so that the gate is still off
there, is log entry 7. -/
def Obligations.IndexPulse : Prop :=
  (∀ (s : State) (p : PlatenId), ∃ t, exec (.indexPulse p) s = .next t ∧ (t.base p).position = 0 ∧
     (t.base p).direction = (s.base p).direction ∧ (t.base p).config = (s.base p).config ∧
     ((s.base p).position = 0 → t = s.settle) ∧
     (0 < (s.base p).position → 2 * (s.base p).position < (s.base p).config.cpr →
       (t.base p).revolution = (s.base p).revolution ∧
       ((s.base p).config.tolerance < (s.base p).position →
         t = ((s.modBase p fun b => { b with position := 0 }).raise .recipe (.encoderSlip p)).settle) ∧
       ((s.base p).position ≤ (s.base p).config.tolerance →
         t = (s.modBase p fun b => { b with position := 0 }).settle)) ∧
     (0 < (s.base p).position → (s.base p).config.cpr ≤ 2 * (s.base p).position →
       (t.base p).revolution = (s.base p).revolution + 1 ∧
       ((s.base p).config.tolerance < (s.base p).config.cpr - (s.base p).position →
         .encoderSlip p ∈ (t.port .recipe).notices))) ∧
  (∀ (s : State) (c : Instr) (h : HeadId) (p : PlatenId) (w : Working) (r : PolishRecord) (limit : Nat) (clk : StepClock),
    c.atBoundary s p → (s.base p).amend = ⟨none, none, none⟩ → (s.base p).owner = some ⟨h, limit, clk⟩ →
    s.headOn p = some h → s.polishing h = some (w, r, p) → w.phase = some .polish →
    (s.base p).accumulator + 1 < limit →
    ∃ t, exec c s = .next t ∧ (t.base p).revolution = (s.base p).revolution + 1 ∧ (t.base p).position = 0 ∧
      t.seq h = s.seq h ∧
      (clk = .revs → s.gate p = true →
        (t.base p).accumulator = (s.base p).accumulator + 1 ∧ (t.pad p).polishMark = true) ∧
      (clk = .revs → s.gate p = false →
        (t.base p).accumulator = (s.base p).accumulator ∧ (t.pad p).polishMark = (s.pad p).polishMark) ∧
      (∀ g n, (s.qual p).state = .settling g n →
        t.qual p = { s.qual p with
          state := if n ≤ 1 then .watch g ((s.base p).revolution + 1) else .settling g (n - 1) }) ∧
      ((∀ g n, (s.qual p).state ≠ .settling g n) → t.qual p = s.qual p) ∧
      (t.pad p).life = if s.padPressed p then satSucc 4294967295 (s.pad p).life else (s.pad p).life)

/-- ARM_COUNT (R137): the position moves by one and saturates at 0 and 65535, whatever the state; then the motion decision of
R139, stated for an arm whose count ends no KEEPOUT_WAIT, the sweep (R140), and the arm outputs, which a change of state takes from
the configuration and a STOWING arm takes again at each count (R136). The sweep that brings sweeps done to the owed sweeps
completes the run (R140, R147): the sweep counts on the disk, then the pad record, the arm, the station and RUN_DONE follow as
in RunCompletes. -/
def Obligations.ArmCounts : Prop :=
  ∀ (s : State) (p : PlatenId) (d : Travel),
    let x := match d with
      | .outward => satSucc 65535 (s.cond p).position
      | .inward => (s.cond p).position - 1
    let c : Conditioner := { s.cond p with position := x }
    let g := (s.base p).config
    ∃ t, exec (.armCount p d) s = .next t ∧ (t.cond p).position = x ∧
      (s.Settled →
        (∀ h w r y, s.headOn p = some h → s.polishing h = some (w, r, y) → w.phase ≠ some .keepoutWait) →
        ((s.cond p).arm = .stowed → t.cond p =
          if g.stow < x then { c with arm := .stowing, speedOut := g.armSpeed, forceOut := 0 } else c) ∧
        ((s.cond p).arm = .stowing → t.cond p =
          if x ≤ g.stow then { c with arm := .stowed, speedOut := 0, forceOut := 0 }
          else { c with speedOut := g.armSpeed, forceOut := 0 }) ∧
        (∀ m n, (s.cond p).arm = .suspended m n → t.cond p = c) ∧
        (∀ m, (s.cond p).arm = .deploying m →
          (x < g.inner → t.cond p = c) ∧
          (g.inner ≤ x → x < (s.cond p).outerPosition g → t.disk p = s.disk p ∧ t.cond p = { c with
            arm := .sweeping m, direction := .outward, speedOut := g.armSpeed, forceOut := g.downforce }) ∧
          (g.inner ≤ x → (s.cond p).outerPosition g ≤ x →
            (m = .exSitu → satSucc 255 (s.cond p).sweepsDone < (s.pad p).owed) →
            (t.disk p).used = satSucc 4294967295 (s.disk p).used ∧ t.cond p = { c with
              arm := .sweeping m, direction := .inward, speedOut := g.armSpeed, forceOut := g.downforce
              sweepsDone := if m = .exSitu then satSucc 255 (s.cond p).sweepsDone else (s.cond p).sweepsDone })) ∧
        (∀ m, (s.cond p).arm = .sweeping m → (s.cond p).direction = .inward →
          t.cond p = if x ≤ g.inner then { c with direction := .outward } else c) ∧
        (∀ m, (s.cond p).arm = .sweeping m → (s.cond p).direction = .outward → x < (s.cond p).outerPosition g →
          t.cond p = c ∧ t.disk p = s.disk p) ∧
        (∀ h, (s.cond p).arm = .sweeping (.inSitu h) → (s.cond p).direction = .outward →
          (s.cond p).outerPosition g ≤ x →
          t.cond p = { c with direction := .inward } ∧ t.pad p = s.pad p ∧
            (t.disk p).used = satSucc 4294967295 (s.disk p).used) ∧
        ((s.cond p).arm = .sweeping .exSitu → (s.cond p).direction = .outward → (s.cond p).outerPosition g ≤ x →
          satSucc 255 (s.cond p).sweepsDone < (s.pad p).owed →
          t.cond p = { c with direction := .inward, sweepsDone := satSucc 255 (s.cond p).sweepsDone } ∧
            t.pad p = s.pad p ∧ (t.disk p).used = satSucc 4294967295 (s.disk p).used)) ∧
      (((s.cond p).arm = .sweeping .exSitu ∧ (s.cond p).direction = .outward) ∨
          ((s.cond p).arm = .deploying .exSitu ∧ g.inner ≤ x) →
        (s.cond p).outerPosition g ≤ x → (s.cond p).runHeld = true →
        (s.station (.platen p)).holder = some .conditioner →
        (s.pad p).owed ≤ satSucc 255 (s.cond p).sweepsDone →
        (t.disk p).used = satSucc 4294967295 (s.disk p).used ∧
        t.pad p = { s.pad p with
          owed := 0, sinceExSitu := 0, state := if (s.pad p).state = .breakIn then .inService else (s.pad p).state } ∧
        (t.cond p).runHeld = false ∧ (t.cond p).sweepsDone = 0 ∧ (t.cond p).direction = .inward ∧
        (t.cond p).arm = (if x ≤ g.stow then .stowed else .stowing) ∧ (t.cond p).forceOut = 0 ∧
        .runDone p ∈ (t.port .recipe).notices ∧
        ((s.station (.platen p)).wait = [] →
          t.station (.platen p) = { s.station (.platen p) with holder := none } ∧ (t.base p).speed = 0) ∧
        ((s.pad p).state = .breakIn ∨ (s.pad p).state = .inService ∨ (s.pad p).state = .warn →
          s.Granted t (.platen p)) ∧
        ((s.pad p).state = .unknown ∨ (s.pad p).state = .retired →
          t.station (.platen p) = { s.station (.platen p) with holder := none, wait := [] } ∧
          ∀ h ∈ (s.station (.platen p)).wait, (s.seq h).state = .running →
            (t.seq h).state = .halted .stationUnavailable none ∧ .halted h ∈ (t.port .recipe).notices))

/-- The end of KEEPOUT_WAIT (R33, R67, R137): the inward count that brings the arm to K or below sends the waiting head DOWN
on the GAP set and its step into GAP, whose length is the gap, or the lead of the nozzle if that is longer and the line was
not kept (R34). The head holds the platen, so the conditioner holds no run there. -/
def Obligations.KeepoutWaitEnds : Prop :=
  ∀ (s : State) (p : PlatenId) (h : HeadId) (w : Working) (r : PolishRecord), s.headOn p = some h →
    s.polishing h = some (w, r, p) → w.phase = some .keepoutWait → s.isDown h = false → s.trip.tripped = false →
    (s.base p).stalled = false → (s.base p).direction = .forward → (∀ l, (s.line l).wait = []) →
    (s.cond p).runHeld = false →
    (s.cond p).position - 1 ≤ (s.base p).config.keepOut → 0 < r.gap →
    ∃ t, exec (.armCount p .inward) s = .next t ∧
      (t.zone h).lift = .down (.gap r.gapPressure) ⟨0, !(s.zone h).inBand.allTrue, false⟩ ∧
      t.seq h = { s.seq h with
        activity := some (.step { w with
          phase := some .gap
          gapRemaining := (effectiveGap r (s.base p).config.lead w.keptLine).1
          flags := { w.flags with gapExtended := w.flags.gapExtended ||
            (effectiveGap r (s.base p).config.lead w.keptLine).2 } }) } ∧
      effectiveGap r (s.base p).config.lead w.keptLine =
        if r.line = .none ∨ w.keptLine = true ∨ (s.base p).config.lead ≤ r.gap then (r.gap, false)
        else ((s.base p).config.lead, true)

/-! ## Zones, lines, moves -/

/-- IN_BAND_CHANGE (R70, R71), every column of the table of R71: UP, timer stopped at 0, running, expired. -/
def Obligations.InBandChange : Prop :=
  ∀ (s : State) (h : HeadId) (z : ZoneId) (v : Bool),
    let inputs := (s.zone h).inBand.set z v
    ((s.zone h).lift = .up → exec (.inBandChange h z v) s = .next (s.setZone h { s.zone h with inBand := inputs })) ∧
    (∀ x b, (s.zone h).lift = .down x b →
      (inputs.allTrue = true → exec (.inBandChange h z v) s =
        .next (s.setZone h { s.zone h with inBand := inputs, lift := .down x ⟨0, false, false⟩ })) ∧
      (v = false → b.running = false → b.expired = false → exec (.inBandChange h z v) s =
        .next (s.setZone h { s.zone h with inBand := inputs, lift := .down x ⟨0, true, false⟩ })) ∧
      (inputs.allTrue = false → v = true ∨ b.running = true ∨ b.expired = true → exec (.inBandChange h z v) s =
        .next (s.setZone h { s.zone h with inBand := inputs })))

/-- SUPPLY_READY_CHANGE (R90, R91): a level the input already has is no change; a BOUND line faults and hands its fault to
the step it serves, which begins RINSE; every other state of the line as the table of R91 says. A recovery time of 0 (R92)
recovers a line without waiters at once. -/
def Obligations.SupplyReadyChange : Prop :=
  ∀ (s : State) (l : LineId),
    (∀ v, (s.line l).supplyReady = v → exec (.supplyReadyChange l v) s = .next s) ∧
    ((s.line l).supplyReady = true →
      (∀ n h f, (s.line l).state = .bound n h f →
        ∃ t, exec (.supplyReadyChange l false) s = .next t ∧ (t.line l).state = .faulted none ∧
          (t.line l).supplyReady = false ∧ .lineFault l ∈ (t.port .recipe).notices ∧
          (∀ w, (s.seq h).state = .running → (s.seq h).activity = some (.step w) → (s.seq h).stack.length < 2 →
            t.seq h = Sequencer.bump { s.seq h with
              activity := some (.intervention .rinse [.lineFault l] none)
              stack := ⟨.step (s.collect h w).suspended, (s.carrier h).halt.position.transit?⟩ :: (s.seq h).stack } ∧
            t.isDown h = s.isDown h ∧ .intervened h ∈ (t.port .recipe).notices)) ∧
      ((s.line l).state = .idle → exec (.supplyReadyChange l false) s =
        .next ((s.setLine l { s.line l with supplyReady := false, state := .faulted none }).raise .recipe
          (.lineFault l)).settle) ∧
      (∀ x, (s.line l).state = .faulted x → exec (.supplyReadyChange l false) s =
        .next (s.setLine l { s.line l with supplyReady := false, state := .faulted none }).settle) ∧
      ((s.line l).state = .disabled → exec (.supplyReadyChange l false) s =
        .next (s.setLine l { s.line l with supplyReady := false }).settle)) ∧
    ((s.line l).supplyReady = false →
      ((s.line l).state = .faulted none → 0 < (s.line l).recoveryTime → exec (.supplyReadyChange l true) s =
        .next (s.setLine l { s.line l with supplyReady := true, state := .faulted (some 0) }).settle) ∧
      ((s.line l).state = .faulted none → (s.line l).recoveryTime = 0 →
        (∀ k, (s.line k).wait = []) →
        (∀ g, s.isRunning g = true → ∀ k cs x, (s.seq g).activity = some (.intervention k cs x) →
          ∃ c ∈ cs, c ≠ .lineFault l) →
        ∃ t, exec (.supplyReadyChange l true) s = .next t ∧
          t.line l = { s.line l with supplyReady := true, state := .idle }) ∧
      ((s.line l).state = .disabled → exec (.supplyReadyChange l true) s =
        .next (s.setLine l { s.line l with supplyReady := true }).settle))

/-- LINE_RECOVERY (R92, R93, R121, R123): a line whose recovery timer runs becomes IDLE; the step that its fault suspended
resumes at its platen, takes its clock and units back, binds the line again and goes DOWN into GAP. A line with no timer
running has nothing to recover (log entry 3). A recovered line with waiters is bound to the oldest waiting nozzle, whose step
leaves ACQUIRE_LINE (R82, R83, State.HandedOn), and the step that the fault suspended then joins the tail of the wait
list. -/
def Obligations.LineRecovery : Prop :=
  (∀ (s : State) (l : LineId), (∀ n, (s.line l).state ≠ .faulted (some n)) →
    exec (.lineRecovery l) s = .next s.settle) ∧
  (∀ (s : State) (l : LineId) (n : Nat), (s.line l).state = .faulted (some n) → (∀ k, (s.line k).wait = []) →
    (∀ g, s.isRunning g = true → ∀ k cs x, (s.seq g).activity = some (.intervention k cs x) →
      ∃ c ∈ cs, c ≠ .lineFault l) →
    ∃ t, exec (.lineRecovery l) s = .next t ∧ t.line l = { s.line l with state := .idle } ∧
      ∀ g, (t.seq g).state = (s.seq g).state) ∧
  (∀ (s : State) (l : LineId) (n : Nat) (h : HeadId) (p : PlatenId) (w : Working) (r : PolishRecord)
    (tr : Option Position), (s.line l).state = .faulted (some n) → (∀ k, (s.line k).wait = []) →
    (∀ g, g ≠ h → s.isRunning g = true → ∀ k cs x, (s.seq g).activity = some (.intervention k cs x) →
      ∃ c ∈ cs, c ≠ .lineFault l) →
    (s.seq h).state = .running → (s.seq h).activity = some (.intervention .rinse [.lineFault l] none) →
    (s.seq h).stack = [⟨.step w, tr⟩] → w.record.kind = .polish r → r.line = .line l → r.inSitu = false →
    w.platen = some p → w.station = .platen p → (s.carrier h).position = .stands (.platen p) →
    (s.seq h).vacuum = true → s.trip.tripped = false → (s.base p).stalled = false →
    (s.base p).direction = .forward → (s.cond p).position ≤ (s.base p).config.keepOut → 0 < r.gap →
    ∃ t v, exec (.lineRecovery l) s = .next t ∧
      t.line l = { s.line l with state := .bound p h r.flow } ∧ t.isDown h = true ∧ (t.seq h).stack = [] ∧
      (t.seq h).activity = some (.step v) ∧ v.phase = some .gap ∧ v.index = w.index ∧
      v.interventions = w.interventions ∧
      v.gapRemaining = (if r.gap < (s.base p).config.lead then (s.base p).config.lead else r.gap) ∧
      (t.base p).accumulator = w.accrued ∧ (t.base p).owner = some ⟨h, w.limit, r.clock⟩) ∧
  (∀ (s : State) (l : LineId) (n : Nat), (s.line l).state = .faulted (some n) → s.trip.tripped = false →
    s.IdleLinesFree →
    (∀ g, s.isRunning g = true → ∀ k cs x, (s.seq g).activity = some (.intervention k cs x) →
      ∃ c ∈ cs, c ≠ .lineFault l) →
    ∃ t, exec (.lineRecovery l) s = .next t ∧ s.HandedOn t l) ∧
  (∀ (s : State) (l : LineId) (n : Nat) (h : HeadId) (p : PlatenId) (w : Working) (r : PolishRecord)
    (tr : Option Position) (m : NozzleId) (rest : List NozzleId) (g : HeadId) (x : Working) (k : PolishRecord),
    (s.line l).state = .faulted (some n) → (s.line l).wait = m :: rest → p ∉ (s.line l).wait → s.IdleLinesFree →
    s.headOn m = some g → s.polishing g = some (x, k, m) → (s.seq g).stack = [] → (s.base m).stalled = false →
    (s.base m).direction = .forward →
    (∀ j, j ≠ h → s.isRunning j = true → ∀ i cs y, (s.seq j).activity = some (.intervention i cs y) →
      ∃ c ∈ cs, c ≠ .lineFault l) →
    (s.seq h).state = .running → (s.seq h).activity = some (.intervention .rinse [.lineFault l] none) →
    (s.seq h).stack = [⟨.step w, tr⟩] → w.record.kind = .polish r → r.line = .line l → w.platen = some p →
    w.station = .platen p → (s.carrier h).position = .stands (.platen p) → (s.seq h).vacuum = true →
    s.trip.tripped = false →
    ∃ t v, exec (.lineRecovery l) s = .next t ∧
      t.line l = { s.line l with state := .bound m g k.flow, wait := rest ++ [p] } ∧ t.isDown h = false ∧
      (t.seq h).stack = [] ∧ (t.seq h).activity = some (.step v) ∧ v.phase = some .acquireLine ∧ v.index = w.index ∧
      .lineWait h ∈ (t.port .recipe).notices)

/-- MOVE_DONE (R10, R12): another number is ignored; a head stands at its destination, and its origin is released (R8,
State.Released) with the move of a CLOSING head, of a MOVE step, of a PARK, with the move back of a suspended DWELL or POLISH
step (R123), and with a late completion, from LOAD, RINSE and the platens alike. A CLOSING head takes its end state (R26); a
MOVE step completes, and as the last of its list leaves the head IDLE (R39); its release is stated where no later step of the
list moves to the station left, which could take it again, and where no waiter polishes (R3, R29), which a line handed on in
the same event could lift and so take off the wait list. A moved-back DWELL runs on; a moved-back POLISH takes its clock
back and goes, needing no line, by the arm into KEEPOUT_WAIT or DOWN into GAP, or waits UP for a line that is bound to
another, and without its wafer is a final halt. A PARK has arrived (R119); a late completion changes nothing else of the
head (for a PARK on a HALTED head, log entry 32). -/
def Obligations.MoveDone : Prop :=
  ∀ (s : State) (h : HeadId) (num : MoveNo),
    (num ≠ (s.carrier h).moveNumber → exec (.moveDone h num) s = .next s) ∧
    (num = (s.carrier h).moveNumber → (∀ o d st, (s.carrier h).position ≠ .inTransit o d st) →
      exec (.moveDone h num) s = .next s.settle) ∧
    (∀ o d st, num = (s.carrier h).moveNumber → (s.carrier h).position = .inTransit o d st →
      h ∉ (s.station o).wait →
      (∀ e, (s.seq h).state = .closing e →
        ∃ t, exec (.moveDone h num) s = .next t ∧ t.carrier h = { s.carrier h with position := .stands d } ∧
          t.seq h = { s.seq h with
            state := match e with
              | .idle => .idle
              | .halted r => .halted (.final r) none } ∧
          (e = .idle → .listDone h ∈ (t.port .recipe).notices) ∧
          (∀ r, e = .halted r → .halted h ∈ (t.port .recipe).notices) ∧
          s.Released t o) ∧
      ((∀ e, (s.seq h).state ≠ .closing e) → (∀ n l, st ≠ .moving n l) →
        ∃ t, exec (.moveDone h num) s = .next t ∧ t.carrier h = { s.carrier h with position := .stands d } ∧
          t.seq h = s.seq h ∧ s.Released t o) ∧
      (∀ n l w, st = .moving n l → (s.seq h).state = .running → (s.seq h).activity = some (.step w) →
        w.phase = some .inTransit → w.record.kind = .move d → w.station = d →
        ∃ t r, exec (.moveDone h num) s = .next t ∧ (s.seq h).results ++ [r] <+: (t.seq h).results ∧
          r.index = w.index ∧ r.outcome = .completed ∧ r.endBeat = s.beat.counter ∧
          ((s.seq h).steps.length ≤ w.index + 1 →
            t.carrier h = { s.carrier h with position := .stands d } ∧ .listDone h ∈ (t.port .recipe).notices ∧
            t.seq h = { (s.seq h).applyAction w.record.action with
              results := (s.seq h).results ++ [r], activity := none, state := .idle }) ∧
          ((∀ x ∈ (s.seq h).steps.drop (w.index + 1), x.kind ≠ .move o) →
            (∀ g ∈ (s.station o).wait, s.polishing g = none) → s.Released t o)) ∧
      (∀ n l w k, st = .moving n l → (s.seq h).state = .running → (s.seq h).activity = some (.step w) →
        w.phase = some .inTransit → w.record.kind = .dwell k → w.station = d →
        ∃ t, exec (.moveDone h num) s = .next t ∧ t.carrier h = { s.carrier h with position := .stands d } ∧
          t.seq h = { s.seq h with activity := some (.step { w with phase := some .dwell, resume := none }) } ∧
          s.Released t o) ∧
      (∀ n l w r p, st = .moving n l → (s.seq h).state = .running → (s.seq h).activity = some (.step w) →
        w.phase = some .inTransit → w.record.kind = .polish r → d = .platen p → w.station = d → w.platen = some p →
        o ≠ d → (s.station d).holder = some (.head h) → s.isDown h = false → s.IdleLinesFree →
        let v : Working := { w with
          resume := none
          flags := { w.flags with
            noInsitu := w.flags.noInsitu || (r.inSitu && !decide ((s.disk p).state = .active)) } }
        let back (t : State) (y : Working) : Prop :=
          exec (.moveDone h num) s = .next t ∧ t.carrier h = { s.carrier h with position := .stands d } ∧
            (t.base p).accumulator = w.accrued ∧ (t.base p).owner = some ⟨h, w.limit, r.clock⟩ ∧
            t.seq h = { s.seq h with activity := some (.step y) } ∧ s.Released t o
        ((s.seq h).vacuum = true → r.line = .none →
          ((s.base p).config.keepOut < (s.cond p).position →
            ∃ t, back t { v with phase := some .keepoutWait } ∧ t.isDown h = false) ∧
          ((s.cond p).position ≤ (s.base p).config.keepOut → (s.base p).stalled = false →
            (s.base p).direction = .forward → s.trip.tripped = false → 0 < r.gap →
            ∃ t, back t { v with phase := some .gap, gapRemaining := r.gap } ∧ t.isDown h = true)) ∧
        (∀ k, (s.seq h).vacuum = true → r.line = .line k →
          (∃ m x f, (s.line k).state = .bound m x f ∧ m ≠ p) → p ∉ (s.line k).wait →
          ∃ t, back t { v with phase := some .acquireLine } ∧ t.isDown h = false ∧
            t.line k = { s.line k with wait := (s.line k).wait ++ [p] } ∧ .lineWait h ∈ (t.port .recipe).notices) ∧
        ((s.seq h).vacuum = false →
          ∃ t k, exec (.moveDone h num) s = .next t ∧ t.carrier h = { s.carrier h with position := .stands d } ∧
            (t.seq h).results = (s.seq h).results ++ [k] ∧ k.index = w.index ∧ k.outcome = .waferLost ∧
            (t.seq h).state = .halted (.final .waferLost) none ∧ (t.seq h).activity = none ∧
            ((∀ g ∈ (s.station o).wait, s.polishing g = none) → s.Released t o))) ∧
      (∀ n l cs, st = .moving n l → (s.seq h).state = .running → d = .rinse →
        (s.seq h).activity = some (.intervention .park cs (some .moving)) →
        ∃ t, exec (.moveDone h num) s = .next t ∧ t.carrier h = { s.carrier h with position := .stands .rinse } ∧
          t.seq h = { s.seq h with activity := some (.intervention .park cs (some .atRinse)) } ∧ s.Released t o))

/-- MOVE_FAULT with the head's move number, and MOVE_LIMIT_EXPIRY (R10, R13): a MOVING move is halted, the head goes
HALTED(MOVE_FAULT) with its notice and keeps its activity, its stack and its closing purpose (R26), and waits for no
station; a move that is not MOVING is left as it is (for MOVE_LIMIT_EXPIRY, whose timer then does not run, log entry 3). -/
def Obligations.MoveFaultsAndLimits : Prop :=
  ∀ (s : State) (h : HeadId) (num : MoveNo),
    (num ≠ (s.carrier h).moveNumber → exec (.moveFault h num) s = .next s) ∧
    (∀ c : Instr, (c = .moveLimitExpiry h ∨ (c = .moveFault h num ∧ num = (s.carrier h).moveNumber)) →
      ((∀ o d n l, (s.carrier h).position ≠ .inTransit o d (.moving n l)) → exec c s = .next s.settle) ∧
      (∀ o d n l, (s.carrier h).position = .inTransit o d (.moving n l) →
        ∃ t, exec c s = .next t ∧
          t.carrier h = { s.carrier h with position := .inTransit o d .halted, sent := (s.carrier h).sent ++ [.halt] } ∧
          t.seq h = { s.seq h with
            state := match (s.seq h).state with
              | .closing e => .halted .moveFault (some e)
              | .halted _ e => .halted .moveFault e
              | .unplaced | .idle | .running => .halted .moveFault none } ∧
          t.isDown h = false ∧ (∀ x, h ∉ (t.station x).wait) ∧ .halted h ∈ (t.port .recipe).notices))

/-! ## The trip and the wafer -/

/-- INTERLOCK_CHANGE (R129): a change into the trip level trips a module that is CLEAR. Then every head is UP, every move
halted, every line without binding or waiters, every platen at speed 0 (R14, R86, R128, R148), TRIPPED stands on both ports,
and the step of a RUNNING head is saved under a TRIP (R130). With two contexts saved already the bottom one is discarded: a
step into the lost step record, an intervention without trace, with CONTEXT_LOST (R116). -/
def Obligations.InterlockTrips : Prop :=
  ∀ (s : State) (v : Level),
    (v = s.trip.input → exec (.interlockChange v) s = .next s) ∧
    (v ≠ s.trip.input → s.trip.tripped = true ∨ s.trip.sense.level ≠ v →
      exec (.interlockChange v) s = .next (s.setTrip { s.trip with input := v }).settle) ∧
    (v ≠ s.trip.input → s.trip.tripped = false → s.trip.sense.level = v →
      ∃ t, exec (.interlockChange v) s = .next t ∧ t.trip = ⟨v, s.trip.sense, true⟩ ∧
        .tripped ∈ (t.port .recipe).notices ∧ .tripped ∈ (t.port .transfer).notices ∧
        (∀ p, (t.base p).speed = 0 ∧ (t.base p).stallTimer = none ∧ (t.base p).stalled = false) ∧
        (∀ p, (s.cond p).arm = .sweeping .exSitu → (t.cond p).arm = .suspended .exSitu .sweeping) ∧
        (∀ p, (s.cond p).arm = .deploying .exSitu → (t.cond p).arm = .suspended .exSitu .deploying) ∧
        (∀ l, (t.line l).pumpOn = false ∧ (t.line l).wait = []) ∧
        (∀ h, t.isDown h = false ∧ t.carrier h = (s.carrier h).halt) ∧
        (∀ h a, (s.seq h).state = .running → (s.seq h).activity = some a → a.rank < 4 → (s.seq h).stack.length < 2 →
          t.seq h = Sequencer.bump { s.seq h with
            activity := some (.intervention .trip [.interlock] none)
            stack := ⟨s.saved h a, (s.carrier h).halt.position.transit?⟩ :: (s.seq h).stack } ∧
          .intervened h ∈ (t.port .recipe).notices) ∧
        (∀ h k cs x j js tr c, (s.seq h).state = .running → (s.seq h).activity = some (.intervention k cs x) → k ≠ .trip →
          (s.seq h).stack = [⟨.intervention j js, tr⟩, c] →
          t.seq h = { s.seq h with
            activity := some (.intervention .trip [.interlock] none)
            stack := [⟨.intervention k cs, (s.carrier h).halt.position.transit?⟩, ⟨.intervention j js, tr⟩]
            lost :=
              match c.saved with
              | .step w => some w.lostBy
              | .intervention _ _ => (s.seq h).lost.map fun l => { l with interventions := satSucc 255 l.interventions } } ∧
          .contextLost h ∈ (t.port .recipe).notices ∧ .intervened h ∈ (t.port .recipe).notices) ∧
        (∀ h, (s.seq h).state ≠ .running → t.seq h = s.seq h))

/-- VACUUM_CHANGE (R127): the sense follows its input; a wafer that disappears from a RUNNING head ends the list WAFER_LOST,
with the result of its step, in a final halt at a station and in CLOSING in transit. -/
def Obligations.VacuumChange : Prop :=
  ∀ (s : State) (h : HeadId) (v : Bool),
    (v = true ∨ (s.seq h).vacuum = false ∨ (s.seq h).state ≠ .running →
      exec (.vacuumChange h v) s = .next (s.modSeq h fun q => { q with vacuum := v })) ∧
    (v = false → (s.seq h).vacuum = true → (s.seq h).state = .running →
      ∃ t, exec (.vacuumChange h v) s = .next t ∧ t.isDown h = false ∧
        t.seq h = { s.seq h with
          vacuum := false, activity := none, stack := [], lost := none
          results := (s.seq h).results ++ (s.stepResult h .waferLost).toList
          state := match (s.carrier h).position with
            | .inTransit _ _ _ => .closing (.halted .waferLost)
            | _ => .halted (.final .waferLost) none } ∧
        (∀ d, (s.carrier h).position = .stands d →
          t.carrier h = s.carrier h ∧ .halted h ∈ (t.port .recipe).notices))

/-! ## Expiries and thresholds -/

/-- BAND_TIMEOUT (R72) and STALL_EXPIRY (R55, R56): the running timer's expiry begins LIFT over the activity of the head it
concerns, saves what stood, and lifts the head; a stall suspends the ex-situ run of a conditioner (R148). Where the timer
does not run the rows have nothing to act on (log entry 3). -/
def Obligations.BandAndStallExpiries : Prop :=
  (∀ (s : State) (h : HeadId),
    ((s.zone h).bandRunning = false → exec (.bandTimeout h) s = .next s.settle) ∧
    (∀ a, (s.zone h).bandRunning = true → (s.seq h).state = .running → (s.seq h).activity = some a → a.rank < 2 →
      (s.seq h).stack.length < 2 →
      ∃ t, exec (.bandTimeout h) s = .next t ∧
        t.seq h = Sequencer.bump { s.seq h with
          activity := some (.intervention .lift [.pressureBand] none)
          stack := ⟨s.saved h a, (s.carrier h).halt.position.transit?⟩ :: (s.seq h).stack } ∧
        t.isDown h = false ∧ .intervened h ∈ (t.port .recipe).notices)) ∧
  (∀ (s : State) (p : PlatenId),
    ((s.base p).stallTimer = none → exec (.stallExpiry p) s = .next s.settle) ∧
    ((s.base p).stallTimer ≠ none → s.trip.tripped = false → 0 < (s.base p).speed →
      (∀ h w r, s.headOn p = some h → s.isDown h = true → (s.seq h).state = .running →
        (s.seq h).activity = some (.step w) → w.record.kind = .polish r → w.platen = some p → 0 < r.speed →
        (s.seq h).stack = [] →
        ∃ t, exec (.stallExpiry p) s = .next t ∧ (t.base p).stalled = true ∧ (t.base p).stallTimer = none ∧
          t.seq h = Sequencer.bump { s.seq h with
            activity := some (.intervention .lift [.platenStall] none)
            stack := [⟨.step (s.collect h w).suspended, (s.carrier h).halt.position.transit?⟩] } ∧
          t.isDown h = false) ∧
      ((s.station (.platen p)).holder = some .conditioner → (s.cond p).runHeld = true →
        0 < (s.base p).config.conditioningSpeed →
        ∃ t, exec (.stallExpiry p) s = .next t ∧ (t.base p).stalled = true ∧ (t.base p).stallTimer = none ∧
          ((s.cond p).arm = .deploying .exSitu → (t.cond p).arm = .suspended .exSitu .deploying) ∧
          ((s.cond p).arm = .sweeping .exSitu → (t.cond p).arm = .suspended .exSitu .sweeping))))

/-- DWELL_END (R30, R38, R39): the DWELL step ends COMPLETED with its result; as the last of its list it leaves the head IDLE
with LIST_DONE. Where no dwell runs the row has nothing to act on (log entry 3). -/
def Obligations.DwellEnds : Prop :=
  ∀ (s : State) (h : HeadId),
    (s.dwelling h = none → exec (.dwellEnd h) s = .next s.settle) ∧
    (∀ w n, (s.seq h).state = .running → (s.seq h).activity = some (.step w) → w.record.kind = .dwell n →
      w.phase = some .dwell →
      ∃ t r, exec (.dwellEnd h) s = .next t ∧ (s.seq h).results ++ [r] <+: (t.seq h).results ∧ r.index = w.index ∧
        r.outcome = .completed ∧ r.startBeat = w.startBeat ∧ r.endBeat = s.beat.counter ∧
        ((s.seq h).steps.length ≤ w.index + 1 →
          .listDone h ∈ (t.port .recipe).notices ∧ t.carrier h = s.carrier h ∧
          t.seq h = { (s.seq h).applyAction w.record.action with
            results := (s.seq h).results ++ [r], activity := none, state := .idle }))

/-- ACCUMULATOR_LIMIT and OVERPOLISH_TARGET_MET (R35, R36, R60) on a step whose gate is on and whose units stand below the
value reached: the step ends COMPLETED, EP_MISS, or ENDPOINT (CLAMPED where the limit cuts the target off), with its result;
as the last of its list it leaves the head UP and IDLE with the flags of its outcome, and its line goes to the oldest waiting
nozzle (R83, State.HandedOn). With the gate off neither row has anything to act on (log entry 3). -/
def Obligations.AccumulatorEnds : Prop :=
  ∀ (s : State) (p : PlatenId),
    (s.gate p = false →
      exec (.accumulatorLimit p) s = .next s.settle ∧ exec (.overpolishTargetMet p) s = .next s.settle) ∧
    (∀ h w r limit clk, s.gate p = true → (s.base p).owner = some ⟨h, limit, clk⟩ → s.ownedPlaten h = some p →
      (s.seq h).activity = some (.step w) → w.record.kind = .polish r → (s.base p).accumulator < limit →
      (w.phase = some .polish → w.confirmed = none →
        ∃ t x, exec (.accumulatorLimit p) s = .next t ∧ (s.seq h).results ++ [x] <+: (t.seq h).results ∧
          x.index = w.index ∧ x.accrued = limit ∧
          x.outcome = (match r.termination with
            | .limit => .completed
            | .endpoint => .epMiss) ∧
          ((s.seq h).steps.length ≤ w.index + 1 → t.isDown h = false ∧
            t.seq h = { ((s.seq h).endpointFlags x.outcome).applyAction w.record.action with
              results := (s.seq h).results ++ [x], activity := none, state := .idle } ∧
            (∀ l f, s.headOn p = some h → (s.carrier h).position = .stands (.platen p) →
              (s.line l).state = .bound p h f → p ∉ (s.line l).wait →
              (∀ k m j, (s.line k).state = .bound m h j → k = l) → s.trip.tripped = false → s.IdleLinesFree →
              s.HandedOn t l))) ∧
      (∀ c, w.phase = some .overpolish → w.confirmed = some c → limit < c.capture.accrued + c.target →
        c.capture.accrued ≤ limit →
        ∃ t x, exec (.accumulatorLimit p) s = .next t ∧ (s.seq h).results ++ [x] <+: (t.seq h).results ∧
          x.outcome = .endpoint ∧ x.flags.clamped = true ∧ x.overpolish = limit - c.capture.accrued ∧
          x.capture = some c.capture) ∧
      (∀ c, w.phase = some .overpolish → w.confirmed = some c → c.capture.accrued + c.target ≤ limit →
        (s.base p).accumulator < c.capture.accrued + c.target →
        ∃ t x, exec (.overpolishTargetMet p) s = .next t ∧ (s.seq h).results ++ [x] <+: (t.seq h).results ∧
          x.outcome = .endpoint ∧ x.flags.clamped = w.flags.clamped ∧ x.overpolish = c.target ∧
          x.capture = some c.capture ∧
          ((s.seq h).steps.length ≤ w.index + 1 → t.isDown h = false ∧
            t.seq h = { ((s.seq h).endpointFlags .endpoint).applyAction w.record.action with
              results := (s.seq h).results ++ [x], activity := none, state := .idle })))

/-- GAP_END (R34, R35, R98): the step enters POLISH, or OVERPOLISH when it is confirmed already, on its POLISH set; a watch
opens for an ENDPOINT step that is not confirmed. SETTLE_END (R99): the settle is over and the watch starts at the present
revolution. Elsewhere the two rows have nothing to act on (log entry 3). -/
def Obligations.GapAndSettleEnds : Prop :=
  (∀ (s : State) (h : HeadId),
    ((∀ w r p, s.polishing h = some (w, r, p) → w.phase ≠ some .gap) → exec (.gapEnd h) s = .next s.settle) ∧
    (∀ w r p x b, s.polishing h = some (w, r, p) → w.phase = some .gap → (s.zone h).lift = .down x b →
      ∃ t, exec (.gapEnd h) s = .next t ∧ (t.zone h).lift = .down (.polish r.zones) b ∧
        t.seq h = { s.seq h with activity := some (.step { w with
          phase := some (if w.confirmed = none then .polish else .overpolish), gapRemaining := 0 }) } ∧
        (w.confirmed = none → r.termination = .endpoint →
          t.qual p = ⟨if r.settle = 0 then .watch h (s.base p).revolution else .settling h r.settle,
            none, none, 0, 0, 0, 0, 0, none⟩ ∧ .watchOpen p ∈ (t.port .endpoint).notices) ∧
        (w.confirmed ≠ none ∨ r.termination = .limit → t.quals = s.quals))) ∧
  (∀ (s : State) (p : PlatenId),
    (∀ h n, (s.qual p).state = .settling h n → exec (.settleEnd p) s =
      .next (s.modQual p fun q => { q with state := .watch h (s.base p).revolution })) ∧
    ((∀ h n, (s.qual p).state ≠ .settling h n) → exec (.settleEnd p) s = .next s))

/-- RUN_COMPLETE (R147, R157): the run of a sweeping arm is over, its owed sweeps are 0, a pad broken in is IN_SERVICE, the
arm stows, the station is released and RUN_DONE raised; a waiting head is granted a platen whose pad may be used (R8), and
the waiters of one whose pad is RETIRED or UNKNOWN are turned away, HALTED(STATION_UNAVAILABLE) (R8 step 4). Where no run
sweeps the row has nothing to act on (log entry 3). -/
def Obligations.RunCompletes : Prop :=
  ∀ (s : State) (p : PlatenId),
    ((s.cond p).runHeld = false ∨ (s.cond p).arm ≠ .sweeping .exSitu → exec (.runComplete p) s = .next s.settle) ∧
    ((s.cond p).runHeld = true → (s.cond p).arm = .sweeping .exSitu →
      (s.station (.platen p)).holder = some .conditioner →
      ∃ t, exec (.runComplete p) s = .next t ∧
        t.pad p = { s.pad p with
          owed := 0, sinceExSitu := 0, state := if (s.pad p).state = .breakIn then .inService else (s.pad p).state } ∧
        (t.cond p).runHeld = false ∧ (t.cond p).sweepsDone = 0 ∧ (t.cond p).position = (s.cond p).position ∧
        (t.cond p).arm = (if (s.cond p).position ≤ (s.base p).config.stow then .stowed else .stowing) ∧
        .runDone p ∈ (t.port .recipe).notices ∧
        ((s.station (.platen p)).wait = [] →
          t.station (.platen p) = { s.station (.platen p) with holder := none } ∧ (t.base p).speed = 0) ∧
        (∀ g rest, (s.station (.platen p)).wait = g :: rest → s.trip.tripped = false →
          (s.pad p).state = .breakIn ∨ (s.pad p).state = .inService ∨ (s.pad p).state = .warn →
          t.station (.platen p) = { s.station (.platen p) with holder := some (.head g), wait := rest } ∧
          (t.carrier g).position = .inTransit (s.stationOf g) (.platen p) (.moving 0 (s.carrier g).moveLimit) ∧
          t.seq g = { s.seq g with activity := (s.seq g).activity.map Activity.granted }) ∧
        ((s.pad p).state = .unknown ∨ (s.pad p).state = .retired →
          t.station (.platen p) = { s.station (.platen p) with holder := none, wait := [] } ∧
          ∀ g ∈ (s.station (.platen p)).wait, (s.seq g).state = .running →
            (t.seq g).state = .halted .stationUnavailable none ∧ .halted g ∈ (t.port .recipe).notices))

/-- PAD_WARN, PAD_RETIRED (R155) and DISK_SPENT (R154): under a pressing head the life used reaches the limit and the pad
passes to WARN, or from WARN to RETIRED, with its notice; an ACTIVE disk on a sweeping arm reaches its limit and is SPENT.
Elsewhere the rows have nothing to act on (log entry 3). -/
def Obligations.PadAndDiskLimits : Prop :=
  ∀ (s : State) (p : PlatenId),
    (s.padPressed p = true → (s.pad p).state = .inService →
      exec (.padWarn p) s = .next ((s.setPad p { s.pad p with
        life := max (satSucc 4294967295 (s.pad p).life) (s.pad p).warnLimit, state := .warn }).raise .recipe
          (.padWarn p)).settle) ∧
    (s.padPressed p = false ∨ (s.pad p).state ≠ .inService → exec (.padWarn p) s = .next s.settle) ∧
    (s.padPressed p = true → (s.pad p).state = .warn →
      exec (.padRetired p) s = .next ((s.setPad p { s.pad p with
        life := max (satSucc 4294967295 (s.pad p).life) (s.pad p).retireLimit, state := .retired }).raise .recipe
          (.padRetired p)).settle) ∧
    (s.padPressed p = false ∨ (s.pad p).state ≠ .warn → exec (.padRetired p) s = .next s.settle) ∧
    ((s.disk p).state = .active → (s.cond p).arm.isSweeping = true →
      exec (.diskSpent p) s = .next ((s.setDisk p { s.disk p with
        used := max (satSucc 4294967295 (s.disk p).used) (s.disk p).limit, state := .spent }).raise .recipe
          (.diskSpent p))) ∧
    ((s.disk p).state ≠ .active ∨ (s.cond p).arm.isSweeping = false → exec (.diskSpent p) s = .next s)

/-! ## What the blocks answer and set -/

/-- A head's request for a station (R4), case by case in its order, and the chain of
waiting that decides a cycle, step by step (R5): it ends at a holder that is no head or awaits nothing, closes where the awaited
station is held by the asker, and else goes on there, so that a cycle of three heads is answered CYCLE as one of two is. A
step's request for a line (R79), case by case: it keeps a line bound to its nozzle, is turned down on a DISABLED one, binds a
free one, is told of a FAULTED one if it resumes, and else waits at the tail with LINE_WAIT. -/
def Obligations.StationRequests : Prop :=
  (∀ (s : State) (h : HeadId) (d : StationId),
     ((s.carrier h).position = .stands d → s.acquire h d = (s, .alreadyHeld)) ∧
     (∀ o n l, (s.carrier h).position = .inTransit o d (.moving n l) → s.acquire h d = (s, .forward)) ∧
     (∀ o st, (s.carrier h).position = .inTransit o d st → (∀ n l, st ≠ .moving n l) → s.trip.tripped = false →
       s.acquire h d = (s.modCarrier h fun c => { c with
         position := .inTransit o d (.moving 0 c.moveLimit)
         moveNumber := c.moveNumber + 1
         sent := c.sent ++ [.move d (c.moveNumber + 1)] }, .forward)) ∧
     (∀ e n l, (s.carrier h).position = .inTransit d e (.moving n l) → e ≠ d → s.trip.tripped = false →
       s.acquire h d = (s.modCarrier h fun c => { c with
         position := .inTransit e d (.moving 0 c.moveLimit)
         moveNumber := c.moveNumber + 1
         sent := c.sent ++ [.halt] ++ [.move d (c.moveNumber + 1)] }, .reversed)) ∧
     (∀ o e st, (s.carrier h).position = .inTransit o e st → o ≠ d → e ≠ d → s.acquire h d = (s, .inTransit)) ∧
     (∀ o, (s.carrier h).position = .stands o → o ≠ d →
       ((s.station d).inService = false ∨ (∃ p, d = .platen p ∧ ((s.pad p).state = .unknown ∨ (s.pad p).state = .retired)) →
         s.acquire h d = (s, .unavailable)) ∧
       (s.closedTo d = false → (s.station d).holder = none →
         ((∃ p, d = .platen p ∧ (0 < (s.pad p).owed ∨ (s.pad p).state = .breakIn)) →
           s.acquire h d = (s, .unavailable)) ∧
         ((∀ p, d = .platen p → (s.pad p).owed = 0 ∧ (s.pad p).state ≠ .breakIn) → s.trip.tripped = false →
           s.acquire h d = ((s.modStation d fun k => { k with holder := some (.head h) }).modCarrier h fun c =>
             { c with
               position := .inTransit o d (.moving 0 c.moveLimit)
               moveNumber := c.moveNumber + 1
               sent := c.sent ++ [.move d (c.moveNumber + 1)] }, .granted))) ∧
       (s.closedTo d = false → (s.station d).holder ≠ none →
         (s.closesCycle h 4 d = true → s.acquire h d = (s, .cycle)) ∧
         (s.closesCycle h 4 d = false → 3 ≤ (s.station d).wait.length → s.acquire h d = (s, .unavailable)) ∧
         (s.closesCycle h 4 d = false → (s.station d).wait.length < 3 → h ∉ (s.station d).wait →
           s.acquire h d = (s.modStation d fun k => { k with wait := k.wait ++ [h] }, .queued)))) ∧
     (∀ g, (s.station d).holder = some (.head g) → s.awaited g = none → s.closesCycle h 4 d = false) ∧
     (∀ g x, (s.station d).holder = some (.head g) → s.awaited g = some x → (s.station x).holder = some (.head h) →
       s.closesCycle h 4 d = true) ∧
     (∀ g x n, (s.station d).holder = some (.head g) → s.awaited g = some x → (s.station x).holder ≠ some (.head h) →
       s.closesCycle h (n + 1) d = s.closesCycle h n x) ∧
     (∀ g x k y, (s.station d).holder = some (.head g) → s.awaited g = some x → (s.station x).holder = some (.head k) →
       s.awaited k = some y → (s.station y).holder = some (.head h) →
       s.closesCycle h 4 d = true ∧
       ∀ o, (s.carrier h).position = .stands o → o ≠ d → s.closedTo d = false → s.acquire h d = (s, .cycle)) ∧
     ((s.station d).holder = none ∨ (s.station d).holder = some .conditioner →
       s.closesCycle h 4 d = false ∧ ∀ n, s.closesCycle h n d = false)) ∧
  (∀ (s : State) (l : LineId) (n : NozzleId) (h : HeadId) (flow : Nat) (resuming : Bool),
    (∀ g f, (s.line l).state = .bound n g f → s.acquireLine l n h flow resuming = (s, .bound)) ∧
    ((s.line l).state = .disabled → s.acquireLine l n h flow resuming = (s, .unavailable)) ∧
    ((s.line l).state = .idle → (s.line l).wait = [] → s.trip.tripped = false →
      s.acquireLine l n h flow resuming = (s.setLine l { s.line l with state := .bound n h flow }, .bound)) ∧
    (∀ x, (s.line l).state = .faulted x → s.acquireLine l n h flow true = (s, .faulted)) ∧
    ((∃ m g f, (s.line l).state = .bound m g f ∧ m ≠ n) ∨ (resuming = false ∧ ∃ x, (s.line l).state = .faulted x) ∨
        ((s.line l).state = .idle ∧ ((s.line l).wait ≠ [] ∨ s.trip.tripped = true)) →
      n ∉ (s.line l).wait →
      s.acquireLine l n h flow resuming =
        ((s.setLine l { s.line l with wait := (s.line l).wait ++ [n] }).raise .recipe (.lineWait h), .queued)))

/-- A settled part has the speeds that R54 gives, in its order, with neither stall timer nor stalled mark at a setpoint of 0
(R55), and K as the outer limit of an arm under a DOWN head or one in KEEPOUT_WAIT, O under any other head and under none
(R138). -/
def Obligations.SpeedSetpoints : Prop :=
  ∀ (s : State) (p : PlatenId), s.Settled →
    (s.trip.tripped = true → (s.base p).speed = 0) ∧
    ((s.base p).speed = 0 → (s.base p).stallTimer = none ∧ (s.base p).stalled = false) ∧
    (s.trip.tripped = false →
      ((s.station (.platen p)).holder = none → (s.base p).speed = 0) ∧
      ((s.station (.platen p)).holder = some .conditioner →
        (s.base p).speed = if (s.cond p).runHeld then (s.base p).config.conditioningSpeed else 0) ∧
      (∀ h, s.headOn p = some h →
        ((s.seq h).state ≠ .running → (s.base p).speed = 0) ∧
        (∀ w r f, (s.seq h).state = .running → (s.seq h).activity = some (.step w) → w.record.kind = .polish r →
          w.platen = some p → w.phase = some f → f.atPlaten = true → (s.base p).speed = r.speed) ∧
        (∀ k cs x w r tr, (s.seq h).state = .running → (s.seq h).activity = some (.intervention k cs x) →
          k = .rinse ∨ k = .lift → (s.seq h).stack = [⟨.step w, tr⟩] → w.record.kind = .polish r →
          w.platen = some p → (s.base p).speed = r.speed) ∧
        (∀ k cs x, (s.seq h).state = .running → (s.seq h).activity = some (.intervention k cs x) →
          k = .park ∨ k = .trip → (s.base p).speed = 0) ∧
        (∀ w n, (s.seq h).state = .running → (s.seq h).activity = some (.step w) → w.record.kind = .dwell n →
          (s.base p).speed = 0))) ∧
    (∀ h, s.headOn p = some h → s.isDown h = true → (s.cond p).outer = .keepOut) ∧
    (∀ h w r, s.headOn p = some h → (s.seq h).activity = some (.step w) → w.record.kind = .polish r →
      w.phase = some .keepoutWait → (s.cond p).outer = .keepOut) ∧
    (∀ h, s.headOn p = some h → s.isDown h = false →
      (∀ w r, (s.seq h).activity = some (.step w) → w.record.kind = .polish r → w.phase ≠ some .keepoutWait) →
      (s.cond p).outer = .outer) ∧
    (s.headOn p = none → (s.cond p).outer = .outer)

/-! ## What every step keeps -/

/-- Every speed setpoint, stall timer and effective outer limit stays the one its rule gives (R54, R55, R138). -/
def Obligations.SettledIsKept : Prop := ∀ s t : State, s.Settled → step s = .next t → t.Settled

/-- While the module is tripped every head is UP, no move is commanded and no line is bound; and a module whose input stands
at the trip level is tripped (R128). -/
def Obligations.TripIsKept : Prop :=
  ∀ s t : State, s.TripHolds → s.ClearIsSafe → step s = .next t → t.TripHolds ∧ t.ClearIsSafe

/-- The pending sets stay canonical, no name stands twice in a wait list, and every list, stack and wait list stays within
its size (R3, R19, R78, R116, R169); every platen keeps a configuration in its ranges and an angle below CPR, every arm
position stays in its counter (R49, R64, R135), and no arm is given a speed or a downforce in a state that has none (R136). -/
def Obligations.ListsAndRangesAreKept : Prop :=
  (∀ s t : State, s.NoticesCanonical → s.WaitsNodup → s.StoresInRange → step s = .next t →
    t.NoticesCanonical ∧ t.WaitsNodup ∧ t.StoresInRange) ∧
  (∀ s t : State, s.ConfigsValid → s.AnglesInRange → s.ArmsInRange → s.ArmsDriven → step s = .next t →
    t.ConfigsValid ∧ t.AnglesInRange ∧ t.ArmsInRange ∧ t.ArmsDriven)

/-- The frame of all commands and of the idle millisecond: each piece of configuration is changed by the request that writes
it, each field input and each position by its own event, a window by no command at all, and by nothing else but a
cold reset. -/
def Obligations.OnlyItsOwnCommandWrites : Prop :=
  ∀ (s t : State) (front : Option Instr), front = s.pending.head? → step s = .next t →
    (∀ x, front ≠ some (.coldReset x)) →
    ((∀ q b, front ≠ some (.listWrite q b)) → (∀ q b, front ≠ some (.listClear q b)) →
      ∀ h, (t.seq h).steps = (s.seq h).steps) ∧
    ((∀ q b, front ≠ some (.headConfig q b)) → ∀ h, (t.zone h).rinsePressure = (s.zone h).rinsePressure ∧
      (t.zone h).bandTimeout = (s.zone h).bandTimeout ∧ (t.carrier h).moveLimit = (s.carrier h).moveLimit) ∧
    ((∀ q b, front ≠ some (.platenConfig q b)) → ∀ p, (t.base p).config = (s.base p).config) ∧
    ((∀ q b, front ≠ some (.lineConfig q b)) → ∀ l, (t.line l).cls = (s.line l).cls ∧
      (t.line l).recoveryTime = (s.line l).recoveryTime) ∧
    ((∀ q b, front ≠ some (.moduleConfig q b)) → t.trip.sense = s.trip.sense ∧ t.beat.period = s.beat.period ∧
      t.beat.claimLimit = s.beat.claimLimit) ∧
    ((∀ q b, front ≠ some (.serviceSet q b)) → ∀ d, (t.station d).inService = (s.station d).inService) ∧
    ((∀ q b, front ≠ some (.padInstall q b)) → (∀ q b, front ≠ some (.padRestore q b)) →
      ∀ p, (t.pad p).padId = (s.pad p).padId ∧ (t.pad p).warnLimit = (s.pad p).warnLimit ∧
        (t.pad p).retireLimit = (s.pad p).retireLimit ∧ (t.pad p).interval = (s.pad p).interval ∧
        (t.pad p).exSituSweeps = (s.pad p).exSituSweeps ∧ (t.pad p).breakInSweeps = (s.pad p).breakInSweeps) ∧
    ((∀ q b, front ≠ some (.diskInstall q b)) →
      ∀ p, (t.disk p).diskId = (s.disk p).diskId ∧ (t.disk p).limit = (s.disk p).limit) ∧
    ((∀ q b, front ≠ some (.noticeMask q b)) → ∀ q, (t.port q).mask = (s.port q).mask) ∧
    ((∀ p d, front ≠ some (.platenCount p d)) → (∀ p, front ≠ some (.indexPulse p)) →
      (∀ q b, front ≠ some (.platenConfig q b)) →
      ∀ p, (t.base p).position = (s.base p).position ∧ (t.base p).revolution = (s.base p).revolution ∧
        (t.base p).direction = (s.base p).direction) ∧
    ((∀ p d, front ≠ some (.armCount p d)) → ∀ p, (t.cond p).position = (s.cond p).position) ∧
    ((∀ h z v, front ≠ some (.inBandChange h z v)) → ∀ h, (t.zone h).inBand = (s.zone h).inBand) ∧
    ((∀ l v, front ≠ some (.supplyReadyChange l v)) → ∀ l, (t.line l).supplyReady = (s.line l).supplyReady) ∧
    ((∀ v, front ≠ some (.interlockChange v)) → t.trip.input = s.trip.input) ∧
    (∀ q, (t.port q).window = (s.port q).window) ∧
    ((∀ h v, front ≠ some (.vacuumChange h v)) → ∀ h, (t.seq h).vacuum = (s.seq h).vacuum)

/-- The beat counter does not decrease but at a cold reset (R178); neither do the life and the wafers of a pad, but where a
pad record is written or the part is cold reset (R153, R158, R159). -/
def Obligations.CountersDoNotDecrease : Prop :=
  ∀ s t : State, step s = .next t →
    ((∀ sel rest, s.pending ≠ .coldReset sel :: rest) → s.beat.counter ≤ t.beat.counter) ∧
    ((∀ sel rest, s.pending ≠ .coldReset sel :: rest) → (∀ q b rest, s.pending ≠ .padInstall q b :: rest) →
      (∀ q b rest, s.pending ≠ .padRestore q b :: rest) →
      ∀ p, (s.pad p).life ≤ (t.pad p).life ∧ (s.pad p).wafers ≤ (t.pad p).wafers)
end

