-- ==== Sys2Proof/Laws/State.lean ====
section
/-!
SUPPORT. Reading a state after an update: one lemma for each accessor under each update, so that no proof unfolds a record
update.
-/
namespace Sys2Proof.Machine

/-! ## Tables -/
@[simp] theorem PerHead.get_set_self {α : Type} (t : PerHead α) (i : HeadId) (x : α) : (t.set i x).get i = x := by
  cases i <;> rfl

theorem PerHead.get_set_ne {α : Type} (t : PerHead α) {i j : HeadId} (x : α) (h : j ≠ i) : (t.set i x).get j = t.get j := by
  cases i <;> cases j <;> first | rfl | exact absurd rfl h

theorem PerHead.get_set {α : Type} (t : PerHead α) (i j : HeadId) (x : α) :
    (t.set i x).get j = if j = i then x else t.get j := by
  by_cases h : j = i
  · subst h; simp
  · simp [h, PerHead.get_set_ne t x h]

@[simp] theorem PerHead.set_get {α : Type} (t : PerHead α) (i : HeadId) : t.set i (t.get i) = t := by
  cases i <;> rfl

@[simp] theorem PerPlaten.get_set_self {α : Type} (t : PerPlaten α) (i : PlatenId) (x : α) : (t.set i x).get i = x := by
  cases i <;> rfl

theorem PerPlaten.get_set_ne {α : Type} (t : PerPlaten α) {i j : PlatenId} (x : α) (h : j ≠ i) : (t.set i x).get j = t.get j := by
  cases i <;> cases j <;> first | rfl | exact absurd rfl h

theorem PerPlaten.get_set {α : Type} (t : PerPlaten α) (i j : PlatenId) (x : α) :
    (t.set i x).get j = if j = i then x else t.get j := by
  by_cases h : j = i
  · subst h; simp
  · simp [h, PerPlaten.get_set_ne t x h]

@[simp] theorem PerPlaten.set_get {α : Type} (t : PerPlaten α) (i : PlatenId) : t.set i (t.get i) = t := by
  cases i <;> rfl

@[simp] theorem PerLine.get_set_self {α : Type} (t : PerLine α) (i : LineId) (x : α) : (t.set i x).get i = x := by
  cases i <;> rfl

theorem PerLine.get_set_ne {α : Type} (t : PerLine α) {i j : LineId} (x : α) (h : j ≠ i) : (t.set i x).get j = t.get j := by
  cases i <;> cases j <;> first | rfl | exact absurd rfl h

theorem PerLine.get_set {α : Type} (t : PerLine α) (i j : LineId) (x : α) :
    (t.set i x).get j = if j = i then x else t.get j := by
  by_cases h : j = i
  · subst h; simp
  · simp [h, PerLine.get_set_ne t x h]

@[simp] theorem PerLine.set_get {α : Type} (t : PerLine α) (i : LineId) : t.set i (t.get i) = t := by
  cases i <;> rfl

@[simp] theorem PerStation.get_set_self {α : Type} (t : PerStation α) (i : StationId) (x : α) : (t.set i x).get i = x := by
  rcases i with _ | p | _ <;> (try cases p) <;> rfl

theorem PerStation.get_set_ne {α : Type} (t : PerStation α) {i j : StationId} (x : α) (h : j ≠ i) : (t.set i x).get j = t.get j := by
  rcases i with _ | p | _ <;> rcases j with _ | r | _ <;> (try cases p) <;> (try cases r) <;> first | rfl | exact absurd rfl h

theorem PerStation.get_set {α : Type} (t : PerStation α) (i j : StationId) (x : α) :
    (t.set i x).get j = if j = i then x else t.get j := by
  by_cases h : j = i
  · subst h; simp
  · simp [h, PerStation.get_set_ne t x h]

@[simp] theorem PerStation.set_get {α : Type} (t : PerStation α) (i : StationId) : t.set i (t.get i) = t := by
  rcases i with _ | p | _ <;> (try cases p) <;> rfl

@[simp] theorem PerZone.get_set_self {α : Type} (t : PerZone α) (i : ZoneId) (x : α) : (t.set i x).get i = x := by
  cases i <;> rfl

theorem PerZone.get_set_ne {α : Type} (t : PerZone α) {i j : ZoneId} (x : α) (h : j ≠ i) : (t.set i x).get j = t.get j := by
  cases i <;> cases j <;> first | rfl | exact absurd rfl h

theorem PerZone.get_set {α : Type} (t : PerZone α) (i j : ZoneId) (x : α) :
    (t.set i x).get j = if j = i then x else t.get j := by
  by_cases h : j = i
  · subst h; simp
  · simp [h, PerZone.get_set_ne t x h]

@[simp] theorem PerZone.set_get {α : Type} (t : PerZone α) (i : ZoneId) : t.set i (t.get i) = t := by
  cases i <;> rfl

@[simp] theorem PerPort.get_set_self {α : Type} (t : PerPort α) (i : Port) (x : α) : (t.set i x).get i = x := by
  cases i <;> rfl

theorem PerPort.get_set_ne {α : Type} (t : PerPort α) {i j : Port} (x : α) (h : j ≠ i) : (t.set i x).get j = t.get j := by
  cases i <;> cases j <;> first | rfl | exact absurd rfl h

theorem PerPort.get_set {α : Type} (t : PerPort α) (i j : Port) (x : α) :
    (t.set i x).get j = if j = i then x else t.get j := by
  by_cases h : j = i
  · subst h; simp
  · simp [h, PerPort.get_set_ne t x h]

@[simp] theorem PerPort.set_get {α : Type} (t : PerPort α) (i : Port) : t.set i (t.get i) = t := by
  cases i <;> rfl

/-! ## Accessors under setters -/

@[simp] theorem State.station_setStation_self (s : State) (i : StationId) (x : Station) : (s.setStation i x).station i = x := by
  simp [State.station, State.setStation]

theorem State.station_setStation_ne (s : State) {i j : StationId} (x : Station) (h : j ≠ i) : (s.setStation i x).station j = s.station j := by
  simp [State.station, State.setStation, PerStation.get_set_ne _ x h]

theorem State.station_setStation (s : State) (i j : StationId) (x : Station) :
    (s.setStation i x).station j = if j = i then x else s.station j := by
  simp [State.station, State.setStation, PerStation.get_set]

@[simp] theorem State.setStation_station (s : State) (i : StationId) : s.setStation i (s.station i) = s := by
  simp [State.station, State.setStation]
@[simp] theorem State.carrier_setStation (s : State) (i : StationId) (x : Station) (j : HeadId) : (s.setStation i x).carrier j = s.carrier j := rfl
@[simp] theorem State.seq_setStation (s : State) (i : StationId) (x : Station) (j : HeadId) : (s.setStation i x).seq j = s.seq j := rfl
@[simp] theorem State.zone_setStation (s : State) (i : StationId) (x : Station) (j : HeadId) : (s.setStation i x).zone j = s.zone j := rfl
@[simp] theorem State.base_setStation (s : State) (i : StationId) (x : Station) (j : PlatenId) : (s.setStation i x).base j = s.base j := rfl
@[simp] theorem State.qual_setStation (s : State) (i : StationId) (x : Station) (j : PlatenId) : (s.setStation i x).qual j = s.qual j := rfl
@[simp] theorem State.cond_setStation (s : State) (i : StationId) (x : Station) (j : PlatenId) : (s.setStation i x).cond j = s.cond j := rfl
@[simp] theorem State.pad_setStation (s : State) (i : StationId) (x : Station) (j : PlatenId) : (s.setStation i x).pad j = s.pad j := rfl
@[simp] theorem State.disk_setStation (s : State) (i : StationId) (x : Station) (j : PlatenId) : (s.setStation i x).disk j = s.disk j := rfl
@[simp] theorem State.line_setStation (s : State) (i : StationId) (x : Station) (j : LineId) : (s.setStation i x).line j = s.line j := rfl
@[simp] theorem State.port_setStation (s : State) (i : StationId) (x : Station) (j : Port) : (s.setStation i x).port j = s.port j := rfl
@[simp] theorem State.trip_setStation (s : State) (i : StationId) (x : Station) : (s.setStation i x).trip = s.trip := rfl
@[simp] theorem State.beat_setStation (s : State) (i : StationId) (x : Station) : (s.setStation i x).beat = s.beat := rfl
@[simp] theorem State.freeCount_setStation (s : State) (i : StationId) (x : Station) : (s.setStation i x).freeCount = s.freeCount := rfl
@[simp] theorem State.pending_setStation (s : State) (i : StationId) (x : Station) : (s.setStation i x).pending = s.pending := rfl

@[simp] theorem State.carrier_setCarrier_self (s : State) (i : HeadId) (x : Carrier) : (s.setCarrier i x).carrier i = x := by
  simp [State.carrier, State.setCarrier]

theorem State.carrier_setCarrier_ne (s : State) {i j : HeadId} (x : Carrier) (h : j ≠ i) : (s.setCarrier i x).carrier j = s.carrier j := by
  simp [State.carrier, State.setCarrier, PerHead.get_set_ne _ x h]

theorem State.carrier_setCarrier (s : State) (i j : HeadId) (x : Carrier) :
    (s.setCarrier i x).carrier j = if j = i then x else s.carrier j := by
  simp [State.carrier, State.setCarrier, PerHead.get_set]

@[simp] theorem State.setCarrier_carrier (s : State) (i : HeadId) : s.setCarrier i (s.carrier i) = s := by
  simp [State.carrier, State.setCarrier]
@[simp] theorem State.station_setCarrier (s : State) (i : HeadId) (x : Carrier) (j : StationId) : (s.setCarrier i x).station j = s.station j := rfl
@[simp] theorem State.seq_setCarrier (s : State) (i : HeadId) (x : Carrier) (j : HeadId) : (s.setCarrier i x).seq j = s.seq j := rfl
@[simp] theorem State.zone_setCarrier (s : State) (i : HeadId) (x : Carrier) (j : HeadId) : (s.setCarrier i x).zone j = s.zone j := rfl
@[simp] theorem State.base_setCarrier (s : State) (i : HeadId) (x : Carrier) (j : PlatenId) : (s.setCarrier i x).base j = s.base j := rfl
@[simp] theorem State.qual_setCarrier (s : State) (i : HeadId) (x : Carrier) (j : PlatenId) : (s.setCarrier i x).qual j = s.qual j := rfl
@[simp] theorem State.cond_setCarrier (s : State) (i : HeadId) (x : Carrier) (j : PlatenId) : (s.setCarrier i x).cond j = s.cond j := rfl
@[simp] theorem State.pad_setCarrier (s : State) (i : HeadId) (x : Carrier) (j : PlatenId) : (s.setCarrier i x).pad j = s.pad j := rfl
@[simp] theorem State.disk_setCarrier (s : State) (i : HeadId) (x : Carrier) (j : PlatenId) : (s.setCarrier i x).disk j = s.disk j := rfl
@[simp] theorem State.line_setCarrier (s : State) (i : HeadId) (x : Carrier) (j : LineId) : (s.setCarrier i x).line j = s.line j := rfl
@[simp] theorem State.port_setCarrier (s : State) (i : HeadId) (x : Carrier) (j : Port) : (s.setCarrier i x).port j = s.port j := rfl
@[simp] theorem State.trip_setCarrier (s : State) (i : HeadId) (x : Carrier) : (s.setCarrier i x).trip = s.trip := rfl
@[simp] theorem State.beat_setCarrier (s : State) (i : HeadId) (x : Carrier) : (s.setCarrier i x).beat = s.beat := rfl
@[simp] theorem State.freeCount_setCarrier (s : State) (i : HeadId) (x : Carrier) : (s.setCarrier i x).freeCount = s.freeCount := rfl
@[simp] theorem State.pending_setCarrier (s : State) (i : HeadId) (x : Carrier) : (s.setCarrier i x).pending = s.pending := rfl

@[simp] theorem State.seq_setSeq_self (s : State) (i : HeadId) (x : Sequencer) : (s.setSeq i x).seq i = x := by
  simp [State.seq, State.setSeq]

theorem State.seq_setSeq_ne (s : State) {i j : HeadId} (x : Sequencer) (h : j ≠ i) : (s.setSeq i x).seq j = s.seq j := by
  simp [State.seq, State.setSeq, PerHead.get_set_ne _ x h]

theorem State.seq_setSeq (s : State) (i j : HeadId) (x : Sequencer) :
    (s.setSeq i x).seq j = if j = i then x else s.seq j := by
  simp [State.seq, State.setSeq, PerHead.get_set]

@[simp] theorem State.setSeq_seq (s : State) (i : HeadId) : s.setSeq i (s.seq i) = s := by
  simp [State.seq, State.setSeq]
@[simp] theorem State.station_setSeq (s : State) (i : HeadId) (x : Sequencer) (j : StationId) : (s.setSeq i x).station j = s.station j := rfl
@[simp] theorem State.carrier_setSeq (s : State) (i : HeadId) (x : Sequencer) (j : HeadId) : (s.setSeq i x).carrier j = s.carrier j := rfl
@[simp] theorem State.zone_setSeq (s : State) (i : HeadId) (x : Sequencer) (j : HeadId) : (s.setSeq i x).zone j = s.zone j := rfl
@[simp] theorem State.base_setSeq (s : State) (i : HeadId) (x : Sequencer) (j : PlatenId) : (s.setSeq i x).base j = s.base j := rfl
@[simp] theorem State.qual_setSeq (s : State) (i : HeadId) (x : Sequencer) (j : PlatenId) : (s.setSeq i x).qual j = s.qual j := rfl
@[simp] theorem State.cond_setSeq (s : State) (i : HeadId) (x : Sequencer) (j : PlatenId) : (s.setSeq i x).cond j = s.cond j := rfl
@[simp] theorem State.pad_setSeq (s : State) (i : HeadId) (x : Sequencer) (j : PlatenId) : (s.setSeq i x).pad j = s.pad j := rfl
@[simp] theorem State.disk_setSeq (s : State) (i : HeadId) (x : Sequencer) (j : PlatenId) : (s.setSeq i x).disk j = s.disk j := rfl
@[simp] theorem State.line_setSeq (s : State) (i : HeadId) (x : Sequencer) (j : LineId) : (s.setSeq i x).line j = s.line j := rfl
@[simp] theorem State.port_setSeq (s : State) (i : HeadId) (x : Sequencer) (j : Port) : (s.setSeq i x).port j = s.port j := rfl
@[simp] theorem State.trip_setSeq (s : State) (i : HeadId) (x : Sequencer) : (s.setSeq i x).trip = s.trip := rfl
@[simp] theorem State.beat_setSeq (s : State) (i : HeadId) (x : Sequencer) : (s.setSeq i x).beat = s.beat := rfl
@[simp] theorem State.freeCount_setSeq (s : State) (i : HeadId) (x : Sequencer) : (s.setSeq i x).freeCount = s.freeCount := rfl
@[simp] theorem State.pending_setSeq (s : State) (i : HeadId) (x : Sequencer) : (s.setSeq i x).pending = s.pending := rfl

@[simp] theorem State.zone_setZone_self (s : State) (i : HeadId) (x : ZoneMonitor) : (s.setZone i x).zone i = x := by
  simp [State.zone, State.setZone]

theorem State.zone_setZone_ne (s : State) {i j : HeadId} (x : ZoneMonitor) (h : j ≠ i) : (s.setZone i x).zone j = s.zone j := by
  simp [State.zone, State.setZone, PerHead.get_set_ne _ x h]

theorem State.zone_setZone (s : State) (i j : HeadId) (x : ZoneMonitor) :
    (s.setZone i x).zone j = if j = i then x else s.zone j := by
  simp [State.zone, State.setZone, PerHead.get_set]

@[simp] theorem State.setZone_zone (s : State) (i : HeadId) : s.setZone i (s.zone i) = s := by
  simp [State.zone, State.setZone]
@[simp] theorem State.station_setZone (s : State) (i : HeadId) (x : ZoneMonitor) (j : StationId) : (s.setZone i x).station j = s.station j := rfl
@[simp] theorem State.carrier_setZone (s : State) (i : HeadId) (x : ZoneMonitor) (j : HeadId) : (s.setZone i x).carrier j = s.carrier j := rfl
@[simp] theorem State.seq_setZone (s : State) (i : HeadId) (x : ZoneMonitor) (j : HeadId) : (s.setZone i x).seq j = s.seq j := rfl
@[simp] theorem State.base_setZone (s : State) (i : HeadId) (x : ZoneMonitor) (j : PlatenId) : (s.setZone i x).base j = s.base j := rfl
@[simp] theorem State.qual_setZone (s : State) (i : HeadId) (x : ZoneMonitor) (j : PlatenId) : (s.setZone i x).qual j = s.qual j := rfl
@[simp] theorem State.cond_setZone (s : State) (i : HeadId) (x : ZoneMonitor) (j : PlatenId) : (s.setZone i x).cond j = s.cond j := rfl
@[simp] theorem State.pad_setZone (s : State) (i : HeadId) (x : ZoneMonitor) (j : PlatenId) : (s.setZone i x).pad j = s.pad j := rfl
@[simp] theorem State.disk_setZone (s : State) (i : HeadId) (x : ZoneMonitor) (j : PlatenId) : (s.setZone i x).disk j = s.disk j := rfl
@[simp] theorem State.line_setZone (s : State) (i : HeadId) (x : ZoneMonitor) (j : LineId) : (s.setZone i x).line j = s.line j := rfl
@[simp] theorem State.port_setZone (s : State) (i : HeadId) (x : ZoneMonitor) (j : Port) : (s.setZone i x).port j = s.port j := rfl
@[simp] theorem State.trip_setZone (s : State) (i : HeadId) (x : ZoneMonitor) : (s.setZone i x).trip = s.trip := rfl
@[simp] theorem State.beat_setZone (s : State) (i : HeadId) (x : ZoneMonitor) : (s.setZone i x).beat = s.beat := rfl
@[simp] theorem State.freeCount_setZone (s : State) (i : HeadId) (x : ZoneMonitor) : (s.setZone i x).freeCount = s.freeCount := rfl
@[simp] theorem State.pending_setZone (s : State) (i : HeadId) (x : ZoneMonitor) : (s.setZone i x).pending = s.pending := rfl

@[simp] theorem State.base_setBase_self (s : State) (i : PlatenId) (x : Timebase) : (s.setBase i x).base i = x := by
  simp [State.base, State.setBase]

theorem State.base_setBase_ne (s : State) {i j : PlatenId} (x : Timebase) (h : j ≠ i) : (s.setBase i x).base j = s.base j := by
  simp [State.base, State.setBase, PerPlaten.get_set_ne _ x h]

theorem State.base_setBase (s : State) (i j : PlatenId) (x : Timebase) :
    (s.setBase i x).base j = if j = i then x else s.base j := by
  simp [State.base, State.setBase, PerPlaten.get_set]

@[simp] theorem State.setBase_base (s : State) (i : PlatenId) : s.setBase i (s.base i) = s := by
  simp [State.base, State.setBase]
@[simp] theorem State.station_setBase (s : State) (i : PlatenId) (x : Timebase) (j : StationId) : (s.setBase i x).station j = s.station j := rfl
@[simp] theorem State.carrier_setBase (s : State) (i : PlatenId) (x : Timebase) (j : HeadId) : (s.setBase i x).carrier j = s.carrier j := rfl
@[simp] theorem State.seq_setBase (s : State) (i : PlatenId) (x : Timebase) (j : HeadId) : (s.setBase i x).seq j = s.seq j := rfl
@[simp] theorem State.zone_setBase (s : State) (i : PlatenId) (x : Timebase) (j : HeadId) : (s.setBase i x).zone j = s.zone j := rfl
@[simp] theorem State.qual_setBase (s : State) (i : PlatenId) (x : Timebase) (j : PlatenId) : (s.setBase i x).qual j = s.qual j := rfl
@[simp] theorem State.cond_setBase (s : State) (i : PlatenId) (x : Timebase) (j : PlatenId) : (s.setBase i x).cond j = s.cond j := rfl
@[simp] theorem State.pad_setBase (s : State) (i : PlatenId) (x : Timebase) (j : PlatenId) : (s.setBase i x).pad j = s.pad j := rfl
@[simp] theorem State.disk_setBase (s : State) (i : PlatenId) (x : Timebase) (j : PlatenId) : (s.setBase i x).disk j = s.disk j := rfl
@[simp] theorem State.line_setBase (s : State) (i : PlatenId) (x : Timebase) (j : LineId) : (s.setBase i x).line j = s.line j := rfl
@[simp] theorem State.port_setBase (s : State) (i : PlatenId) (x : Timebase) (j : Port) : (s.setBase i x).port j = s.port j := rfl
@[simp] theorem State.trip_setBase (s : State) (i : PlatenId) (x : Timebase) : (s.setBase i x).trip = s.trip := rfl
@[simp] theorem State.beat_setBase (s : State) (i : PlatenId) (x : Timebase) : (s.setBase i x).beat = s.beat := rfl
@[simp] theorem State.freeCount_setBase (s : State) (i : PlatenId) (x : Timebase) : (s.setBase i x).freeCount = s.freeCount := rfl
@[simp] theorem State.pending_setBase (s : State) (i : PlatenId) (x : Timebase) : (s.setBase i x).pending = s.pending := rfl

@[simp] theorem State.qual_setQual_self (s : State) (i : PlatenId) (x : Qualifier) : (s.setQual i x).qual i = x := by
  simp [State.qual, State.setQual]

theorem State.qual_setQual_ne (s : State) {i j : PlatenId} (x : Qualifier) (h : j ≠ i) : (s.setQual i x).qual j = s.qual j := by
  simp [State.qual, State.setQual, PerPlaten.get_set_ne _ x h]

theorem State.qual_setQual (s : State) (i j : PlatenId) (x : Qualifier) :
    (s.setQual i x).qual j = if j = i then x else s.qual j := by
  simp [State.qual, State.setQual, PerPlaten.get_set]

@[simp] theorem State.setQual_qual (s : State) (i : PlatenId) : s.setQual i (s.qual i) = s := by
  simp [State.qual, State.setQual]
@[simp] theorem State.station_setQual (s : State) (i : PlatenId) (x : Qualifier) (j : StationId) : (s.setQual i x).station j = s.station j := rfl
@[simp] theorem State.carrier_setQual (s : State) (i : PlatenId) (x : Qualifier) (j : HeadId) : (s.setQual i x).carrier j = s.carrier j := rfl
@[simp] theorem State.seq_setQual (s : State) (i : PlatenId) (x : Qualifier) (j : HeadId) : (s.setQual i x).seq j = s.seq j := rfl
@[simp] theorem State.zone_setQual (s : State) (i : PlatenId) (x : Qualifier) (j : HeadId) : (s.setQual i x).zone j = s.zone j := rfl
@[simp] theorem State.base_setQual (s : State) (i : PlatenId) (x : Qualifier) (j : PlatenId) : (s.setQual i x).base j = s.base j := rfl
@[simp] theorem State.cond_setQual (s : State) (i : PlatenId) (x : Qualifier) (j : PlatenId) : (s.setQual i x).cond j = s.cond j := rfl
@[simp] theorem State.pad_setQual (s : State) (i : PlatenId) (x : Qualifier) (j : PlatenId) : (s.setQual i x).pad j = s.pad j := rfl
@[simp] theorem State.disk_setQual (s : State) (i : PlatenId) (x : Qualifier) (j : PlatenId) : (s.setQual i x).disk j = s.disk j := rfl
@[simp] theorem State.line_setQual (s : State) (i : PlatenId) (x : Qualifier) (j : LineId) : (s.setQual i x).line j = s.line j := rfl
@[simp] theorem State.port_setQual (s : State) (i : PlatenId) (x : Qualifier) (j : Port) : (s.setQual i x).port j = s.port j := rfl
@[simp] theorem State.trip_setQual (s : State) (i : PlatenId) (x : Qualifier) : (s.setQual i x).trip = s.trip := rfl
@[simp] theorem State.beat_setQual (s : State) (i : PlatenId) (x : Qualifier) : (s.setQual i x).beat = s.beat := rfl
@[simp] theorem State.freeCount_setQual (s : State) (i : PlatenId) (x : Qualifier) : (s.setQual i x).freeCount = s.freeCount := rfl
@[simp] theorem State.pending_setQual (s : State) (i : PlatenId) (x : Qualifier) : (s.setQual i x).pending = s.pending := rfl

@[simp] theorem State.cond_setCond_self (s : State) (i : PlatenId) (x : Conditioner) : (s.setCond i x).cond i = x := by
  simp [State.cond, State.setCond]

theorem State.cond_setCond_ne (s : State) {i j : PlatenId} (x : Conditioner) (h : j ≠ i) : (s.setCond i x).cond j = s.cond j := by
  simp [State.cond, State.setCond, PerPlaten.get_set_ne _ x h]

theorem State.cond_setCond (s : State) (i j : PlatenId) (x : Conditioner) :
    (s.setCond i x).cond j = if j = i then x else s.cond j := by
  simp [State.cond, State.setCond, PerPlaten.get_set]

@[simp] theorem State.setCond_cond (s : State) (i : PlatenId) : s.setCond i (s.cond i) = s := by
  simp [State.cond, State.setCond]
@[simp] theorem State.station_setCond (s : State) (i : PlatenId) (x : Conditioner) (j : StationId) : (s.setCond i x).station j = s.station j := rfl
@[simp] theorem State.carrier_setCond (s : State) (i : PlatenId) (x : Conditioner) (j : HeadId) : (s.setCond i x).carrier j = s.carrier j := rfl
@[simp] theorem State.seq_setCond (s : State) (i : PlatenId) (x : Conditioner) (j : HeadId) : (s.setCond i x).seq j = s.seq j := rfl
@[simp] theorem State.zone_setCond (s : State) (i : PlatenId) (x : Conditioner) (j : HeadId) : (s.setCond i x).zone j = s.zone j := rfl
@[simp] theorem State.base_setCond (s : State) (i : PlatenId) (x : Conditioner) (j : PlatenId) : (s.setCond i x).base j = s.base j := rfl
@[simp] theorem State.qual_setCond (s : State) (i : PlatenId) (x : Conditioner) (j : PlatenId) : (s.setCond i x).qual j = s.qual j := rfl
@[simp] theorem State.pad_setCond (s : State) (i : PlatenId) (x : Conditioner) (j : PlatenId) : (s.setCond i x).pad j = s.pad j := rfl
@[simp] theorem State.disk_setCond (s : State) (i : PlatenId) (x : Conditioner) (j : PlatenId) : (s.setCond i x).disk j = s.disk j := rfl
@[simp] theorem State.line_setCond (s : State) (i : PlatenId) (x : Conditioner) (j : LineId) : (s.setCond i x).line j = s.line j := rfl
@[simp] theorem State.port_setCond (s : State) (i : PlatenId) (x : Conditioner) (j : Port) : (s.setCond i x).port j = s.port j := rfl
@[simp] theorem State.trip_setCond (s : State) (i : PlatenId) (x : Conditioner) : (s.setCond i x).trip = s.trip := rfl
@[simp] theorem State.beat_setCond (s : State) (i : PlatenId) (x : Conditioner) : (s.setCond i x).beat = s.beat := rfl
@[simp] theorem State.freeCount_setCond (s : State) (i : PlatenId) (x : Conditioner) : (s.setCond i x).freeCount = s.freeCount := rfl
@[simp] theorem State.pending_setCond (s : State) (i : PlatenId) (x : Conditioner) : (s.setCond i x).pending = s.pending := rfl

@[simp] theorem State.pad_setPad_self (s : State) (i : PlatenId) (x : Pad) : (s.setPad i x).pad i = x := by
  simp [State.pad, State.setPad]

theorem State.pad_setPad_ne (s : State) {i j : PlatenId} (x : Pad) (h : j ≠ i) : (s.setPad i x).pad j = s.pad j := by
  simp [State.pad, State.setPad, PerPlaten.get_set_ne _ x h]

theorem State.pad_setPad (s : State) (i j : PlatenId) (x : Pad) :
    (s.setPad i x).pad j = if j = i then x else s.pad j := by
  simp [State.pad, State.setPad, PerPlaten.get_set]

@[simp] theorem State.setPad_pad (s : State) (i : PlatenId) : s.setPad i (s.pad i) = s := by
  simp [State.pad, State.setPad]
@[simp] theorem State.station_setPad (s : State) (i : PlatenId) (x : Pad) (j : StationId) : (s.setPad i x).station j = s.station j := rfl
@[simp] theorem State.carrier_setPad (s : State) (i : PlatenId) (x : Pad) (j : HeadId) : (s.setPad i x).carrier j = s.carrier j := rfl
@[simp] theorem State.seq_setPad (s : State) (i : PlatenId) (x : Pad) (j : HeadId) : (s.setPad i x).seq j = s.seq j := rfl
@[simp] theorem State.zone_setPad (s : State) (i : PlatenId) (x : Pad) (j : HeadId) : (s.setPad i x).zone j = s.zone j := rfl
@[simp] theorem State.base_setPad (s : State) (i : PlatenId) (x : Pad) (j : PlatenId) : (s.setPad i x).base j = s.base j := rfl
@[simp] theorem State.qual_setPad (s : State) (i : PlatenId) (x : Pad) (j : PlatenId) : (s.setPad i x).qual j = s.qual j := rfl
@[simp] theorem State.cond_setPad (s : State) (i : PlatenId) (x : Pad) (j : PlatenId) : (s.setPad i x).cond j = s.cond j := rfl
@[simp] theorem State.disk_setPad (s : State) (i : PlatenId) (x : Pad) (j : PlatenId) : (s.setPad i x).disk j = s.disk j := rfl
@[simp] theorem State.line_setPad (s : State) (i : PlatenId) (x : Pad) (j : LineId) : (s.setPad i x).line j = s.line j := rfl
@[simp] theorem State.port_setPad (s : State) (i : PlatenId) (x : Pad) (j : Port) : (s.setPad i x).port j = s.port j := rfl
@[simp] theorem State.trip_setPad (s : State) (i : PlatenId) (x : Pad) : (s.setPad i x).trip = s.trip := rfl
@[simp] theorem State.beat_setPad (s : State) (i : PlatenId) (x : Pad) : (s.setPad i x).beat = s.beat := rfl
@[simp] theorem State.freeCount_setPad (s : State) (i : PlatenId) (x : Pad) : (s.setPad i x).freeCount = s.freeCount := rfl
@[simp] theorem State.pending_setPad (s : State) (i : PlatenId) (x : Pad) : (s.setPad i x).pending = s.pending := rfl

@[simp] theorem State.disk_setDisk_self (s : State) (i : PlatenId) (x : Disk) : (s.setDisk i x).disk i = x := by
  simp [State.disk, State.setDisk]

theorem State.disk_setDisk_ne (s : State) {i j : PlatenId} (x : Disk) (h : j ≠ i) : (s.setDisk i x).disk j = s.disk j := by
  simp [State.disk, State.setDisk, PerPlaten.get_set_ne _ x h]

theorem State.disk_setDisk (s : State) (i j : PlatenId) (x : Disk) :
    (s.setDisk i x).disk j = if j = i then x else s.disk j := by
  simp [State.disk, State.setDisk, PerPlaten.get_set]

@[simp] theorem State.setDisk_disk (s : State) (i : PlatenId) : s.setDisk i (s.disk i) = s := by
  simp [State.disk, State.setDisk]
@[simp] theorem State.station_setDisk (s : State) (i : PlatenId) (x : Disk) (j : StationId) : (s.setDisk i x).station j = s.station j := rfl
@[simp] theorem State.carrier_setDisk (s : State) (i : PlatenId) (x : Disk) (j : HeadId) : (s.setDisk i x).carrier j = s.carrier j := rfl
@[simp] theorem State.seq_setDisk (s : State) (i : PlatenId) (x : Disk) (j : HeadId) : (s.setDisk i x).seq j = s.seq j := rfl
@[simp] theorem State.zone_setDisk (s : State) (i : PlatenId) (x : Disk) (j : HeadId) : (s.setDisk i x).zone j = s.zone j := rfl
@[simp] theorem State.base_setDisk (s : State) (i : PlatenId) (x : Disk) (j : PlatenId) : (s.setDisk i x).base j = s.base j := rfl
@[simp] theorem State.qual_setDisk (s : State) (i : PlatenId) (x : Disk) (j : PlatenId) : (s.setDisk i x).qual j = s.qual j := rfl
@[simp] theorem State.cond_setDisk (s : State) (i : PlatenId) (x : Disk) (j : PlatenId) : (s.setDisk i x).cond j = s.cond j := rfl
@[simp] theorem State.pad_setDisk (s : State) (i : PlatenId) (x : Disk) (j : PlatenId) : (s.setDisk i x).pad j = s.pad j := rfl
@[simp] theorem State.line_setDisk (s : State) (i : PlatenId) (x : Disk) (j : LineId) : (s.setDisk i x).line j = s.line j := rfl
@[simp] theorem State.port_setDisk (s : State) (i : PlatenId) (x : Disk) (j : Port) : (s.setDisk i x).port j = s.port j := rfl
@[simp] theorem State.trip_setDisk (s : State) (i : PlatenId) (x : Disk) : (s.setDisk i x).trip = s.trip := rfl
@[simp] theorem State.beat_setDisk (s : State) (i : PlatenId) (x : Disk) : (s.setDisk i x).beat = s.beat := rfl
@[simp] theorem State.freeCount_setDisk (s : State) (i : PlatenId) (x : Disk) : (s.setDisk i x).freeCount = s.freeCount := rfl
@[simp] theorem State.pending_setDisk (s : State) (i : PlatenId) (x : Disk) : (s.setDisk i x).pending = s.pending := rfl

@[simp] theorem State.line_setLine_self (s : State) (i : LineId) (x : Line) : (s.setLine i x).line i = x := by
  simp [State.line, State.setLine]

theorem State.line_setLine_ne (s : State) {i j : LineId} (x : Line) (h : j ≠ i) : (s.setLine i x).line j = s.line j := by
  simp [State.line, State.setLine, PerLine.get_set_ne _ x h]

theorem State.line_setLine (s : State) (i j : LineId) (x : Line) :
    (s.setLine i x).line j = if j = i then x else s.line j := by
  simp [State.line, State.setLine, PerLine.get_set]

@[simp] theorem State.setLine_line (s : State) (i : LineId) : s.setLine i (s.line i) = s := by
  simp [State.line, State.setLine]
@[simp] theorem State.station_setLine (s : State) (i : LineId) (x : Line) (j : StationId) : (s.setLine i x).station j = s.station j := rfl
@[simp] theorem State.carrier_setLine (s : State) (i : LineId) (x : Line) (j : HeadId) : (s.setLine i x).carrier j = s.carrier j := rfl
@[simp] theorem State.seq_setLine (s : State) (i : LineId) (x : Line) (j : HeadId) : (s.setLine i x).seq j = s.seq j := rfl
@[simp] theorem State.zone_setLine (s : State) (i : LineId) (x : Line) (j : HeadId) : (s.setLine i x).zone j = s.zone j := rfl
@[simp] theorem State.base_setLine (s : State) (i : LineId) (x : Line) (j : PlatenId) : (s.setLine i x).base j = s.base j := rfl
@[simp] theorem State.qual_setLine (s : State) (i : LineId) (x : Line) (j : PlatenId) : (s.setLine i x).qual j = s.qual j := rfl
@[simp] theorem State.cond_setLine (s : State) (i : LineId) (x : Line) (j : PlatenId) : (s.setLine i x).cond j = s.cond j := rfl
@[simp] theorem State.pad_setLine (s : State) (i : LineId) (x : Line) (j : PlatenId) : (s.setLine i x).pad j = s.pad j := rfl
@[simp] theorem State.disk_setLine (s : State) (i : LineId) (x : Line) (j : PlatenId) : (s.setLine i x).disk j = s.disk j := rfl
@[simp] theorem State.port_setLine (s : State) (i : LineId) (x : Line) (j : Port) : (s.setLine i x).port j = s.port j := rfl
@[simp] theorem State.trip_setLine (s : State) (i : LineId) (x : Line) : (s.setLine i x).trip = s.trip := rfl
@[simp] theorem State.beat_setLine (s : State) (i : LineId) (x : Line) : (s.setLine i x).beat = s.beat := rfl
@[simp] theorem State.freeCount_setLine (s : State) (i : LineId) (x : Line) : (s.setLine i x).freeCount = s.freeCount := rfl
@[simp] theorem State.pending_setLine (s : State) (i : LineId) (x : Line) : (s.setLine i x).pending = s.pending := rfl

@[simp] theorem State.port_setPort_self (s : State) (i : Port) (x : PortUnit) : (s.setPort i x).port i = x := by
  simp [State.port, State.setPort]

theorem State.port_setPort_ne (s : State) {i j : Port} (x : PortUnit) (h : j ≠ i) : (s.setPort i x).port j = s.port j := by
  simp [State.port, State.setPort, PerPort.get_set_ne _ x h]

theorem State.port_setPort (s : State) (i j : Port) (x : PortUnit) :
    (s.setPort i x).port j = if j = i then x else s.port j := by
  simp [State.port, State.setPort, PerPort.get_set]

@[simp] theorem State.setPort_port (s : State) (i : Port) : s.setPort i (s.port i) = s := by
  simp [State.port, State.setPort]
@[simp] theorem State.station_setPort (s : State) (i : Port) (x : PortUnit) (j : StationId) : (s.setPort i x).station j = s.station j := rfl
@[simp] theorem State.carrier_setPort (s : State) (i : Port) (x : PortUnit) (j : HeadId) : (s.setPort i x).carrier j = s.carrier j := rfl
@[simp] theorem State.seq_setPort (s : State) (i : Port) (x : PortUnit) (j : HeadId) : (s.setPort i x).seq j = s.seq j := rfl
@[simp] theorem State.zone_setPort (s : State) (i : Port) (x : PortUnit) (j : HeadId) : (s.setPort i x).zone j = s.zone j := rfl
@[simp] theorem State.base_setPort (s : State) (i : Port) (x : PortUnit) (j : PlatenId) : (s.setPort i x).base j = s.base j := rfl
@[simp] theorem State.qual_setPort (s : State) (i : Port) (x : PortUnit) (j : PlatenId) : (s.setPort i x).qual j = s.qual j := rfl
@[simp] theorem State.cond_setPort (s : State) (i : Port) (x : PortUnit) (j : PlatenId) : (s.setPort i x).cond j = s.cond j := rfl
@[simp] theorem State.pad_setPort (s : State) (i : Port) (x : PortUnit) (j : PlatenId) : (s.setPort i x).pad j = s.pad j := rfl
@[simp] theorem State.disk_setPort (s : State) (i : Port) (x : PortUnit) (j : PlatenId) : (s.setPort i x).disk j = s.disk j := rfl
@[simp] theorem State.line_setPort (s : State) (i : Port) (x : PortUnit) (j : LineId) : (s.setPort i x).line j = s.line j := rfl
@[simp] theorem State.trip_setPort (s : State) (i : Port) (x : PortUnit) : (s.setPort i x).trip = s.trip := rfl
@[simp] theorem State.beat_setPort (s : State) (i : Port) (x : PortUnit) : (s.setPort i x).beat = s.beat := rfl
@[simp] theorem State.freeCount_setPort (s : State) (i : Port) (x : PortUnit) : (s.setPort i x).freeCount = s.freeCount := rfl
@[simp] theorem State.pending_setPort (s : State) (i : Port) (x : PortUnit) : (s.setPort i x).pending = s.pending := rfl

@[simp] theorem State.station_setTrip (s : State) (x : TripUnit) (j : StationId) : (s.setTrip x).station j = s.station j := rfl
@[simp] theorem State.carrier_setTrip (s : State) (x : TripUnit) (j : HeadId) : (s.setTrip x).carrier j = s.carrier j := rfl
@[simp] theorem State.seq_setTrip (s : State) (x : TripUnit) (j : HeadId) : (s.setTrip x).seq j = s.seq j := rfl
@[simp] theorem State.zone_setTrip (s : State) (x : TripUnit) (j : HeadId) : (s.setTrip x).zone j = s.zone j := rfl
@[simp] theorem State.base_setTrip (s : State) (x : TripUnit) (j : PlatenId) : (s.setTrip x).base j = s.base j := rfl
@[simp] theorem State.qual_setTrip (s : State) (x : TripUnit) (j : PlatenId) : (s.setTrip x).qual j = s.qual j := rfl
@[simp] theorem State.cond_setTrip (s : State) (x : TripUnit) (j : PlatenId) : (s.setTrip x).cond j = s.cond j := rfl
@[simp] theorem State.pad_setTrip (s : State) (x : TripUnit) (j : PlatenId) : (s.setTrip x).pad j = s.pad j := rfl
@[simp] theorem State.disk_setTrip (s : State) (x : TripUnit) (j : PlatenId) : (s.setTrip x).disk j = s.disk j := rfl
@[simp] theorem State.line_setTrip (s : State) (x : TripUnit) (j : LineId) : (s.setTrip x).line j = s.line j := rfl
@[simp] theorem State.port_setTrip (s : State) (x : TripUnit) (j : Port) : (s.setTrip x).port j = s.port j := rfl
@[simp] theorem State.trip_setTrip (s : State) (x : TripUnit) : (s.setTrip x).trip = x := rfl
@[simp] theorem State.beat_setTrip (s : State) (x : TripUnit) : (s.setTrip x).beat = s.beat := rfl
@[simp] theorem State.freeCount_setTrip (s : State) (x : TripUnit) : (s.setTrip x).freeCount = s.freeCount := rfl
@[simp] theorem State.pending_setTrip (s : State) (x : TripUnit) : (s.setTrip x).pending = s.pending := rfl

@[simp] theorem State.station_setBeat (s : State) (x : BeatUnit) (j : StationId) : (s.setBeat x).station j = s.station j := rfl
@[simp] theorem State.carrier_setBeat (s : State) (x : BeatUnit) (j : HeadId) : (s.setBeat x).carrier j = s.carrier j := rfl
@[simp] theorem State.seq_setBeat (s : State) (x : BeatUnit) (j : HeadId) : (s.setBeat x).seq j = s.seq j := rfl
@[simp] theorem State.zone_setBeat (s : State) (x : BeatUnit) (j : HeadId) : (s.setBeat x).zone j = s.zone j := rfl
@[simp] theorem State.base_setBeat (s : State) (x : BeatUnit) (j : PlatenId) : (s.setBeat x).base j = s.base j := rfl
@[simp] theorem State.qual_setBeat (s : State) (x : BeatUnit) (j : PlatenId) : (s.setBeat x).qual j = s.qual j := rfl
@[simp] theorem State.cond_setBeat (s : State) (x : BeatUnit) (j : PlatenId) : (s.setBeat x).cond j = s.cond j := rfl
@[simp] theorem State.pad_setBeat (s : State) (x : BeatUnit) (j : PlatenId) : (s.setBeat x).pad j = s.pad j := rfl
@[simp] theorem State.disk_setBeat (s : State) (x : BeatUnit) (j : PlatenId) : (s.setBeat x).disk j = s.disk j := rfl
@[simp] theorem State.line_setBeat (s : State) (x : BeatUnit) (j : LineId) : (s.setBeat x).line j = s.line j := rfl
@[simp] theorem State.port_setBeat (s : State) (x : BeatUnit) (j : Port) : (s.setBeat x).port j = s.port j := rfl
@[simp] theorem State.trip_setBeat (s : State) (x : BeatUnit) : (s.setBeat x).trip = s.trip := rfl
@[simp] theorem State.beat_setBeat (s : State) (x : BeatUnit) : (s.setBeat x).beat = x := rfl
@[simp] theorem State.freeCount_setBeat (s : State) (x : BeatUnit) : (s.setBeat x).freeCount = s.freeCount := rfl
@[simp] theorem State.pending_setBeat (s : State) (x : BeatUnit) : (s.setBeat x).pending = s.pending := rfl

/-! ## A modifier is a setter -/

theorem State.modStation_eq (s : State) (i : StationId) (f : Station → Station) : s.modStation i f = s.setStation i (f (s.station i)) := rfl
theorem State.modCarrier_eq (s : State) (i : HeadId) (f : Carrier → Carrier) : s.modCarrier i f = s.setCarrier i (f (s.carrier i)) := rfl
theorem State.modSeq_eq (s : State) (i : HeadId) (f : Sequencer → Sequencer) : s.modSeq i f = s.setSeq i (f (s.seq i)) := rfl
theorem State.modZone_eq (s : State) (i : HeadId) (f : ZoneMonitor → ZoneMonitor) : s.modZone i f = s.setZone i (f (s.zone i)) := rfl
theorem State.modBase_eq (s : State) (i : PlatenId) (f : Timebase → Timebase) : s.modBase i f = s.setBase i (f (s.base i)) := rfl
theorem State.modQual_eq (s : State) (i : PlatenId) (f : Qualifier → Qualifier) : s.modQual i f = s.setQual i (f (s.qual i)) := rfl
theorem State.modCond_eq (s : State) (i : PlatenId) (f : Conditioner → Conditioner) : s.modCond i f = s.setCond i (f (s.cond i)) := rfl
theorem State.modPad_eq (s : State) (i : PlatenId) (f : Pad → Pad) : s.modPad i f = s.setPad i (f (s.pad i)) := rfl
theorem State.modDisk_eq (s : State) (i : PlatenId) (f : Disk → Disk) : s.modDisk i f = s.setDisk i (f (s.disk i)) := rfl
theorem State.modLine_eq (s : State) (i : LineId) (f : Line → Line) : s.modLine i f = s.setLine i (f (s.line i)) := rfl
theorem State.modPort_eq (s : State) (i : Port) (f : PortUnit → PortUnit) : s.modPort i f = s.setPort i (f (s.port i)) := rfl

/-! ## Two states with the same entries are the same state -/

theorem State.ext_tables (s t : State) (stations : s.stations = t.stations) (carriers : s.carriers = t.carriers)
    (seqs : s.seqs = t.seqs) (zones : s.zones = t.zones) (bases : s.bases = t.bases) (quals : s.quals = t.quals)
    (conds : s.conds = t.conds) (pads : s.pads = t.pads) (disks : s.disks = t.disks) (lines : s.lines = t.lines)
    (trip : s.trip = t.trip) (beat : s.beat = t.beat) (ports : s.ports = t.ports)
    (freeCount : s.freeCount = t.freeCount) (pending : s.pending = t.pending) : s = t := by
  cases s; cases t; simp_all

/-! ## A later write of the same entry wins -/

@[simp] theorem PerHead.set_set {α : Type} (t : PerHead α) (i : HeadId) (x y : α) : (t.set i x).set i y = t.set i y := by
  cases i <;> rfl

@[simp] theorem PerPlaten.set_set {α : Type} (t : PerPlaten α) (i : PlatenId) (x y : α) : (t.set i x).set i y = t.set i y := by
  cases i <;> rfl

@[simp] theorem PerLine.set_set {α : Type} (t : PerLine α) (i : LineId) (x y : α) : (t.set i x).set i y = t.set i y := by
  cases i <;> rfl

@[simp] theorem PerStation.set_set {α : Type} (t : PerStation α) (i : StationId) (x y : α) : (t.set i x).set i y = t.set i y := by
  rcases i with _ | p | _ <;> (try cases p) <;> rfl

@[simp] theorem PerZone.set_set {α : Type} (t : PerZone α) (i : ZoneId) (x y : α) : (t.set i x).set i y = t.set i y := by
  cases i <;> rfl

@[simp] theorem PerPort.set_set {α : Type} (t : PerPort α) (i : Port) (x y : α) : (t.set i x).set i y = t.set i y := by
  cases i <;> rfl

@[simp] theorem State.setStation_setStation (s : State) (i : StationId) (x y : Station) :
    (s.setStation i x).setStation i y = s.setStation i y := by simp [State.setStation]

@[simp] theorem State.setCarrier_setCarrier (s : State) (i : HeadId) (x y : Carrier) :
    (s.setCarrier i x).setCarrier i y = s.setCarrier i y := by simp [State.setCarrier]

@[simp] theorem State.setSeq_setSeq (s : State) (i : HeadId) (x y : Sequencer) :
    (s.setSeq i x).setSeq i y = s.setSeq i y := by simp [State.setSeq]

@[simp] theorem State.setZone_setZone (s : State) (i : HeadId) (x y : ZoneMonitor) :
    (s.setZone i x).setZone i y = s.setZone i y := by simp [State.setZone]

@[simp] theorem State.setBase_setBase (s : State) (i : PlatenId) (x y : Timebase) :
    (s.setBase i x).setBase i y = s.setBase i y := by simp [State.setBase]

@[simp] theorem State.setQual_setQual (s : State) (i : PlatenId) (x y : Qualifier) :
    (s.setQual i x).setQual i y = s.setQual i y := by simp [State.setQual]

@[simp] theorem State.setCond_setCond (s : State) (i : PlatenId) (x y : Conditioner) :
    (s.setCond i x).setCond i y = s.setCond i y := by simp [State.setCond]

@[simp] theorem State.setPad_setPad (s : State) (i : PlatenId) (x y : Pad) :
    (s.setPad i x).setPad i y = s.setPad i y := by simp [State.setPad]

@[simp] theorem State.setDisk_setDisk (s : State) (i : PlatenId) (x y : Disk) :
    (s.setDisk i x).setDisk i y = s.setDisk i y := by simp [State.setDisk]

@[simp] theorem State.setLine_setLine (s : State) (i : LineId) (x y : Line) :
    (s.setLine i x).setLine i y = s.setLine i y := by simp [State.setLine]

@[simp] theorem State.setPort_setPort (s : State) (i : Port) (x y : PortUnit) :
    (s.setPort i x).setPort i y = s.setPort i y := by simp [State.setPort]

end Sys2Proof.Machine
end

