-- ==== Sys2Proof/Laws/Cascade.lean ====
section
/-!
SUPPORT. What no cascade touches. Every operation that a command sets off inside the part (a request for a station, a line
handed on, an intervention, a step end, ...) stands in the relation Cascade to the state it starts from; the lemmas of
Laws/CascadeOps.lean say so once for each, and the provers cite them in place of the operations.
-/
namespace Sys2Proof.Machine

/-- A Port Unit in a cascade: notices are added, the rest is kept. -/
structure PortKept (q : Port) (u v : PortUnit) : Prop where
  mask : v.mask = u.mask
  response : v.response = u.response
  selectHeld : v.selectHeld = u.selectHeld
  window : v.window = u.window
  mono : ∀ n ∈ u.notices, n ∈ catalogue q → n ∈ v.notices
  canonical : u.canonical q → v.canonical q

/-- A carrier in a cascade: the move limit is kept, and no move is commanded while tripped. -/
structure CarrierKept (tripped : Bool) (a b : Carrier) : Prop where
  limit : b.moveLimit = a.moveLimit
  still : tripped = true → a.position.isMoving = false → b.position.isMoving = false

/-- A Head Sequencer in a cascade: the list, the vacuum sense and the claim are kept, results are only added, and the
context stack stays at most two deep. -/
structure SeqKept (a b : Sequencer) : Prop where
  steps : b.steps = a.steps := by rfl
  vacuum : b.vacuum = a.vacuum := by rfl
  claim : b.claim = a.claim := by rfl
  results : a.results <+: b.results := by exact List.prefix_rfl
  stack : a.stack.length ≤ Config.stackDepth → b.stack.length ≤ Config.stackDepth := by exact id

/-- A zone monitor in a cascade: inputs and configuration are kept, and no head goes DOWN while tripped. -/
structure ZoneKept (tripped : Bool) (a b : ZoneMonitor) : Prop where
  inBand : b.inBand = a.inBand
  rinse : b.rinsePressure = a.rinsePressure
  timeout : b.bandTimeout = a.bandTimeout
  up : tripped = true → a.lift = .up → b.lift = .up

/-- A timebase in a cascade: configuration and angle are kept. -/
structure BaseKept (a b : Timebase) : Prop where
  config : b.config = a.config
  position : b.position = a.position
  revolution : b.revolution = a.revolution
  direction : b.direction = a.direction

/-- A Conditioner Unit in a cascade: the arm's position is kept, and outputs that stand as R136 has them still do. -/
structure ArmKept (a b : Conditioner) : Prop where
  position : b.position = a.position
  driven : a.driven → b.driven

/-- A pad record in a cascade: identity, limits, settings and life are kept; wafers do not decrease. -/
structure PadKept (a b : Pad) : Prop where
  padId : b.padId = a.padId
  warnLimit : b.warnLimit = a.warnLimit
  retireLimit : b.retireLimit = a.retireLimit
  interval : b.interval = a.interval
  exSitu : b.exSituSweeps = a.exSituSweeps
  breakIn : b.breakInSweeps = a.breakInSweeps
  life : b.life = a.life
  wafers : a.wafers ≤ b.wafers

/-- A disk record in a cascade: identity and limit are kept; sweeps used do not decrease. -/
structure DiskKept (a b : Disk) : Prop where
  diskId : b.diskId = a.diskId
  limit : b.limit = a.limit
  used : a.used ≤ b.used

/-- A line in a cascade: class, recovery time and input are kept; a DISABLED or FAULTED line stays so; no line is bound
while tripped; the wait list keeps each nozzle once. -/
structure LineKept (tripped : Bool) (a b : Line) : Prop where
  cls : b.cls = a.cls
  time : b.recoveryTime = a.recoveryTime
  ready : b.supplyReady = a.supplyReady
  disabled : a.state = .disabled → b.state = .disabled
  faulted : ∀ t, a.state = .faulted t → b.state = .faulted t
  unbound : tripped = true → a.pumpOn = false → b.pumpOn = false
  nodup : a.wait.Nodup → b.wait.Nodup

/-- A station in a cascade: the service state is kept, the wait list keeps each head once and at most three. -/
structure StationKept (a b : Station) : Prop where
  inService : b.inService = a.inService := by rfl
  nodup : a.wait.Nodup → b.wait.Nodup := by exact id
  short : a.wait.length ≤ Config.stationWaiters → b.wait.length ≤ Config.stationWaiters := by exact id

/-- The relation of a state to what a cascade makes of it. -/
structure Cascade (s t : State) : Prop where
  station : ∀ d, StationKept (s.station d) (t.station d)
  carrier : ∀ h, CarrierKept s.trip.tripped (s.carrier h) (t.carrier h)
  seq : ∀ h, SeqKept (s.seq h) (t.seq h)
  zone : ∀ h, ZoneKept s.trip.tripped (s.zone h) (t.zone h)
  base : ∀ p, BaseKept (s.base p) (t.base p)
  arm : ∀ p, ArmKept (s.cond p) (t.cond p)
  pad : ∀ p, PadKept (s.pad p) (t.pad p)
  disk : ∀ p, DiskKept (s.disk p) (t.disk p)
  line : ∀ l, LineKept s.trip.tripped (s.line l) (t.line l)
  port : ∀ q, PortKept q (s.port q) (t.port q)
  trip : t.trip = s.trip
  beat : t.beat = s.beat
  freeCount : t.freeCount = s.freeCount
  pending : t.pending = s.pending

/-! ## Each part: reflexive and transitive -/

theorem PortKept.refl (q : Port) (u : PortUnit) : PortKept q u u := ⟨rfl, rfl, rfl, rfl, fun _ h _ => h, id⟩
theorem CarrierKept.refl (b : Bool) (a : Carrier) : CarrierKept b a a := ⟨rfl, fun _ h => h⟩
theorem SeqKept.refl (a : Sequencer) : SeqKept a a := {}
theorem ZoneKept.refl (b : Bool) (a : ZoneMonitor) : ZoneKept b a a := ⟨rfl, rfl, rfl, fun _ h => h⟩
theorem BaseKept.refl (a : Timebase) : BaseKept a a := ⟨rfl, rfl, rfl, rfl⟩
theorem ArmKept.refl (a : Conditioner) : ArmKept a a := ⟨rfl, id⟩
theorem PadKept.refl (a : Pad) : PadKept a a := ⟨rfl, rfl, rfl, rfl, rfl, rfl, rfl, Nat.le_refl _⟩
theorem DiskKept.refl (a : Disk) : DiskKept a a := ⟨rfl, rfl, Nat.le_refl _⟩
theorem LineKept.refl (b : Bool) (a : Line) : LineKept b a a := ⟨rfl, rfl, rfl, id, fun _ h => h, fun _ h => h, id⟩
theorem StationKept.refl (a : Station) : StationKept a a := {}

theorem PortKept.trans {q : Port} {u v w : PortUnit} (a : PortKept q u v) (b : PortKept q v w) : PortKept q u w :=
  ⟨b.mask.trans a.mask, b.response.trans a.response, b.selectHeld.trans a.selectHeld, b.window.trans a.window,
    fun n h c => b.mono n (a.mono n h c) c, fun h => b.canonical (a.canonical h)⟩

theorem CarrierKept.trans {x : Bool} {u v w : Carrier} (a : CarrierKept x u v) (b : CarrierKept x v w) :
    CarrierKept x u w := ⟨b.limit.trans a.limit, fun t h => b.still t (a.still t h)⟩

theorem SeqKept.trans {u v w : Sequencer} (a : SeqKept u v) (b : SeqKept v w) : SeqKept u w :=
  ⟨b.steps.trans a.steps, b.vacuum.trans a.vacuum, b.claim.trans a.claim, a.results.trans b.results,
    fun h => b.stack (a.stack h)⟩

theorem ZoneKept.trans {x : Bool} {u v w : ZoneMonitor} (a : ZoneKept x u v) (b : ZoneKept x v w) : ZoneKept x u w :=
  ⟨b.inBand.trans a.inBand, b.rinse.trans a.rinse, b.timeout.trans a.timeout, fun t h => b.up t (a.up t h)⟩

theorem BaseKept.trans {u v w : Timebase} (a : BaseKept u v) (b : BaseKept v w) : BaseKept u w :=
  ⟨b.config.trans a.config, b.position.trans a.position, b.revolution.trans a.revolution,
    b.direction.trans a.direction⟩

theorem ArmKept.trans {u v w : Conditioner} (a : ArmKept u v) (b : ArmKept v w) : ArmKept u w :=
  ⟨b.position.trans a.position, fun h => b.driven (a.driven h)⟩

theorem PadKept.trans {u v w : Pad} (a : PadKept u v) (b : PadKept v w) : PadKept u w :=
  ⟨b.padId.trans a.padId, b.warnLimit.trans a.warnLimit, b.retireLimit.trans a.retireLimit,
    b.interval.trans a.interval, b.exSitu.trans a.exSitu, b.breakIn.trans a.breakIn, b.life.trans a.life,
    Nat.le_trans a.wafers b.wafers⟩

theorem DiskKept.trans {u v w : Disk} (a : DiskKept u v) (b : DiskKept v w) : DiskKept u w :=
  ⟨b.diskId.trans a.diskId, b.limit.trans a.limit, Nat.le_trans a.used b.used⟩

theorem LineKept.trans {x : Bool} {u v w : Line} (a : LineKept x u v) (b : LineKept x v w) : LineKept x u w :=
  ⟨b.cls.trans a.cls, b.time.trans a.time, b.ready.trans a.ready, fun h => b.disabled (a.disabled h),
    fun t h => b.faulted t (a.faulted t h), fun t h => b.unbound t (a.unbound t h), fun h => b.nodup (a.nodup h)⟩

theorem StationKept.trans {u v w : Station} (a : StationKept u v) (b : StationKept v w) : StationKept u w :=
  ⟨b.inService.trans a.inService, fun h => b.nodup (a.nodup h), fun h => b.short (a.short h)⟩

theorem Cascade.refl (s : State) : Cascade s s :=
  ⟨fun _ => .refl _, fun _ => .refl _ _, fun _ => .refl _, fun _ => .refl _ _, fun _ => .refl _, fun _ => .refl _,
    fun _ => .refl _, fun _ => .refl _, fun _ => .refl _ _, fun _ => .refl _ _, rfl, rfl, rfl, rfl⟩

theorem Cascade.trans {s t u : State} (a : Cascade s t) (b : Cascade t u) : Cascade s u where
  station d := (a.station d).trans (b.station d)
  carrier h := (a.carrier h).trans (a.trip ▸ b.carrier h)
  seq h := (a.seq h).trans (b.seq h)
  zone h := (a.zone h).trans (a.trip ▸ b.zone h)
  base p := (a.base p).trans (b.base p)
  arm p := (a.arm p).trans (b.arm p)
  pad p := (a.pad p).trans (b.pad p)
  disk p := (a.disk p).trans (b.disk p)
  line l := (a.line l).trans (a.trip ▸ b.line l)
  port q := (a.port q).trans (b.port q)
  trip := b.trip.trans a.trip
  beat := b.beat.trans a.beat
  freeCount := b.freeCount.trans a.freeCount
  pending := b.pending.trans a.pending

/-- A fold of cascades is a cascade. -/
theorem Cascade.foldl {α : Type} {f : State → α → State} (hf : ∀ s x, Cascade s (f s x)) :
    ∀ (xs : List α) (s : State), Cascade s (xs.foldl f s)
  | [], s => .refl s
  | x :: xs, s => (hf s x).trans (Cascade.foldl hf xs (f s x))

/-! ## One entry changed -/

theorem Cascade.setStation {s : State} {i : StationId} {x : Station} (h : StationKept (s.station i) x) :
    Cascade s (s.setStation i x) :=
  { Cascade.refl s with
    station := fun j => by
      rw [State.station_setStation]; split
      · next e => subst e; exact h
      · exact .refl _ }

theorem Cascade.setCarrier {s : State} {i : HeadId} {x : Carrier} (h : CarrierKept s.trip.tripped (s.carrier i) x) :
    Cascade s (s.setCarrier i x) :=
  { Cascade.refl s with
    carrier := fun j => by
      rw [State.carrier_setCarrier]; split
      · next e => subst e; exact h
      · exact .refl _ _ }

theorem Cascade.setSeq {s : State} {i : HeadId} {x : Sequencer} (h : SeqKept (s.seq i) x) : Cascade s (s.setSeq i x) :=
  { Cascade.refl s with
    seq := fun j => by
      rw [State.seq_setSeq]; split
      · next e => subst e; exact h
      · exact .refl _ }

theorem Cascade.setZone {s : State} {i : HeadId} {x : ZoneMonitor} (h : ZoneKept s.trip.tripped (s.zone i) x) :
    Cascade s (s.setZone i x) :=
  { Cascade.refl s with
    zone := fun j => by
      rw [State.zone_setZone]; split
      · next e => subst e; exact h
      · exact .refl _ _ }

theorem Cascade.setBase {s : State} {i : PlatenId} {x : Timebase} (h : BaseKept (s.base i) x) :
    Cascade s (s.setBase i x) :=
  { Cascade.refl s with
    base := fun j => by
      rw [State.base_setBase]; split
      · next e => subst e; exact h
      · exact .refl _ }

theorem Cascade.setQual {s : State} {i : PlatenId} {x : Qualifier} : Cascade s (s.setQual i x) :=
  { Cascade.refl s with }

theorem Cascade.setCond {s : State} {i : PlatenId} {x : Conditioner} (h : ArmKept (s.cond i) x) :
    Cascade s (s.setCond i x) :=
  { Cascade.refl s with
    arm := fun j => by
      rw [State.cond_setCond]; split
      · next e => subst e; exact h
      · exact .refl _ }

theorem Cascade.setPad {s : State} {i : PlatenId} {x : Pad} (h : PadKept (s.pad i) x) : Cascade s (s.setPad i x) :=
  { Cascade.refl s with
    pad := fun j => by
      rw [State.pad_setPad]; split
      · next e => subst e; exact h
      · exact .refl _ }

theorem Cascade.setDisk {s : State} {i : PlatenId} {x : Disk} (h : DiskKept (s.disk i) x) :
    Cascade s (s.setDisk i x) :=
  { Cascade.refl s with
    disk := fun j => by
      rw [State.disk_setDisk]; split
      · next e => subst e; exact h
      · exact .refl _ }

theorem Cascade.setLine {s : State} {i : LineId} {x : Line} (h : LineKept s.trip.tripped (s.line i) x) :
    Cascade s (s.setLine i x) :=
  { Cascade.refl s with
    line := fun j => by
      rw [State.line_setLine]; split
      · next e => subst e; exact h
      · exact .refl _ _ }

theorem Cascade.setPort {s : State} {i : Port} {x : PortUnit} (h : PortKept i (s.port i) x) :
    Cascade s (s.setPort i x) :=
  { Cascade.refl s with
    port := fun j => by
      rw [State.port_setPort]; split
      · next e => subst e; exact h
      · exact .refl _ _ }

end Sys2Proof.Machine
end

