-- ==== Sys2Proof/Laws/CascadeOps.lean ====
section
/-!
SUPPORT. Each operation of the part's inner work is a cascade (Laws/Cascade.lean): one lemma for each.
-/
namespace Sys2Proof.Machine

/-! ## Tables changed whole -/

theorem PerLine.get_map {α : Type} (t : PerLine α) (f : α → α) (l : LineId) : (t.map f).get l = f (t.get l) := by
  cases l <;> rfl

theorem PerStation.get_map {α : Type} (t : PerStation α) (f : α → α) (d : StationId) :
    (t.map f).get d = f (t.get d) := by
  rcases d with _ | p | _ <;> (try cases p) <;> rfl

theorem Cascade.mapLines {s : State} {f : Line → Line} (h : ∀ k, LineKept s.trip.tripped k (f k)) :
    Cascade s { s with lines := s.lines.map f } :=
  { Cascade.refl s with
    line := fun l => by
      have := h (s.line l)
      simp only [State.line, PerLine.get_map] at this ⊢
      exact this }

theorem Cascade.mapStations {s : State} {f : Station → Station} (h : ∀ k, StationKept k (f k)) :
    Cascade s { s with stations := s.stations.map f } :=
  { Cascade.refl s with
    station := fun d => by
      have := h (s.station d)
      simp only [State.station, PerStation.get_map] at this ⊢
      exact this }

/-! ## Notices -/

theorem canonical_addNotice (q : Port) (n : Notice) (u : PortUnit) :
    ({ u with notices := addNotice q n u.notices } : PortUnit).canonical q := by
  have key : ∀ (p : Notice → Bool) (c : List Notice),
      c.filter p = c.filter fun m => (c.filter p).contains m := by
    intro p c
    apply List.filter_congr
    intro m hm
    by_cases hp : p m = true
    · simp [hm, hp]
    · simp [hp]
  exact key _ _

theorem mem_addNotice {q : Port} {n m : Notice} {ns : List Notice} :
    m ∈ addNotice q n ns ↔ m ∈ catalogue q ∧ (m = n ∨ m ∈ ns) := by
  simp [addNotice, List.mem_filter]

theorem Cascade.raise (s : State) (q : Port) (n : Notice) : Cascade s (s.raise q n) :=
  Cascade.setPort
    ⟨rfl, rfl, rfl, rfl, fun _ h c => mem_addNotice.2 ⟨c, .inr h⟩, fun _ => canonical_addNotice q n _⟩

/-! ## Heads -/

theorem Cascade.modSeq {s : State} {h : HeadId} {f : Sequencer → Sequencer} (k : SeqKept (s.seq h) (f (s.seq h))) :
    Cascade s (s.modSeq h f) := .setSeq k

theorem Cascade.setWorking (s : State) (h : HeadId) (w : Working) : Cascade s (s.setWorking h w) :=
  .modSeq {}

theorem Cascade.modWorking (s : State) (h : HeadId) (f : Working → Working) : Cascade s (s.modWorking h f) := by
  unfold State.modWorking; split
  · exact .setWorking ..
  · exact .refl _

theorem Cascade.setHead (s : State) (h : HeadId) (x : HeadState) : Cascade s (s.setHead h x) := .modSeq {}

theorem Cascade.setPark (s : State) (h : HeadId) (p : ParkProgress) : Cascade s (s.setPark h p) :=
  .modSeq {}

/-! ## Pads, disks and conditioners -/

theorem le_satSucc (top n : Nat) : n ≤ satSucc top n := by unfold satSucc; split <;> omega

theorem PadKept.countWafer (k : Pad) : PadKept k k.countWafer := by
  unfold Pad.countWafer; split
  · exact ⟨rfl, rfl, rfl, rfl, rfl, rfl, rfl, le_satSucc _ _⟩
  · exact .refl _

theorem PadKept.runDone (k : Pad) : PadKept k k.runDone := ⟨rfl, rfl, rfl, rfl, rfl, rfl, rfl, Nat.le_refl _⟩

theorem Disk.sweep_kept (k : Disk) : DiskKept k k.sweep.1 := by
  unfold Disk.sweep; dsimp only; split <;> exact ⟨rfl, rfl, le_satSucc _ _⟩

theorem Cascade.diskSweep (s : State) (p : PlatenId) : Cascade s (s.diskSweep p) := by
  unfold State.diskSweep; dsimp only; split
  · exact (Cascade.setDisk (Disk.sweep_kept _)).trans (.raise ..)
  · exact .setDisk (Disk.sweep_kept _)

/-- Fields of the unit that are neither its position nor its outputs are of no account (R136). -/
theorem ArmKept.outside {c d : Conditioner} (p : d.position = c.position) (a : d.arm = c.arm)
    (v : d.speedOut = c.speedOut) (f : d.forceOut = c.forceOut) : ArmKept c d :=
  ⟨p, fun h => by simpa only [Conditioner.driven, a, v, f] using h⟩

/-- A change of state takes the outputs with it (R136). -/
theorem ArmKept.enter (c : Conditioner) (g : PlatenConfig) (a : ArmState) : ArmKept c (c.enter g a) :=
  ⟨rfl, fun _ => by cases a <;> simp [Conditioner.driven, Conditioner.enter, ArmState.speed, ArmState.force]⟩

theorem ArmKept.enterToward (c : Conditioner) (g : PlatenConfig) (a : ArmState) (d : Travel) :
    ArmKept c ({ c with direction := d }.enter g a) :=
  ⟨rfl, (ArmKept.enter { c with direction := d } g a).driven ∘ fun h => h⟩

theorem ArmKept.stow (c : Conditioner) (g : PlatenConfig) : ArmKept c (c.stow g) := by
  unfold Conditioner.stow; repeat' split
  all_goals first | exact .refl _ | exact .enter ..

/-- The arm at the completion of a run (R147). -/
theorem ArmKept.runOver (c : Conditioner) (g : PlatenConfig) :
    ArmKept c ({ c with runHeld := false, sweepsDone := 0 }.stow g) :=
  ⟨(ArmKept.stow ..).position, (ArmKept.stow { c with runHeld := false, sweepsDone := 0 } g).driven ∘ fun h => h⟩

theorem ArmKept.countSweep (c : Conditioner) : ArmKept c c.countSweep := by
  unfold Conditioner.countSweep; split
  · exact .outside rfl rfl rfl rfl
  · exact .refl _

theorem ArmKept.beginSweep (c : Conditioner) (g : PlatenConfig) (m : ArmMode) : ArmKept c (c.beginSweep g m) := by
  unfold Conditioner.beginSweep
  split
  · exact .enter ..
  · split
    · exact .enter ..
    · exact .enterToward ..
  · next h => exact ⟨rfl, fun d => by simpa [Conditioner.driven, h] using d⟩
  · exact ⟨rfl, fun _ => trivial⟩
  all_goals exact .refl _

theorem ArmKept.suspend (c : Conditioner) (g : PlatenConfig) : ArmKept c (c.suspend g) := by
  unfold Conditioner.suspend; split
  all_goals first | exact .refl _ | exact .enter ..

theorem ArmKept.suspendRun (c : Conditioner) (g : PlatenConfig) : ArmKept c (c.suspendRun g) := by
  unfold Conditioner.suspendRun; split
  · exact .suspend ..
  · exact .refl _

theorem ArmKept.resumeRun (c : Conditioner) (g : PlatenConfig) : ArmKept c (c.resumeRun g) := by
  unfold Conditioner.resumeRun; split
  all_goals first | exact .refl _ | exact .enter ..

theorem ArmKept.withdraw (c : Conditioner) (g : PlatenConfig) (h : HeadId) : ArmKept c (c.withdraw g h) := by
  unfold Conditioner.withdraw; split
  · exact .stow ..
  · exact .refl _

theorem ArmKept.turnInward (c : Conditioner) (g : PlatenConfig) : ArmKept c (c.turnInward g).1 := by
  unfold Conditioner.turnInward; split
  · exact (ArmKept.countSweep c).trans (.outside rfl rfl rfl rfl)
  · exact .refl _

theorem ArmKept.motionDecision (c : Conditioner) (g : PlatenConfig) : ArmKept c (c.motionDecision g).1 := by
  unfold Conditioner.motionDecision; repeat' split
  all_goals first
    | exact .refl _
    | exact .outside rfl rfl rfl rfl
    | exact .enter ..
    | exact .turnInward ..
    | exact (ArmKept.enterToward ..).trans (.turnInward ..)

theorem Cascade.modCond {s : State} {p : PlatenId} {f : Conditioner → Conditioner}
    (h : ArmKept (s.cond p) (f (s.cond p))) : Cascade s (s.modCond p f) := .setCond h

theorem Cascade.refreshOuter (s : State) (p : PlatenId) : Cascade s (s.refreshOuter p) := by
  unfold State.refreshOuter; dsimp only; split
  · refine Cascade.trans (Cascade.setCond ?_) (.diskSweep ..)
    exact (ArmKept.countSweep _).trans (.outside rfl rfl rfl rfl)
  · exact .setCond (.outside rfl rfl rfl rfl)

theorem Cascade.inSituRequest (s : State) (h : HeadId) (p : PlatenId) : Cascade s (s.inSituRequest h p) := by
  unfold State.inSituRequest; repeat' split
  · exact .modCond (.beginSweep ..)
  · exact .modCond (.stow ..)
  · exact .refl _

theorem Cascade.withdraw (s : State) (h : HeadId) : Cascade s (s.withdraw h) :=
  .foldl (fun _ _ => .modCond (.withdraw ..)) _ _

theorem Cascade.startRun (s : State) (p : PlatenId) : Cascade s (s.startRun p) := by
  refine Cascade.trans (t := s.modStation (.platen p) fun r => { r with holder := some .conditioner })
    (Cascade.setStation {}) (.modCond ?_)
  exact (ArmKept.beginSweep ..).trans (.outside rfl rfl rfl rfl)

theorem Cascade.tryClaim (s : State) (p : PlatenId) : Cascade s (s.tryClaim p) := by
  unfold State.tryClaim; dsimp only; split
  · exact .startRun ..
  · exact .refl _

theorem Cascade.resumeRun (s : State) (p : PlatenId) : Cascade s (s.resumeRun p) := by
  unfold State.resumeRun; split
  · exact .refl _
  · exact .modCond (.resumeRun ..)

theorem Cascade.condTripCleared (s : State) (p : PlatenId) : Cascade s (s.condTripCleared p) := by
  unfold State.condTripCleared; dsimp only
  refine Cascade.trans ?_ (.tryClaim ..)
  split
  · exact (Cascade.resumeRun ..).trans (.modCond (.stow ..))
  · exact .resumeRun ..

/-! ## Lift and setpoints -/

theorem ZoneKept.applySet (b : Bool) (z : ZoneMonitor) (x : ZoneSet) : ZoneKept b z (z.applySet x) := by
  unfold ZoneMonitor.applySet; split
  · exact .refl _ _
  · next h => exact ⟨rfl, rfl, rfl, fun _ u => by rw [h] at u; cases u⟩

theorem Cascade.applySet (s : State) (h : HeadId) (x : ZoneSet) : Cascade s (s.applySet h x) :=
  .setZone (.applySet ..)

theorem Cascade.liftUp (s : State) (h : HeadId) : Cascade s (s.liftUp h) := by
  have key : Cascade s (s.modZone h fun z => { z with lift := .up }) := .setZone ⟨rfl, rfl, rfl, fun _ _ => rfl⟩
  unfold State.liftUp; dsimp only; repeat' split
  · exact key.trans (.refreshOuter ..)
  · exact key
  · exact .refl _

theorem Cascade.touchDown (s : State) (h : HeadId) (p : PlatenId) (g : Nat) : Cascade s (s.touchDown h p g) := by
  unfold State.touchDown; split
  · exact .refl _
  · next n =>
    have key : Cascade s (s.modZone h fun z =>
        { z with lift := .down (.gap g) (BandTimer.start z.inBand.allTrue) }) :=
      Cascade.setZone ⟨rfl, rfl, rfl, fun t => absurd t n⟩
    exact key.trans (.refreshOuter ..)

theorem Cascade.modZone {s : State} {h : HeadId} {f : ZoneMonitor → ZoneMonitor}
    (k : ZoneKept s.trip.tripped (s.zone h) (f (s.zone h))) : Cascade s (s.modZone h f) := .setZone k

/-! ## Timebase -/

theorem BaseKept.setSpeed (b : Timebase) (v : Nat) : BaseKept b (b.setSpeed v) := by
  unfold Timebase.setSpeed; repeat' split
  all_goals exact ⟨rfl, rfl, rfl, rfl⟩

theorem Cascade.modBase {s : State} {p : PlatenId} {f : Timebase → Timebase} (k : BaseKept (s.base p) (f (s.base p))) :
    Cascade s (s.modBase p f) := .setBase k

theorem Cascade.refreshSpeed (s : State) (p : PlatenId) : Cascade s (s.refreshSpeed p) := .modBase (.setSpeed ..)

theorem Cascade.settle (s : State) : Cascade s s.settle :=
  .foldl (fun _ _ => (Cascade.refreshOuter ..).trans (.refreshSpeed ..)) _ _

theorem Cascade.disown (s : State) (h : HeadId) : Cascade s (s.disown h) := by
  unfold State.disown; split
  · exact .refl _
  · exact .modBase ⟨rfl, rfl, rfl, rfl⟩

/-! ## Dispense Manifold -/

theorem LineKept.release (b : Bool) (k : Line) (h : HeadId) : LineKept b k (k.release h) := by
  unfold Line.release; split
  · next e =>
    refine ⟨rfl, rfl, rfl, fun d => ?_, fun t d => ?_, fun _ _ => rfl, id⟩ <;> simp [Line.serves, d] at e
  · exact .refl _ _

theorem LineKept.leave (b : Bool) (k : Line) (n : NozzleId) : LineKept b k (k.leave n) :=
  ⟨rfl, rfl, rfl, id, fun _ h => h, fun _ h => h, fun h => h.filter _⟩

theorem LineKept.keep (b : Bool) (k : Line) (h : HeadId) (f : Nat) : LineKept b k (k.keep h f) := by
  unfold Line.keep; split
  · next e =>
    split
    · refine ⟨rfl, rfl, rfl, fun d => ?_, fun t d => ?_, fun _ u => ?_, id⟩
      · rw [e] at d; cases d
      · rw [e] at d; cases d
      · simp [Line.pumpOn, e] at u
    · exact .refl _ _
  · exact .refl _ _

theorem LineKept.join (b : Bool) (k : Line) (n : NozzleId) : LineKept b k (k.join n) := by
  unfold Line.join; split
  · exact .refl _ _
  · next e =>
    refine ⟨rfl, rfl, rfl, id, fun _ h => h, fun _ h => h, fun h => ?_⟩
    exact List.nodup_append.2 ⟨h, by simp, fun a ha b hb => by simp at hb; rintro rfl; exact e (hb ▸ ha)⟩

theorem Cascade.dropLine (s : State) (h : HeadId) : Cascade s (s.dropLine h) := by
  have key : Cascade s { s with lines := s.lines.map fun k => k.release h } := .mapLines fun k => .release _ k h
  unfold State.dropLine; dsimp only; split
  · exact key.trans (.mapLines fun k => .leave _ k _)
  · exact key

theorem Cascade.keepLine (s : State) (h : HeadId) (f : Nat) : Cascade s (s.keepLine h f) :=
  .mapLines fun k => .keep _ k h f

theorem Cascade.acquireLine (s : State) (l : LineId) (n : NozzleId) (h : HeadId) (f : Nat) (r : Bool) :
    Cascade s (s.acquireLine l n h f r).1 := by
  have queue : Cascade s ((s.setLine l ((s.line l).join n)).raise .recipe (.lineWait h)) :=
    (Cascade.setLine (.join ..)).trans (.raise ..)
  unfold State.acquireLine; dsimp only; split
  · exact .refl _
  · split
    · exact .refl _
    · split
      · next e c =>
        refine Cascade.setLine ⟨rfl, rfl, rfl, fun d => ?_, fun t d => ?_, fun t => ?_, id⟩
        · rw [e] at d; cases d
        · rw [e] at d; cases d
        · simp [t] at c
      · exact queue
    · split
      · exact .refl _
      · exact queue
    · exact queue

/-! ## Station Table -/

theorem CarrierKept.send (c : Carrier) (b : Bool) (o d : StationId) : CarrierKept b c (c.send b o d) := by
  cases b
  · exact ⟨rfl, fun t => by cases t⟩
  · exact ⟨rfl, fun _ _ => rfl⟩

theorem Cascade.sendMove (s : State) (h : HeadId) (o d : StationId) : Cascade s (s.sendMove h o d) :=
  .setCarrier (.send ..)

theorem Carrier.halt_still (c : Carrier) : c.halt.position.isMoving = false := by
  unfold Carrier.halt; split
  · rfl
  · next h =>
    match e : c.position with
    | .unplaced => rfl
    | .stands _ => rfl
    | .inTransit _ _ (.moving _ _) => exact (h _ _ _ _ e).elim
    | .inTransit _ _ .halted => rfl
    | .inTransit _ _ .deferred => rfl

theorem CarrierKept.halt (b : Bool) (c : Carrier) : CarrierKept b c c.halt := by
  refine ⟨?_, fun _ _ => c.halt_still⟩
  unfold Carrier.halt; split <;> rfl

theorem Cascade.haltMove (s : State) (h : HeadId) : Cascade s (s.haltMove h) := .setCarrier (.halt ..)

theorem Cascade.forwardMove (s : State) (h : HeadId) : Cascade s (s.forwardMove h) := by
  unfold State.forwardMove; split
  · exact .sendMove ..
  · exact .sendMove ..
  · exact .refl _

theorem Cascade.reverseMove (s : State) (h : HeadId) (o d : StationId) : Cascade s (s.reverseMove h o d) :=
  (Cascade.haltMove ..).trans (.sendMove ..)

theorem StationKept.leave (r : Station) (h : HeadId) : StationKept r (r.leave h) :=
  { nodup := fun n => n.filter _, short := fun n => Nat.le_trans (List.length_filter_le ..) n }

theorem StationKept.join (r : Station) (h : HeadId) (room : r.wait.length < Config.stationWaiters) :
    StationKept r (r.join h) := by
  unfold Station.join; split
  · exact .refl _
  · next e =>
    exact
      { nodup := fun n => List.nodup_append.2
          ⟨n, by simp, fun a ha b hb => by simp at hb; rintro rfl; exact e (hb ▸ ha)⟩
        short := fun _ => by simpa using room }

theorem Cascade.leaveWaits (s : State) (h : HeadId) : Cascade s (s.leaveWaits h) := .mapStations fun k => .leave k h

theorem Cascade.acquire (s : State) (h : HeadId) (d : StationId) : Cascade s (s.acquire h d).1 := by
  have grant : ∀ o, Cascade s ((s.modStation d fun r => { r with holder := some (.head h) }).sendMove h o d) :=
    fun o => Cascade.trans (t := s.modStation d fun r => { r with holder := some (.head h) })
      (Cascade.setStation {}) (.sendMove ..)
  unfold State.acquire; repeat' split
  all_goals first
    | exact .refl _
    | exact .forwardMove ..
    | exact .reverseMove ..
    | exact grant _
    | exact Cascade.setStation (StationKept.join _ _ (by omega))

theorem Cascade.haltResumable (s : State) (h : HeadId) (r : HaltReason) : Cascade s (s.haltResumable h r) :=
  (((Cascade.leaveWaits ..).trans (.liftUp ..)).trans (.modSeq {})).trans (.raise ..)

theorem Cascade.haltRequest (s : State) (h : HeadId) (r : HaltReason) : Cascade s (s.haltRequest h r) :=
  (Cascade.modWorking ..).trans (.haltResumable ..)

theorem Cascade.grantNext (s : State) (d : StationId) : Cascade s (s.grantNext d) := by
  unfold State.grantNext; split
  · exact .refl _
  · next g rest e =>
    have key : Cascade s (s.modStation d fun r => { r with holder := some (.head g), wait := rest }) :=
      Cascade.setStation
        { nodup := fun n => by rw [e] at n; exact (List.nodup_cons.1 n).2
          short := fun n => by rw [e] at n; simp at n ⊢; omega }
    exact Cascade.trans (key.trans (.sendMove ..)) (.modSeq {})

theorem Cascade.dismissAll (s : State) (d : StationId) : Cascade s (s.dismissAll d) :=
  .foldl (fun _ _ => (Cascade.leaveWaits ..).trans (.haltRequest ..)) _ _

theorem Cascade.handStation (s : State) (d : StationId) : Cascade s (s.handStation d) := by
  unfold State.handStation; repeat' split
  all_goals first
    | exact .startRun ..
    | exact .refl _
    | exact .grantNext ..
    | exact .dismissAll ..

theorem Cascade.modPad {s : State} {p : PlatenId} {f : Pad → Pad} (k : PadKept (s.pad p) (f (s.pad p))) :
    Cascade s (s.modPad p f) := .setPad k

theorem Cascade.accountRelease (s : State) (d : StationId) : Cascade s (s.accountRelease d) := by
  unfold State.accountRelease; split
  · exact .modPad (.countWafer _)
  · exact .refl _

theorem Cascade.vacate (s : State) (d : StationId) : Cascade s (s.modStation d fun r => { r with holder := none }) :=
  .setStation {}

theorem Cascade.release (s : State) (d : StationId) : Cascade s (s.release d) :=
  ((Cascade.accountRelease ..).trans (.vacate ..)).trans (.handStation ..)

theorem Cascade.completeRun (s : State) (p : PlatenId) : Cascade s (s.completeRun p) :=
  (((Cascade.modPad (.runDone _)).trans (.modCond (.runOver ..))).trans (.release ..)).trans (.raise ..)

/-! ## Endpoint Qualifier -/

theorem Cascade.modQual (s : State) (p : PlatenId) (f : Qualifier → Qualifier) : Cascade s (s.modQual p f) := .setQual

theorem Cascade.armWatch (s : State) (p : PlatenId) (h : HeadId) (n : Nat) : Cascade s (s.armWatch p h n) :=
  Cascade.setQual.trans (.raise ..)

theorem Cascade.closeWatch (s : State) (p : PlatenId) : Cascade s (s.closeWatch p) := by
  unfold State.closeWatch; split
  · exact .refl _
  · exact (Cascade.modQual ..).trans (.raise ..)

theorem Cascade.closeWatchOf (s : State) (h : HeadId) : Cascade s (s.closeWatchOf h) :=
  .foldl (fun t p => by split; exacts [.closeWatch .., .refl _]) _ _

/-! ## Phases and interventions -/

theorem Cascade.enterPolish (s : State) (h : HeadId) : Cascade s (s.enterPolish h) := by
  unfold State.enterPolish; split
  · exact .refl _
  · dsimp only; repeat' split
    · exact (Cascade.applySet ..).trans (.setWorking ..)
    · exact ((Cascade.applySet ..).trans (.setWorking ..)).trans (.armWatch ..)
    · exact (Cascade.applySet ..).trans (.setWorking ..)

theorem Cascade.enterGap (s : State) (h : HeadId) : Cascade s (s.enterGap h).1 := by
  unfold State.enterGap; split
  · exact .refl _
  · dsimp only; repeat' split
    · exact ((Cascade.setWorking ..).trans (.applySet ..)).trans (.enterPolish ..)
    · exact (Cascade.setWorking ..).trans (.applySet ..)
    · exact ((Cascade.setWorking ..).trans (.touchDown ..)).trans (.enterPolish ..)
    · exact (Cascade.setWorking ..).trans (.touchDown ..)

theorem Cascade.enterKeepout (s : State) (h : HeadId) : Cascade s (s.enterKeepout h).1 := by
  unfold State.enterKeepout; split
  · exact .refl _
  · dsimp only; split
    · exact ((Cascade.setWorking ..).trans (.refreshOuter ..)).trans (.enterGap ..)
    · exact (Cascade.setWorking ..).trans (.refreshOuter ..)

theorem SeqKept.push (q : Sequencer) (c : Context) : SeqKept q (q.push c).1 := by
  have len : ∀ x : List Context, ¬ x.length < Config.stackDepth → (c :: x.dropLast).length = x.length := by
    intro x h; simp [Config.stackDepth] at h ⊢; omega
  unfold Sequencer.push; split
  · exact { stack := fun _ => by simpa using Nat.succ_le_of_lt (by assumption) }
  · next h => split <;> exact { stack := fun k => (len _ h).le.trans k }

theorem Cascade.pushContext (s : State) (h : HeadId) (c : Context) : Cascade s (s.pushContext h c) := by
  unfold State.pushContext; dsimp only; split
  · exact (Cascade.setSeq (.push ..)).trans (.raise ..)
  · exact .setSeq (.push ..)

theorem Cascade.parkAsk (s : State) (h : HeadId) : Cascade s (s.parkAsk h) := by
  have key := ((Cascade.liftUp s h).trans (.acquire _ h .rinse)).trans (.setPark _ h ((s.liftUp h).acquire h .rinse).2.park)
  unfold State.parkAsk; dsimp only; split
  · exact key.trans (.raise ..)
  · exact key

theorem Cascade.enterClass (s : State) (h : HeadId) (k : Intervention) : Cascade s (s.enterClass h k) := by
  cases k
  · exact .applySet ..
  · exact .liftUp ..
  · exact .parkAsk ..
  · exact .liftUp ..

theorem Cascade.suspendStep (s : State) (h : HeadId) : Cascade s (s.suspendStep h) :=
  (((Cascade.disown ..).trans (.closeWatchOf ..)).trans (.withdraw ..)).trans (.dropLine ..)

theorem Cascade.beginIntervention (s : State) (h : HeadId) (a : Activity) (c : Cause) :
    Cascade s (s.beginIntervention h a c) :=
  (((((((Cascade.suspendStep ..).trans (.leaveWaits ..)).trans (.haltMove ..)).trans (.pushContext ..)).trans
    (.modSeq {})).trans (.enterClass ..)).trans
    (.modSeq { stack := fun k => (List.length_map _).le.trans k })).trans (.raise ..)

theorem Cascade.takeCause (s : State) (h : HeadId) (c : Cause) : Cascade s (s.takeCause h c) := by
  unfold State.takeCause; split
  · exact .refl _
  · split
    · exact .refl _
    · repeat' split
      · exact .beginIntervention ..
      · exact .modSeq {}
      · exact .refl _

theorem Cascade.toKeepout (s : State) (h : HeadId) : Cascade s (s.toKeepout h) :=
  (Cascade.enterKeepout ..).trans (.foldl (fun _ _ => .takeCause ..) _ _)

theorem Cascade.handOn (l : LineId) : ∀ (n : Nat) (s : State), Cascade s (s.handOn l n)
  | 0, s => .refl s
  | n + 1, s => by
    unfold State.handOn
    split
    · next p rest ht hs hw =>
      have drop : Cascade s (s.modLine l fun k => { k with wait := rest }) :=
        .setLine ⟨rfl, rfl, rfl, id, fun _ h => h, fun _ h => h, fun n => by
          rw [hw] at n; exact (List.nodup_cons.1 n).2⟩
      dsimp only
      split
      · exact drop.trans (Cascade.handOn l n _)
      · split
        · exact drop.trans (Cascade.handOn l n _)
        · next g _ _ _ r _ _ =>
          have bind : Cascade (s.modLine l fun k => { k with wait := rest })
              ((s.modLine l fun k => { k with wait := rest }).modLine l fun k =>
                { k with state := .bound p g r.flow }) := by
            refine Cascade.setLine ⟨rfl, rfl, rfl, fun d => ?_, fun t d => ?_, fun t => ?_, id⟩
            · simp [State.modLine_eq, hs] at d
            · simp [State.modLine_eq, hs] at d
            · simp [State.modLine_eq, ht] at t
          exact ((drop.trans bind).trans (.toKeepout ..)).trans (Cascade.handOn l n _)
    · exact .refl _

theorem Cascade.handOnAll (s : State) : Cascade s s.handOnAll := .foldl (fun _ _ => .handOn ..) _ _

theorem Cascade.raiseCause (s : State) (h : HeadId) (c : Cause) : Cascade s (s.raiseCause h c) :=
  (Cascade.takeCause ..).trans (.handOnAll _)

/-! ## Head Sequencer -/

theorem Cascade.askInSitu (s : State) (h : HeadId) (p : PlatenId) : Cascade s (s.askInSitu h p) :=
  (Cascade.modWorking ..).trans (.inSituRequest ..)

theorem Cascade.lineAnswered (s : State) (h : HeadId) (l : LineId) (a : LineAnswer) :
    Cascade s (s.lineAnswered h l a) := by
  cases a
  · exact .toKeepout ..
  · exact .liftUp ..
  · exact .takeCause ..
  · exact (Cascade.withdraw ..).trans (.haltResumable ..)

theorem Cascade.enterAcquire (s : State) (h : HeadId) : Cascade s (s.enterAcquire h) := by
  unfold State.enterAcquire; split
  · exact .refl _
  · next w r p _ =>
    dsimp only
    have key : Cascade s (if r.inSitu = true then
        (s.setWorking h { w with phase := some .acquireLine, resume := none }).askInSitu h p
        else s.setWorking h { w with phase := some .acquireLine, resume := none }) := by
      split
      · exact (Cascade.setWorking ..).trans (.askInSitu ..)
      · exact .setWorking ..
    split
    · exact (key.trans (.toKeepout ..)).trans (.handOnAll _)
    · exact (key.trans (.toKeepout ..)).trans (.handOnAll _)
    · exact ((key.trans (.acquireLine ..)).trans (.lineAnswered ..)).trans (.handOnAll _)

theorem Cascade.endRun (s : State) (h : HeadId) (o : StepOutcome) : Cascade s (s.endRun h o) :=
  ((((((Cascade.modSeq { results := List.prefix_append .., stack := fun _ => by simp }).trans (.disown ..)).trans
    (.closeWatchOf ..)).trans (.withdraw ..)).trans
    (.dropLine ..)).trans (.leaveWaits ..)).trans (.liftUp ..)

theorem Cascade.idleNotices (s : State) (h : HeadId) : Cascade s (s.idleNotices h) := by
  unfold State.idleNotices; dsimp only; split
  · exact (Cascade.raise ..).trans (.raise ..)
  · exact .raise ..

theorem Cascade.enterIdle (s : State) (h : HeadId) : Cascade s (s.enterIdle h) :=
  (Cascade.setHead ..).trans (.idleNotices ..)

theorem Cascade.takeEnd (s : State) (h : HeadId) (e : EndState) : Cascade s (s.takeEnd h e) := by
  cases e
  · exact .enterIdle ..
  · exact (Cascade.setHead ..).trans (.raise ..)

theorem Cascade.close (s : State) (h : HeadId) (e : EndState) : Cascade s (s.close h e) := by
  unfold State.close; split
  · exact (Cascade.setHead ..).trans (.forwardMove ..)
  · exact .takeEnd ..

theorem Cascade.finalHalt (s : State) (h : HeadId) (r : FinalReason) : Cascade s (s.finalHalt h r) :=
  ((Cascade.endRun ..).trans (.close ..)).trans (.handOnAll _)

theorem Cascade.leaveBehind (s : State) (h : HeadId) (p : Option StepLine) (n : Option StepRecord) :
    Cascade s (s.leaveBehind h p n) := by
  unfold State.leaveBehind; split
  · exact .refl _
  · dsimp only; split
    · refine Cascade.trans ?_ (.handOnAll _)
      repeat' split
      · exact (Cascade.applySet ..).trans (.keepLine ..)
      · exact (Cascade.applySet ..).trans (.dropLine ..)
      · exact ((Cascade.applySet ..).trans (.keepLine ..)).trans (.withdraw ..)
      · exact ((Cascade.applySet ..).trans (.dropLine ..)).trans (.withdraw ..)
    · exact (((Cascade.liftUp ..).trans (.withdraw ..)).trans (.dropLine ..)).trans (.handOnAll _)

theorem Cascade.moveAnswered (s : State) (h : HeadId) (a : Answer) : Cascade s (s.moveAnswered h a) := by
  cases a
  · exact .refl _
  · exact .modWorking ..
  · exact .modWorking ..
  · exact (Cascade.raise ..).trans (.haltRequest ..)
  · exact .haltRequest ..
  · exact .modWorking ..
  · exact .modWorking ..
  · exact (Cascade.modWorking ..).trans (.forwardMove ..)

theorem Cascade.own (s : State) (p : PlatenId) (h : HeadId) (a l : Nat) (c : StepClock) :
    Cascade s (s.modBase p fun b => b.own h a l c) := .modBase ⟨rfl, rfl, rfl, rfl⟩

theorem Cascade.polishChecks (s : State) (h : HeadId) (r : PolishRecord) : Cascade s (s.polishChecks h r) := by
  unfold State.polishChecks; split
  · exact .finalHalt ..
  · dsimp only; split
    · exact ((Cascade.modWorking ..).trans (.own ..)).trans (.enterAcquire ..)
    · exact (Cascade.modWorking ..).trans (.finalHalt ..)

theorem Cascade.refreshHere (s : State) (h : HeadId) : Cascade s (s.refreshHere h) := by
  unfold State.refreshHere; split
  · exact .refreshSpeed ..
  · exact .refl _

theorem SeqKept.setUser (q : Sequencer) (f : UserFlag) (v : Bool) : SeqKept q (q.setUser f v) := by
  cases f <;> exact {}

theorem SeqKept.applyAction (q : Sequencer) (a : Option FlagAction) : SeqKept q (q.applyAction a) := by
  cases a
  · exact .refl _
  · exact .setUser ..

theorem SeqKept.endpointFlags (q : Sequencer) (o : StepOutcome) : SeqKept q (q.endpointFlags o) := by
  cases o <;> exact {}

theorem Cascade.closeStep (s : State) (h : HeadId) (o : StepOutcome) : Cascade s (s.closeStep h o) := by
  unfold State.closeStep; split
  · exact .refl _
  · refine ((Cascade.disown ..).trans (.closeWatchOf ..)).trans (.modSeq ?_)
    have k : ∀ a, SeqKept (((s.disown h).closeWatchOf h).seq h)
        (((((s.disown h).closeWatchOf h).seq h).endpointFlags o).applyAction a) :=
      fun a => (SeqKept.endpointFlags ..).trans (.applyAction ..)
    exact ⟨(k _).steps, (k _).vacuum, (k _).claim, List.prefix_append .., (k _).stack⟩

theorem Cascade.advance (h : HeadId) : ∀ (rs : List StepRecord) (i : Nat) (p : Option StepLine) (s : State),
    Cascade s (State.advance h rs i p s)
  | [], _, _, _ => (Cascade.leaveBehind ..).trans (.enterIdle ..)
  | rec :: rest, i, p, s => by
    unfold State.advance; split
    · exact Cascade.trans (.modSeq { results := List.prefix_append .. }) (Cascade.advance h rest _ _ _)
    · dsimp only
      have key : Cascade s ((s.leaveBehind h p (some rec)).setWorking h
          (Working.fresh i rec (s.stationOf h) s.beat.counter (rec.continues p))) :=
        (Cascade.leaveBehind ..).trans (.setWorking ..)
      split
      · exact key.trans (.refreshHere ..)
      · exact key.trans (.polishChecks ..)
      · split
        · exact (((key.trans (.refreshHere ..)).trans (.acquire ..)).trans (.closeStep ..)).trans
            (Cascade.advance h rest _ _ _)
        · exact ((key.trans (.refreshHere ..)).trans (.acquire ..)).trans (.moveAnswered ..)

theorem Cascade.finishStep (s : State) (h : HeadId) (o : StepOutcome) : Cascade s (s.finishStep h o) := by
  unfold State.finishStep; split
  · exact .refl _
  · exact (Cascade.closeStep ..).trans (.advance ..)

theorem Cascade.endDue (s : State) (e : HeadId × StepOutcome × Bool) : Cascade s (s.endDue e) :=
  (Cascade.modWorking ..).trans (.finishStep ..)

theorem Cascade.accrueTo (s : State) (p : PlatenId) (v : Nat) : Cascade s (s.accrueTo p v) := by
  have key : Cascade s ((s.modBase p fun b => { b with accumulator := v }).modPad p fun k =>
      { k with polishMark := true }) :=
    Cascade.trans (.modBase ⟨rfl, rfl, rfl, rfl⟩) (.modPad ⟨rfl, rfl, rfl, rfl, rfl, rfl, rfl, Nat.le_refl _⟩)
  unfold State.accrueTo; dsimp only; split
  · exact key.trans (.endDue ..)
  · exact key

theorem Cascade.accrue (s : State) (p : PlatenId) (c : StepClock) : Cascade s (s.accrue p c) := by
  unfold State.accrue; split
  · exact .accrueTo ..
  · exact .refl _

theorem Cascade.confirmStep (s : State) (h : HeadId) (c : Capture) : Cascade s (s.confirmStep h c) := by
  unfold State.confirmStep; split
  · exact .refl _
  · exact (Cascade.setWorking ..).trans (.modSeq {})

theorem Cascade.confirm (s : State) (p : PlatenId) : Cascade s (s.confirm p) := by
  unfold State.confirm; split
  · exact .refl _
  · next h _ =>
    dsimp only
    have key := (((Cascade.modQual s p fun q =>
      { q with capture := some ⟨(s.base p).revolution, (s.base p).position, (s.base p).accumulator⟩ }).trans
      (.confirmStep _ h ⟨(s.base p).revolution, (s.base p).position, (s.base p).accumulator⟩)).trans
      (.raise _ .endpoint (.confirmed p))).trans (.closeWatch _ p)
    repeat' split
    · exact key.trans (.finishStep ..)
    · exact key
    · exact key

/-! ## Resuming -/

theorem Cascade.arrived (s : State) (h : HeadId) : Cascade s (s.arrived h) := by
  unfold State.arrived; split
  · exact .refl _
  · split
    · exact .finishStep ..
    · exact .setWorking ..
    · split
      · split
        · exact Cascade.trans (.own ..) (.enterAcquire ..)
        · exact .refl _
      · exact .finalHalt ..

theorem Cascade.askStation (s : State) (h : HeadId) : Cascade s (s.askStation h) := by
  unfold State.askStation; split
  · exact .refl _
  · dsimp only; split
    · exact (Cascade.acquire ..).trans (.arrived ..)
    · exact (Cascade.acquire ..).trans (.moveAnswered ..)

theorem Cascade.resumeStep (s : State) (h : HeadId) (w : Working) : Cascade s (s.resumeStep h w) :=
  ((Cascade.liftUp ..).trans (.setWorking ..)).trans (.askStation ..)

theorem Cascade.resumeIntervention (s : State) (h : HeadId) (k : Intervention) (cs : List Cause) :
    Cascade s (s.resumeIntervention h k cs) := by
  unfold State.resumeIntervention; dsimp only; split
  · exact Cascade.trans (.modSeq {}) (.parkAsk ..)
  all_goals exact .modSeq {}

theorem Cascade.unwind (h : HeadId) : ∀ (cs : List Context) (s : State), cs.length ≤ (s.seq h).stack.length →
    Cascade s (State.unwind h cs s)
  | [], _, _ => .finalHalt ..
  | c :: rest, s, len => by
    simp only [List.length_cons] at len
    have key : Cascade s (s.modSeq h fun q => { q with activity := none, stack := rest }) :=
      .modSeq { stack := fun k => show rest.length ≤ _ by omega }
    unfold State.unwind; dsimp only; split
    · exact key.trans (.resumeStep ..)
    · refine key.trans (Cascade.unwind h rest _ ?_)
      rw [State.modSeq_eq, State.seq_setSeq_self]
    · exact key.trans (.resumeIntervention ..)

theorem Cascade.endIntervention (s : State) (h : HeadId) : Cascade s (s.endIntervention h) :=
  ((Cascade.leaveWaits ..).trans (.modSeq {})).trans (.unwind _ _ _ (Nat.le_refl _))

theorem Cascade.endIfClear (s : State) (h : HeadId) : Cascade s (s.endIfClear h) := by
  unfold State.endIfClear; split
  · exact .endIntervention ..
  · exact .refl _

theorem Cascade.recoverHead (s : State) (l : LineId) (h : HeadId) : Cascade s (s.recoverHead l h) :=
  Cascade.trans (.modSeq { stack := fun k => (List.length_map _).le.trans k }) (.endIfClear ..)

theorem Cascade.deliverRecovery (s : State) (l : LineId) : Cascade s (s.deliverRecovery l) :=
  .foldl (fun _ _ => .recoverHead ..) _ _

theorem Cascade.continueMove (s : State) (h : HeadId) : Cascade s (s.continueMove h) := by
  unfold State.continueMove; repeat' split
  all_goals first
    | exact .refl _
    | exact .askStation ..
    | exact .setPark ..

theorem Cascade.moveCompleted (s : State) (h : HeadId) (m : Bool) : Cascade s (s.moveCompleted h m) := by
  unfold State.moveCompleted; repeat' split
  all_goals first
    | exact .refl _
    | exact .takeEnd ..
    | exact .continueMove ..

theorem Cascade.completeMove (s : State) (h : HeadId) : Cascade s (s.completeMove h) := by
  unfold State.completeMove; split
  · next o d st e =>
    have key : Cascade s (s.modCarrier h fun c => { c with position := .stands d }) := .setCarrier ⟨rfl, fun _ _ => rfl⟩
    dsimp only
    exact (key.trans (.release ..)).trans (.moveCompleted ..)
  · exact .refl _

theorem Cascade.faultMove (s : State) (h : HeadId) : Cascade s (s.faultMove h) := by
  unfold State.faultMove; split
  · exact (Cascade.haltMove ..).trans (.haltResumable ..)
  · exact .refl _

theorem Cascade.resumeRunning (s : State) (h : HeadId) : Cascade s (s.resumeRunning h) :=
  Cascade.trans (.modSeq {}) (.endIfClear ..)

theorem Cascade.retryRequest (s : State) (h : HeadId) : Cascade s (s.retryRequest h) := by
  unfold State.retryRequest; repeat' split
  all_goals first
    | exact .refl _
    | exact .enterAcquire ..
    | exact .askStation ..

theorem Cascade.retryMove (s : State) (h : HeadId) : Cascade s (s.retryMove h) := by
  unfold State.retryMove; repeat' split
  all_goals first
    | exact (Cascade.forwardMove ..).trans (.endIfClear ..)
    | exact .askStation ..
    | exact .parkAsk ..
    | exact .endIfClear ..

theorem Cascade.resumeHalted (s : State) (h : HeadId) (r : HaltReason) (e : Option EndState) :
    Cascade s (s.resumeHalted h r e) := by
  unfold State.resumeHalted; split
  · exact .close ..
  · dsimp only; repeat' split
    · exact (Cascade.setHead ..).trans (.finalHalt ..)
    · exact (Cascade.setHead ..).trans (.retryMove ..)
    · exact (Cascade.setHead ..).trans (.retryRequest ..)

theorem Cascade.abort (s : State) (h : HeadId) : Cascade s (s.abort h) :=
  ((Cascade.endRun ..).trans (.close ..)).trans (.handOnAll _)

/-! ## Clocks -/

theorem Cascade.loadAmend (s : State) (p : PlatenId) : Cascade s (s.loadAmend p) := by
  unfold State.loadAmend; repeat' split
  · exact .refl _
  · exact .refl _
  · exact (Cascade.modWorking ..).trans (.modBase ⟨rfl, rfl, rfl, rfl⟩)

theorem Cascade.boundaryAccrual (s : State) (p : PlatenId) : Cascade s (s.boundaryAccrual p) := by
  unfold State.boundaryAccrual; dsimp only; repeat' split
  · exact .accrue ..
  · exact (Cascade.loadAmend ..).trans (.endDue ..)
  · exact (Cascade.loadAmend ..).trans (.accrue ..)

theorem BaseKept.countSeen (b : Timebase) : BaseKept b b.countSeen := by
  unfold Timebase.countSeen; split <;> exact ⟨rfl, rfl, rfl, rfl⟩

theorem Cascade.platenSeen (s : State) (p : PlatenId) : Cascade s (s.platenSeen p) := by
  unfold State.platenSeen; split
  · exact Cascade.trans (.modBase (.countSeen _)) (.resumeRun ..)
  · exact .modBase (.countSeen _)

theorem Cascade.forwardToHead (s : State) (p : PlatenId) : Cascade s (s.forwardToHead p) := by
  unfold State.forwardToHead; repeat' split
  all_goals first
    | exact .refl _
    | exact .enterPolish ..
    | exact .setWorking ..
    | exact .accrue ..

theorem Cascade.stall (s : State) (p : PlatenId) : Cascade s (s.stall p) := by
  have key : Cascade s (s.modBase p Timebase.stall) := .modBase ⟨rfl, rfl, rfl, rfl⟩
  unfold State.stall; dsimp only; repeat' split
  · exact key
  · exact key.trans (.modCond (.suspendRun ..))
  · exact key.trans (.raiseCause ..)
  · exact key

theorem Cascade.deliverArm (s : State) (p : PlatenId) : Cascade s (s.deliverArm p) := by
  unfold State.deliverArm; split
  · exact .refl _
  · split
    · split
      · exact (Cascade.toKeepout ..).trans (.handOnAll _)
      · exact .refl _
    · exact .refl _

/-! ## Expiries -/

theorem Cascade.endDwell (s : State) (h : HeadId) : Cascade s (s.endDwell h) := by
  unfold State.endDwell; split
  · exact (Cascade.setWorking ..).trans (.finishStep ..)
  · exact .refl _

theorem ZoneKept.expireBand (b : Bool) (z : ZoneMonitor) : ZoneKept b z z.expireBand := by
  unfold ZoneMonitor.expireBand; split
  · exact .refl _ _
  · next e => exact ⟨rfl, rfl, rfl, fun _ u => by rw [e] at u; cases u⟩

theorem Cascade.bandExpiry (s : State) (h : HeadId) : Cascade s (s.bandExpiry h) := by
  unfold State.bandExpiry; split
  · exact (Cascade.modZone (.expireBand ..)).trans (.raiseCause ..)
  · exact .refl _

theorem Cascade.stallExpiry (s : State) (p : PlatenId) : Cascade s (s.stallExpiry p) := by
  unfold State.stallExpiry; split
  · exact .stall ..
  · exact .refl _

theorem Cascade.tickDwell (s : State) (h : HeadId) : Cascade s (s.tickDwell h) := by
  unfold State.tickDwell; repeat' split
  · exact .endDwell ..
  · exact .setWorking ..
  · exact .refl _

theorem ZoneKept.tick (b : Bool) (z : ZoneMonitor) : ZoneKept b z z.tick := by
  unfold ZoneMonitor.tick; repeat' split
  · exact .refl _ _
  · next e _ => exact ⟨rfl, rfl, rfl, fun _ u => by rw [e] at u; cases u⟩
  · exact .refl _ _

theorem Cascade.tickBand (s : State) (h : HeadId) : Cascade s (s.tickBand h) := by
  unfold State.tickBand; dsimp only; split
  · exact (Cascade.modZone (.tick ..)).trans (.bandExpiry ..)
  · exact .modZone (.tick ..)

theorem Cascade.tickMove (s : State) (h : HeadId) : Cascade s (s.tickMove h) := by
  unfold State.tickMove; split
  · next e =>
    have key : ∀ o d n l, (s.carrier h).position = .inTransit o d (.moving n l) →
        Cascade s (s.modCarrier h fun c => { c with position := .inTransit o d (.moving (n + 1) l) }) := by
      intro o d n l e'
      exact .setCarrier ⟨rfl, fun _ m => by rw [e'] at m; cases m⟩
    dsimp only; split
    · exact (key _ _ _ _ e).trans (.faultMove ..)
    · exact key _ _ _ _ e
  · exact .refl _

theorem Cascade.tickStall (s : State) (p : PlatenId) : Cascade s (s.tickStall p) := by
  unfold State.tickStall; split
  · exact .refl _
  · dsimp only; split
    · exact Cascade.trans (.modBase ⟨rfl, rfl, rfl, rfl⟩) (.stallExpiry ..)
    · exact .modBase ⟨rfl, rfl, rfl, rfl⟩

end Sys2Proof.Machine
end

