-- ==== Sys2Proof/Laws/Settle.lean ====
section
/-!
SUPPORT. What settling does (R54, R138): it decides the speed setpoints and the effective outer limits anew, counts the
sweep of an arm that turns inward, and leaves everything else as it was. A settled state is one in which every setpoint
and every limit is the one its rule gives, and settling a settled state changes nothing.
-/
namespace Sys2Proof.Machine

/-- What settling leaves as it was. -/
structure SettleKept (s t : State) : Prop where
  stations : t.stations = s.stations
  carriers : t.carriers = s.carriers
  seqs : t.seqs = s.seqs
  zones : t.zones = s.zones
  quals : t.quals = s.quals
  pads : t.pads = s.pads
  lines : t.lines = s.lines
  trip : t.trip = s.trip
  beat : t.beat = s.beat
  freeCount : t.freeCount = s.freeCount
  pending : t.pending = s.pending
  config : ∀ p, (t.base p).config = (s.base p).config
  angle : ∀ p, (t.base p).position = (s.base p).position
  revolution : ∀ p, (t.base p).revolution = (s.base p).revolution
  direction : ∀ p, (t.base p).direction = (s.base p).direction
  accumulator : ∀ p, (t.base p).accumulator = (s.base p).accumulator
  owner : ∀ p, (t.base p).owner = (s.base p).owner
  amend : ∀ p, (t.base p).amend = (s.base p).amend
  arm : ∀ p, (t.cond p).arm = (s.cond p).arm
  armPosition : ∀ p, (t.cond p).position = (s.cond p).position
  runHeld : ∀ p, (t.cond p).runHeld = (s.cond p).runHeld
  diskId : ∀ p, (t.disk p).diskId = (s.disk p).diskId
  diskLimit : ∀ p, (t.disk p).limit = (s.disk p).limit
  mask : ∀ q, (t.port q).mask = (s.port q).mask
  response : ∀ q, (t.port q).response = (s.port q).response
  selectHeld : ∀ q, (t.port q).selectHeld = (s.port q).selectHeld
  endpointPort : t.port .endpoint = s.port .endpoint
  transferPort : t.port .transfer = s.port .transfer

theorem SettleKept.refl (s : State) : SettleKept s s := by constructor <;> intros <;> rfl

theorem SettleKept.trans {s t u : State} (a : SettleKept s t) (b : SettleKept t u) : SettleKept s u where
  stations := b.stations.trans a.stations
  carriers := b.carriers.trans a.carriers
  seqs := b.seqs.trans a.seqs
  zones := b.zones.trans a.zones
  quals := b.quals.trans a.quals
  pads := b.pads.trans a.pads
  lines := b.lines.trans a.lines
  trip := b.trip.trans a.trip
  beat := b.beat.trans a.beat
  freeCount := b.freeCount.trans a.freeCount
  pending := b.pending.trans a.pending
  config p := (b.config p).trans (a.config p)
  angle p := (b.angle p).trans (a.angle p)
  revolution p := (b.revolution p).trans (a.revolution p)
  direction p := (b.direction p).trans (a.direction p)
  accumulator p := (b.accumulator p).trans (a.accumulator p)
  owner p := (b.owner p).trans (a.owner p)
  amend p := (b.amend p).trans (a.amend p)
  arm p := (b.arm p).trans (a.arm p)
  armPosition p := (b.armPosition p).trans (a.armPosition p)
  runHeld p := (b.runHeld p).trans (a.runHeld p)
  diskId p := (b.diskId p).trans (a.diskId p)
  diskLimit p := (b.diskLimit p).trans (a.diskLimit p)
  mask q := (b.mask q).trans (a.mask q)
  response q := (b.response q).trans (a.response q)
  selectHeld q := (b.selectHeld q).trans (a.selectHeld q)
  endpointPort := b.endpointPort.trans a.endpointPort
  transferPort := b.transferPort.trans a.transferPort

theorem SettleKept.raise (s : State) (n : Notice) : SettleKept s (s.raise .recipe n) where
  stations := rfl
  carriers := rfl
  seqs := rfl
  zones := rfl
  quals := rfl
  pads := rfl
  lines := rfl
  trip := rfl
  beat := rfl
  freeCount := rfl
  pending := rfl
  config _ := rfl
  angle _ := rfl
  revolution _ := rfl
  direction _ := rfl
  accumulator _ := rfl
  owner _ := rfl
  amend _ := rfl
  arm _ := rfl
  armPosition _ := rfl
  runHeld _ := rfl
  diskId _ := rfl
  diskLimit _ := rfl
  mask q := by cases q <;> rfl
  response q := by cases q <;> rfl
  selectHeld q := by cases q <;> rfl
  endpointPort := rfl
  transferPort := rfl

theorem SettleKept.setDisk (s : State) (p : PlatenId) (k : Disk) (i : k.diskId = (s.disk p).diskId)
    (l : k.limit = (s.disk p).limit) : SettleKept s (s.setDisk p k) :=
  { SettleKept.refl s with
    diskId := fun j => by rw [State.disk_setDisk]; split <;> simp_all
    diskLimit := fun j => by rw [State.disk_setDisk]; split <;> simp_all }

theorem SettleKept.diskSweep (s : State) (p : PlatenId) : SettleKept s (s.diskSweep p) := by
  have key : SettleKept s (s.setDisk p (s.disk p).sweep.1) := by
    apply SettleKept.setDisk <;> (unfold Disk.sweep; dsimp only; split <;> rfl)
  unfold State.diskSweep; dsimp only; split
  · exact key.trans (.raise ..)
  · exact key

theorem SettleKept.setCond (s : State) (p : PlatenId) (c : Conditioner) (a : c.arm = (s.cond p).arm)
    (b : c.position = (s.cond p).position) (r : c.runHeld = (s.cond p).runHeld) : SettleKept s (s.setCond p c) :=
  { SettleKept.refl s with
    arm := fun j => by rw [State.cond_setCond]; split <;> simp_all
    armPosition := fun j => by rw [State.cond_setCond]; split <;> simp_all
    runHeld := fun j => by rw [State.cond_setCond]; split <;> simp_all }

theorem Conditioner.countSweep_arm (c : Conditioner) : c.countSweep.arm = c.arm := by
  unfold Conditioner.countSweep; split <;> rfl
theorem Conditioner.countSweep_position (c : Conditioner) : c.countSweep.position = c.position := by
  unfold Conditioner.countSweep; split <;> rfl
theorem Conditioner.countSweep_runHeld (c : Conditioner) : c.countSweep.runHeld = c.runHeld := by
  unfold Conditioner.countSweep; split <;> rfl

theorem SettleKept.refreshOuter (s : State) (p : PlatenId) : SettleKept s (s.refreshOuter p) := by
  unfold State.refreshOuter; dsimp only; split
  · refine SettleKept.trans (SettleKept.setCond _ _ _ ?_ ?_ ?_) (.diskSweep ..)
    · exact Conditioner.countSweep_arm _
    · exact Conditioner.countSweep_position _
    · exact Conditioner.countSweep_runHeld _
  · exact .setCond _ _ _ rfl rfl rfl

theorem SettleKept.refreshSpeed (s : State) (p : PlatenId) : SettleKept s (s.refreshSpeed p) := by
  have key : ∀ j, (s.refreshSpeed p).base j = if j = p then (s.base p).setSpeed (s.speedWanted p) else s.base j :=
    fun j => State.base_setBase ..
  have f : ∀ (b : Timebase) (v : Nat), (b.setSpeed v).config = b.config ∧ (b.setSpeed v).position = b.position ∧
      (b.setSpeed v).revolution = b.revolution ∧ (b.setSpeed v).direction = b.direction ∧
      (b.setSpeed v).accumulator = b.accumulator ∧ (b.setSpeed v).owner = b.owner ∧
      (b.setSpeed v).amend = b.amend := by
    intro b v; unfold Timebase.setSpeed; repeat' split
    all_goals exact ⟨rfl, rfl, rfl, rfl, rfl, rfl, rfl⟩
  have g := f (s.base p) (s.speedWanted p)
  exact
    { SettleKept.refl s with
      config := fun j => by rw [key]; split <;> simp_all
      angle := fun j => by rw [key]; split <;> simp_all
      revolution := fun j => by rw [key]; split <;> simp_all
      direction := fun j => by rw [key]; split <;> simp_all
      accumulator := fun j => by rw [key]; split <;> simp_all
      owner := fun j => by rw [key]; split <;> simp_all
      amend := fun j => by rw [key]; split <;> simp_all }

theorem SettleKept.foldl {α : Type} {f : State → α → State} (h : ∀ s x, SettleKept s (f s x)) :
    ∀ (xs : List α) (s : State), SettleKept s (xs.foldl f s)
  | [], s => .refl s
  | x :: xs, s => (h s x).trans (SettleKept.foldl h xs (f s x))

theorem SettleKept.settle (s : State) : SettleKept s s.settle :=
  .foldl (fun _ _ => (SettleKept.refreshOuter ..).trans (.refreshSpeed ..)) _ _

/-! ## What the two decisions read -/

theorem SettleKept.isDown {s t : State} (k : SettleKept s t) (h : HeadId) : t.isDown h = s.isDown h := by
  unfold State.isDown State.zone; rw [k.zones]

theorem SettleKept.headOn {s t : State} (k : SettleKept s t) (p : PlatenId) : t.headOn p = s.headOn p := by
  unfold State.headOn State.station; rw [k.stations]

theorem SettleKept.outerWanted {s t : State} (k : SettleKept s t) (p : PlatenId) : t.outerWanted p = s.outerWanted p := by
  unfold State.outerWanted State.current State.seq
  rw [k.headOn, k.seqs]
  simp only [k.isDown]

theorem SettleKept.speedWanted {s t : State} (k : SettleKept s t) (p : PlatenId) : t.speedWanted p = s.speedWanted p := by
  unfold State.speedWanted State.isRunning State.station State.seq
  rw [k.trip, k.stations, k.seqs, k.runHeld, k.config]

/-! ## Settled states -/

/-- The setpoint and the limit of one platen are the ones their rules give. -/
def State.SettledAt (s : State) (p : PlatenId) : Prop :=
  (s.cond p).outer = s.outerWanted p ∧ (s.base p).setSpeed (s.speedWanted p) = s.base p

theorem Timebase.setSpeed_setSpeed (b : Timebase) (v : Nat) : (b.setSpeed v).setSpeed v = b.setSpeed v := by
  unfold Timebase.setSpeed; rcases b with ⟨_, _, _, _, speed, _, _, _, _, _⟩; dsimp only
  by_cases h : speed = 0 <;> by_cases z : v = 0 <;> simp_all [Nat.pos_iff_ne_zero]

theorem State.refreshOuter_of_settledAt {s : State} {p : PlatenId} (h : s.SettledAt p) : s.refreshOuter p = s := by
  unfold State.refreshOuter; dsimp only
  rw [if_neg (by rw [h.1]; rintro ⟨a, b, _⟩; rw [a] at b; cases b), ← h.1]
  exact State.setCond_cond s p

theorem State.refreshSpeed_of_settledAt {s : State} {p : PlatenId} (h : s.SettledAt p) : s.refreshSpeed p = s := by
  show s.setBase p ((s.base p).setSpeed (s.speedWanted p)) = s
  rw [h.2]; exact State.setBase_base s p

theorem State.settle_of_settledAt {s : State} (h : ∀ p, s.SettledAt p) : s.settle = s := by
  simp [State.settle, platenIds, refreshOuter_of_settledAt (h _), refreshSpeed_of_settledAt (h _)]

theorem State.cond_diskSweep (s : State) (p j : PlatenId) : (s.diskSweep p).cond j = s.cond j := by
  unfold State.diskSweep; dsimp only; split <;> rfl

theorem State.base_diskSweep (s : State) (p j : PlatenId) : (s.diskSweep p).base j = s.base j := by
  unfold State.diskSweep; dsimp only; split <;> rfl

theorem State.outer_refreshOuter (s : State) (p j : PlatenId) :
    ((s.refreshOuter p).cond j).outer = if j = p then s.outerWanted p else (s.cond j).outer := by
  unfold State.refreshOuter; dsimp only; split
  · rw [State.cond_diskSweep, State.cond_setCond]; split <;> rfl
  · rw [State.cond_setCond]; split <;> rfl

theorem State.base_refreshOuter (s : State) (p j : PlatenId) : (s.refreshOuter p).base j = s.base j := by
  unfold State.refreshOuter; dsimp only; split
  · rw [State.base_diskSweep]; rfl
  · rfl

theorem State.cond_refreshSpeed (s : State) (p j : PlatenId) : (s.refreshSpeed p).cond j = s.cond j := rfl

/-- The tables after one platen's turn of settling. -/
theorem State.settleOne (s : State) (p j : PlatenId) :
    (((s.refreshOuter p).refreshSpeed p).cond j).outer = (if j = p then s.outerWanted p else (s.cond j).outer) ∧
      ((s.refreshOuter p).refreshSpeed p).base j =
        (if j = p then (s.base p).setSpeed (s.speedWanted p) else s.base j) := by
  refine ⟨?_, ?_⟩
  · rw [State.cond_refreshSpeed, State.outer_refreshOuter]
  · have e := (SettleKept.refreshOuter s p).speedWanted p
    show ((s.refreshOuter p).setBase p _).base j = _
    rw [State.base_setBase, e, State.base_refreshOuter, State.base_refreshOuter]

/-- After settling, every setpoint and limit is decided. -/
theorem State.settledAt_settle (s : State) (p : PlatenId) : s.settle.SettledAt p := by
  have one : ∀ (t : State) (p : PlatenId), SettleKept t ((t.refreshOuter p).refreshSpeed p) := fun t p =>
    (SettleKept.refreshOuter t p).trans (.refreshSpeed ..)
  have all := SettleKept.settle s
  have k1 := one s .p1
  have k2 := k1.trans (one _ .p2)
  have o1 := State.settleOne s .p1
  have o2 := State.settleOne ((s.refreshOuter .p1).refreshSpeed .p1) .p2
  have o3 := State.settleOne ((((s.refreshOuter .p1).refreshSpeed .p1).refreshOuter .p2).refreshSpeed .p2) .p3
  have outer : ∀ j, (s.settle.cond j).outer = s.outerWanted j := by
    intro j
    have e := (o3 j).1
    rw [k2.outerWanted, (o2 j).1, k1.outerWanted, (o1 j).1] at e
    refine e.trans ?_
    cases j <;> rfl
  have speed : ∀ j, s.settle.base j = (s.base j).setSpeed (s.speedWanted j) := by
    intro j
    have e := (o3 j).2
    rw [k2.speedWanted, (o2 _).2, (o2 j).2, k1.speedWanted, (o1 _).2, (o1 _).2, (o1 j).2] at e
    refine e.trans ?_
    cases j <;> rfl
  refine ⟨?_, ?_⟩
  · rw [outer, all.outerWanted]
  · rw [speed, all.speedWanted, Timebase.setSpeed_setSpeed]

/-- A state is settled exactly when every setpoint and limit is the one its rule gives. -/
theorem State.settled_iff (s : State) : s.Settled ↔ ∀ p, s.SettledAt p :=
  ⟨fun h p => by have := State.settledAt_settle s p; rwa [show s.settle = s from h] at this, State.settle_of_settledAt⟩

theorem State.settled_settle (s : State) : s.settle.Settled := (State.settled_iff _).2 (State.settledAt_settle s)

/-- Two states that agree on what the two decisions read are settled together. -/
theorem State.Settled.congr {s t : State} (h : s.Settled) (stations : t.stations = s.stations)
    (quick : ∀ g, (t.seq g).state = (s.seq g).state ∧ (t.seq g).activity = (s.seq g).activity ∧
      (t.seq g).stack = (s.seq g).stack)
    (down : ∀ g, t.isDown g = s.isDown g) (trip : t.trip.tripped = s.trip.tripped)
    (cond : ∀ p, (t.cond p).outer = (s.cond p).outer ∧ (t.cond p).runHeld = (s.cond p).runHeld)
    (base : ∀ p, (t.base p).config.conditioningSpeed = (s.base p).config.conditioningSpeed ∧
      (t.base p).speed = (s.base p).speed ∧ (t.base p).stallTimer = (s.base p).stallTimer ∧
      (t.base p).stalled = (s.base p).stalled) : t.Settled := by
  rw [State.settled_iff] at h ⊢
  intro p
  have headOn : t.headOn p = s.headOn p := by unfold State.headOn State.station; rw [stations]
  have current : ∀ g, t.current g = s.current g := fun g => by unfold State.current; rw [(quick g).2.1]
  have outer : t.outerWanted p = s.outerWanted p := by
    unfold State.outerWanted; rw [headOn]; simp only [down, current]
  have speed : t.speedWanted p = s.speedWanted p := by
    have q : ∀ g, (t.seq g).speedOn p = (s.seq g).speedOn p := fun g => by
      unfold Sequencer.speedOn; rw [(quick g).2.1, (quick g).2.2]
    have r : ∀ g, t.isRunning g = s.isRunning g := fun g => by unfold State.isRunning; rw [(quick g).1]
    unfold State.speedWanted State.station; rw [trip, stations, (cond p).2, (base p).1]; simp only [q, r]
  refine ⟨by rw [(cond p).1, outer]; exact (h p).1, ?_⟩
  rw [speed]
  have e := (h p).2
  obtain ⟨-, b1, b2, b3⟩ := base p
  generalize s.speedWanted p = v at e
  generalize s.base p = b at e b1 b2 b3
  generalize t.base p = c at b1 b2 b3
  rcases b with ⟨_, _, _, _, bs, bt, bx, _, _, _⟩
  rcases c with ⟨_, _, _, _, cs, ct, cx, _, _, _⟩
  dsimp only at b1 b2 b3
  subst b1 b2 b3
  unfold Timebase.setSpeed at e ⊢
  dsimp only at e ⊢
  split at e
  · simp_all
  · split at e <;> simp_all

end Sys2Proof.Machine
end

