-- ==== Sys2Proof/Laws/Aside.lean ====
section
/-!
SUPPORT. What work done for other heads leaves alone. An operation made for head g, and the handing on of lines and stations
while head h waits for none, stands in the relation Aside h: the sequencer, the zone monitor and the carrier of h are as
they were.
-/
namespace Sys2Proof.Machine

/-- Head h has been left alone. -/
structure Aside (h : HeadId) (s t : State) : Prop where
  seq : t.seq h = s.seq h := by rfl
  zone : t.zone h = s.zone h := by rfl
  carrier : t.carrier h = s.carrier h := by rfl

theorem Aside.refl (h : HeadId) (s : State) : Aside h s s := {}

theorem Aside.trans {h : HeadId} {s t u : State} (a : Aside h s t) (b : Aside h t u) : Aside h s u :=
  ⟨b.seq.trans a.seq, b.zone.trans a.zone, b.carrier.trans a.carrier⟩

theorem Aside.foldl {α : Type} {h : HeadId} {f : State → α → State} (k : ∀ s x, Aside h s (f s x)) :
    ∀ (xs : List α) (s : State), Aside h s (xs.foldl f s)
  | [], s => .refl h s
  | x :: xs, s => (k s x).trans (Aside.foldl k xs (f s x))

theorem Aside.setSeq {h g : HeadId} (s : State) (x : Sequencer) (ne : g ≠ h) : Aside h s (s.setSeq g x) :=
  { seq := State.seq_setSeq_ne s x (Ne.symm ne) }
theorem Aside.setZone {h g : HeadId} (s : State) (x : ZoneMonitor) (ne : g ≠ h) : Aside h s (s.setZone g x) :=
  { zone := State.zone_setZone_ne s x (Ne.symm ne) }
theorem Aside.setCarrier {h g : HeadId} (s : State) (x : Carrier) (ne : g ≠ h) : Aside h s (s.setCarrier g x) :=
  { carrier := State.carrier_setCarrier_ne s x (Ne.symm ne) }
theorem Aside.modSeq {h g : HeadId} (s : State) (f : Sequencer → Sequencer) (ne : g ≠ h) : Aside h s (s.modSeq g f) :=
  .setSeq _ _ ne
theorem Aside.modZone {h g : HeadId} (s : State) (f : ZoneMonitor → ZoneMonitor) (ne : g ≠ h) :
    Aside h s (s.modZone g f) := .setZone _ _ ne
theorem Aside.modCarrier {h g : HeadId} (s : State) (f : Carrier → Carrier) (ne : g ≠ h) :
    Aside h s (s.modCarrier g f) := .setCarrier _ _ ne
theorem Aside.modStation {h : HeadId} (s : State) (d : StationId) (f : Station → Station) :
    Aside h s (s.modStation d f) := {}
theorem Aside.modBase {h : HeadId} (s : State) (p : PlatenId) (f : Timebase → Timebase) : Aside h s (s.modBase p f) := {}
theorem Aside.modCond {h : HeadId} (s : State) (p : PlatenId) (f : Conditioner → Conditioner) :
    Aside h s (s.modCond p f) := {}
theorem Aside.modPad {h : HeadId} (s : State) (p : PlatenId) (f : Pad → Pad) : Aside h s (s.modPad p f) := {}
theorem Aside.modQual {h : HeadId} (s : State) (p : PlatenId) (f : Qualifier → Qualifier) : Aside h s (s.modQual p f) := {}
theorem Aside.modLine {h : HeadId} (s : State) (l : LineId) (f : Line → Line) : Aside h s (s.modLine l f) := {}
theorem Aside.raise {h : HeadId} (s : State) (q : Port) (n : Notice) : Aside h s (s.raise q n) := {}
theorem Aside.leaveWaits {h : HeadId} (s : State) (g : HeadId) : Aside h s (s.leaveWaits g) := {}
theorem Aside.keepLine {h : HeadId} (s : State) (g : HeadId) (f : Nat) : Aside h s (s.keepLine g f) := {}

theorem Aside.of_settleKept {h : HeadId} {s t : State} (k : SettleKept s t) : Aside h s t :=
  ⟨congrArg (·.get h) k.seqs, congrArg (·.get h) k.zones, congrArg (·.get h) k.carriers⟩

theorem Aside.refreshOuter {h : HeadId} (s : State) (p : PlatenId) : Aside h s (s.refreshOuter p) :=
  .of_settleKept (.refreshOuter ..)
theorem Aside.diskSweep {h : HeadId} (s : State) (p : PlatenId) : Aside h s (s.diskSweep p) :=
  .of_settleKept (.diskSweep ..)
theorem Aside.settle {h : HeadId} (s : State) : Aside h s s.settle := .of_settleKept (.settle s)

theorem Aside.dropLine {h : HeadId} (s : State) (g : HeadId) : Aside h s (s.dropLine g) := by
  unfold State.dropLine; dsimp only; split <;> exact {}

theorem Aside.disown {h : HeadId} (s : State) (g : HeadId) : Aside h s (s.disown g) := by
  unfold State.disown; split <;> exact {}

theorem Aside.closeWatch {h : HeadId} (s : State) (p : PlatenId) : Aside h s (s.closeWatch p) := by
  unfold State.closeWatch; split <;> exact {}

theorem Aside.closeWatchOf {h : HeadId} (s : State) (g : HeadId) : Aside h s (s.closeWatchOf g) :=
  .foldl (fun t p => by split; exacts [.closeWatch .., .refl ..]) _ _

theorem Aside.withdraw {h : HeadId} (s : State) (g : HeadId) : Aside h s (s.withdraw g) :=
  .foldl (fun _ _ => .modCond ..) _ _

theorem Aside.suspendStep {h : HeadId} (s : State) (g : HeadId) : Aside h s (s.suspendStep g) :=
  (((Aside.disown ..).trans (.closeWatchOf ..)).trans (.withdraw ..)).trans (.dropLine ..)

theorem Aside.liftUp {h g : HeadId} (s : State) (ne : g ≠ h) : Aside h s (s.liftUp g) := by
  unfold State.liftUp; dsimp only; repeat' split
  · exact (Aside.modZone _ _ ne).trans (.refreshOuter ..)
  · exact .modZone _ _ ne
  · exact .refl ..

theorem Aside.applySet {h g : HeadId} (s : State) (x : ZoneSet) (ne : g ≠ h) : Aside h s (s.applySet g x) :=
  .modZone _ _ ne

theorem Aside.touchDown {h g : HeadId} (s : State) (p : PlatenId) (n : Nat) (ne : g ≠ h) :
    Aside h s (s.touchDown g p n) := by
  unfold State.touchDown; split
  · exact .refl ..
  · exact (Aside.modZone _ _ ne).trans (.refreshOuter ..)

theorem Aside.setWorking {h g : HeadId} (s : State) (w : Working) (ne : g ≠ h) : Aside h s (s.setWorking g w) :=
  .modSeq _ _ ne

theorem Aside.modWorking {h g : HeadId} (s : State) (f : Working → Working) (ne : g ≠ h) :
    Aside h s (s.modWorking g f) := by
  unfold State.modWorking; split
  · exact .setWorking _ _ ne
  · exact .refl ..

/-! ## Moves and stations -/

theorem Aside.haltMove {h g : HeadId} (s : State) (ne : g ≠ h) : Aside h s (s.haltMove g) := .modCarrier _ _ ne
theorem Aside.sendMove {h g : HeadId} (s : State) (o d : StationId) (ne : g ≠ h) : Aside h s (s.sendMove g o d) :=
  .modCarrier _ _ ne

theorem Aside.forwardMove {h g : HeadId} (s : State) (ne : g ≠ h) : Aside h s (s.forwardMove g) := by
  unfold State.forwardMove; split
  · exact .sendMove _ _ _ ne
  · exact .sendMove _ _ _ ne
  · exact .refl ..

theorem Aside.reverseMove {h g : HeadId} (s : State) (o d : StationId) (ne : g ≠ h) : Aside h s (s.reverseMove g o d) :=
  (Aside.haltMove _ ne).trans (.sendMove _ _ _ ne)

theorem Aside.acquire {h g : HeadId} (s : State) (d : StationId) (ne : g ≠ h) : Aside h s (s.acquire g d).1 := by
  unfold State.acquire; split
  · exact .refl ..
  · split
    · exact .forwardMove _ ne
    · split
      · exact .reverseMove _ _ _ ne
      · exact .refl ..
  · split
    · exact .refl ..
    · split
      · exact .refl ..
      · split
        · split
          · exact .refl ..
          · exact (Aside.modStation ..).trans (.sendMove _ _ _ ne)
        · repeat' split
          · exact .refl ..
          · exact .refl ..
          · exact Aside.modStation s d fun r => r.join g

theorem Aside.haltResumable {h g : HeadId} (s : State) (r : HaltReason) (ne : g ≠ h) :
    Aside h s (s.haltResumable g r) :=
  (((Aside.leaveWaits ..).trans (.liftUp _ ne)).trans (.modSeq _ _ ne)).trans (.raise ..)

theorem Aside.haltRequest {h g : HeadId} (s : State) (r : HaltReason) (ne : g ≠ h) : Aside h s (s.haltRequest g r) :=
  (Aside.modWorking _ _ ne).trans (.haltResumable _ _ ne)

theorem Aside.startRun {h : HeadId} (s : State) (p : PlatenId) : Aside h s (s.startRun p) :=
  (Aside.modStation ..).trans (.modCond ..)

theorem Aside.grantNext {h : HeadId} (s : State) (d : StationId) (nw : h ∉ (s.station d).wait) :
    Aside h s (s.grantNext d) := by
  unfold State.grantNext; split
  · exact .refl ..
  · next g rest e =>
    have ne : g ≠ h := fun e' => nw (by rw [e, e']; simp)
    exact ((Aside.modStation ..).trans (.sendMove _ _ _ ne)).trans (.modSeq _ _ ne)

theorem Aside.dismissAll {h : HeadId} (s : State) (d : StationId) (nw : h ∉ (s.station d).wait) :
    Aside h s (s.dismissAll d) := by
  unfold State.dismissAll
  suffices key : ∀ (xs : List HeadId) (t : State), h ∉ xs →
      Aside h t (xs.foldl (fun t g => (t.leaveWaits g).haltRequest g .stationUnavailable) t) from key _ _ nw
  intro xs
  induction xs with
  | nil => exact fun t _ => .refl ..
  | cons x xs ih =>
    intro t nm
    simp only [List.mem_cons, not_or] at nm
    exact ((Aside.leaveWaits ..).trans (.haltRequest _ _ (Ne.symm nm.1))).trans (ih _ nm.2)

theorem Aside.handStation {h : HeadId} (s : State) (d : StationId) (nw : h ∉ (s.station d).wait) :
    Aside h s (s.handStation d) := by
  unfold State.handStation; split
  · split
    · split
      · exact .startRun ..
      · exact .refl ..
    · split
      · exact .grantNext _ _ nw
      · exact .dismissAll _ _ nw
  · exact .grantNext _ _ nw
  · exact .grantNext _ _ nw

theorem Aside.accountRelease {h : HeadId} (s : State) (d : StationId) : Aside h s (s.accountRelease d) := by
  unfold State.accountRelease; split <;> exact {}

theorem State.station_accountRelease (s : State) (d e : StationId) : (s.accountRelease d).station e = s.station e := by
  unfold State.accountRelease; split <;> rfl

theorem Aside.release {h : HeadId} (s : State) (d : StationId) (nw : h ∉ (s.station d).wait) :
    Aside h s (s.release d) := by
  refine ((Aside.accountRelease ..).trans (.modStation ..)).trans (.handStation _ _ ?_)
  rw [State.modStation_eq, State.station_setStation_self, State.station_accountRelease]
  exact nw

theorem Aside.completeRun {h : HeadId} (s : State) (p : PlatenId) (nw : h ∉ (s.station (.platen p)).wait) :
    Aside h s (s.completeRun p) :=
  (((Aside.modPad ..).trans (.modCond ..)).trans (.release _ _ nw)).trans (.raise ..)

/-! ## Interventions and phases -/

theorem Aside.setPark {h g : HeadId} (s : State) (p : ParkProgress) (ne : g ≠ h) : Aside h s (s.setPark g p) :=
  .modSeq _ _ ne

theorem Aside.parkAsk {h g : HeadId} (s : State) (ne : g ≠ h) : Aside h s (s.parkAsk g) := by
  have key := ((Aside.liftUp s ne).trans (.acquire (s.liftUp g) .rinse ne)).trans
    (.setPark _ ((s.liftUp g).acquire g .rinse).2.park ne)
  unfold State.parkAsk; dsimp only; split
  · exact key.trans (.raise ..)
  · exact key

theorem Aside.enterClass {h g : HeadId} (s : State) (k : Intervention) (ne : g ≠ h) : Aside h s (s.enterClass g k) := by
  cases k
  · exact .applySet _ _ ne
  · exact .liftUp _ ne
  · exact .parkAsk _ ne
  · exact .liftUp _ ne

theorem Aside.pushContext {h g : HeadId} (s : State) (c : Context) (ne : g ≠ h) : Aside h s (s.pushContext g c) := by
  unfold State.pushContext; dsimp only; split
  · exact (Aside.setSeq _ _ ne).trans (.raise ..)
  · exact .setSeq _ _ ne

theorem Aside.beginIntervention {h g : HeadId} (s : State) (a : Activity) (c : Cause) (ne : g ≠ h) :
    Aside h s (s.beginIntervention g a c) :=
  (((((((Aside.suspendStep ..).trans (.leaveWaits ..)).trans (.haltMove _ ne)).trans (.pushContext _ _ ne)).trans
    (.modSeq _ _ ne)).trans (.enterClass _ _ ne)).trans (.modSeq _ _ ne)).trans (.raise ..)

theorem Aside.takeCause {h g : HeadId} (s : State) (c : Cause) (ne : g ≠ h) : Aside h s (s.takeCause g c) := by
  unfold State.takeCause; split
  · exact .refl ..
  · split
    · exact .refl ..
    · repeat' split
      · exact .beginIntervention _ _ _ ne
      · exact .modSeq _ _ ne
      · exact .refl ..

theorem Aside.armWatch {h : HeadId} (s : State) (p : PlatenId) (g : HeadId) (n : Nat) : Aside h s (s.armWatch p g n) := {}

theorem Aside.enterPolish {h g : HeadId} (s : State) (ne : g ≠ h) : Aside h s (s.enterPolish g) := by
  unfold State.enterPolish; split
  · exact .refl ..
  · dsimp only; repeat' split
    · exact (Aside.applySet _ _ ne).trans (.setWorking _ _ ne)
    · exact ((Aside.applySet _ _ ne).trans (.setWorking _ _ ne)).trans (.armWatch ..)
    · exact (Aside.applySet _ _ ne).trans (.setWorking _ _ ne)

theorem Aside.enterGap {h g : HeadId} (s : State) (ne : g ≠ h) : Aside h s (s.enterGap g).1 := by
  unfold State.enterGap; split
  · exact .refl ..
  · dsimp only; repeat' split
    · exact ((Aside.setWorking _ _ ne).trans (.applySet _ _ ne)).trans (.enterPolish _ ne)
    · exact (Aside.setWorking _ _ ne).trans (.applySet _ _ ne)
    · exact ((Aside.setWorking _ _ ne).trans (.touchDown _ _ _ ne)).trans (.enterPolish _ ne)
    · exact (Aside.setWorking _ _ ne).trans (.touchDown _ _ _ ne)

theorem Aside.enterKeepout {h g : HeadId} (s : State) (ne : g ≠ h) : Aside h s (s.enterKeepout g).1 := by
  unfold State.enterKeepout; split
  · exact .refl ..
  · dsimp only; split
    · exact ((Aside.setWorking _ _ ne).trans (.refreshOuter ..)).trans (.enterGap _ ne)
    · exact (Aside.setWorking _ _ ne).trans (.refreshOuter ..)

theorem Aside.toKeepout {h g : HeadId} (s : State) (ne : g ≠ h) : Aside h s (s.toKeepout g) :=
  (Aside.enterKeepout _ ne).trans (.foldl (fun _ _ => .takeCause _ _ ne) _ _)

/-! ## Handing lines on, while h waits for none -/

theorem Aside.polishing {h : HeadId} {s t : State} (a : Aside h s t) : t.polishing h = s.polishing h := by
  unfold State.polishing State.runningStep State.isRunning State.current State.platenOf
  rw [a.seq, a.carrier]

theorem Aside.handOn {h : HeadId} (l : LineId) : ∀ (n : Nat) (s : State), s.polishing h = none →
    Aside h s (s.handOn l n)
  | 0, s, _ => .refl h s
  | n + 1, s, np => by
    unfold State.handOn
    split
    · next p rest _ _ _ =>
      have drop : Aside h s (s.modLine l fun k => { k with wait := rest }) := .modLine ..
      have np' : (s.modLine l fun k => { k with wait := rest }).polishing h = none := drop.polishing.trans np
      dsimp only
      split
      · exact drop.trans (Aside.handOn l n _ np')
      · split
        · exact drop.trans (Aside.handOn l n _ np')
        · next g _ _ _ r _ e =>
          have ne : g ≠ h := fun eq => by rw [eq, np'] at e; cases e
          have all := (drop.trans (.modLine _ l fun k => { k with state := .bound p g r.flow })).trans
            (.toKeepout _ ne)
          exact all.trans (Aside.handOn l n _ (all.polishing.trans np))
    · exact .refl ..

theorem Aside.handOnAll {h : HeadId} (s : State) (np : s.polishing h = none) : Aside h s s.handOnAll := by
  unfold State.handOnAll
  suffices key : ∀ (xs : List LineId) (t : State), t.polishing h = none →
      Aside h t (xs.foldl (fun t l => t.handOn l (t.line l).wait.length) t) from key _ _ np
  intro xs
  induction xs with
  | nil => exact fun t _ => .refl ..
  | cons x xs ih =>
    intro t nt
    have a : Aside h t (t.handOn x (t.line x).wait.length) := .handOn x _ _ nt
    exact a.trans (ih _ (a.polishing.trans nt))

/-- A head that is not RUNNING, or whose current activity is no step, polishes nothing. -/
theorem State.polishing_none {s : State} {h : HeadId} (e : s.isRunning h = false ∨ s.current h = none) :
    s.polishing h = none := by
  unfold State.polishing State.runningStep
  rcases e with e | e <;> simp [e]

end Sys2Proof.Machine
end

