-- ==== Sys2Proof/Laws/PerInstr.lean ====
section
/-!
SUPPORT. Facts about every command as syntax, one lemma per constructor.
-/

/-- The form of a command (R164, R167, R168, R173): a request whose fields have a fixed length comes in on a port, that length
fits a request frame, and a well-formed one announces a length that its length byte can state. -/
def Sys2Proof.Laws.Announced.Statement (i : Sys2Proof.Instr) : Prop :=
  ∀ b n, i.fixedBody? = some (b, n) →
    i.port? ≠ none ∧ n ≤ Sys2Proof.Config.maxRequestBody ∧ (i.wellFormed = true → b.length ≤ 255)

namespace Sys2Proof.Laws.Announced

/-- A request with a body of fixed length. -/
theorem ofBody {i : Instr} {q : Port} {body : List Byte} {m : Nat} (f : i.fixedBody? = some (body, m))
    (p : i.port? = some q) (l : m ≤ Config.maxRequestBody) (w : i.wellFormed = bodyFits body) : Statement i := by
  intro b n h
  rw [f] at h
  cases h
  exact ⟨by rw [p]; exact Option.some_ne_none q, l, fun k => by rw [w] at k; exact of_decide_eq_true k⟩

/-- A command whose body has no fixed length. -/
theorem ofNone {i : Instr} (f : i.fixedBody? = none) : Statement i := by
  intro b n h
  rw [f] at h
  cases h

theorem listWrite (p : Port) (body : List Byte) : Statement (.listWrite p body) := ofNone rfl
theorem listClear (p : Port) (body : List Byte) : Statement (.listClear p body) := ofBody rfl rfl (by decide) rfl
theorem listRead (p : Port) (body : List Byte) : Statement (.listRead p body) := ofBody rfl rfl (by decide) rfl
theorem start (p : Port) (body : List Byte) : Statement (.start p body) := ofBody rfl rfl (by decide) rfl
theorem hold (p : Port) (body : List Byte) : Statement (.hold p body) := ofBody rfl rfl (by decide) rfl
theorem resume (p : Port) (body : List Byte) : Statement (.resume p body) := ofBody rfl rfl (by decide) rfl
theorem abort (p : Port) (body : List Byte) : Statement (.abort p body) := ofBody rfl rfl (by decide) rfl
theorem amend (p : Port) (body : List Byte) : Statement (.amend p body) := ofBody rfl rfl (by decide) rfl
theorem flagSet (p : Port) (body : List Byte) : Statement (.flagSet p body) := ofBody rfl rfl (by decide) rfl
theorem placeHead (p : Port) (body : List Byte) : Statement (.placeHead p body) := ofBody rfl rfl (by decide) rfl
theorem headConfig (p : Port) (body : List Byte) : Statement (.headConfig p body) := ofBody rfl rfl (by decide) rfl
theorem platenConfig (p : Port) (body : List Byte) : Statement (.platenConfig p body) := ofBody rfl rfl (by decide) rfl
theorem lineConfig (p : Port) (body : List Byte) : Statement (.lineConfig p body) := ofBody rfl rfl (by decide) rfl
theorem moduleConfig (p : Port) (body : List Byte) : Statement (.moduleConfig p body) := ofBody rfl rfl (by decide) rfl
theorem serviceSet (p : Port) (body : List Byte) : Statement (.serviceSet p body) := ofBody rfl rfl (by decide) rfl
theorem padInstall (p : Port) (body : List Byte) : Statement (.padInstall p body) := ofBody rfl rfl (by decide) rfl
theorem padRestore (p : Port) (body : List Byte) : Statement (.padRestore p body) := ofBody rfl rfl (by decide) rfl
theorem diskInstall (p : Port) (body : List Byte) : Statement (.diskInstall p body) := ofBody rfl rfl (by decide) rfl
theorem conditionNow (p : Port) (body : List Byte) : Statement (.conditionNow p body) := ofBody rfl rfl (by decide) rfl
theorem resumeModule (p : Port) (body : List Byte) : Statement (.resumeModule p body) := ofBody rfl rfl (by decide) rfl
theorem restart (p : Port) (body : List Byte) : Statement (.restart p body) := ofBody rfl rfl (by decide) rfl
theorem beatRead (p : Port) (body : List Byte) : Statement (.beatRead p body) := ofBody rfl rfl (by decide) rfl
theorem revokeClaim (p : Port) (body : List Byte) : Statement (.revokeClaim p body) := ofBody rfl rfl (by decide) rfl
theorem mark (p : Port) (body : List Byte) : Statement (.mark p body) := ofBody rfl rfl (by decide) rfl
theorem qualRead (p : Port) (body : List Byte) : Statement (.qualRead p body) := ofBody rfl rfl (by decide) rfl
theorem claim (p : Port) (body : List Byte) : Statement (.claim p body) := ofBody rfl rfl (by decide) rfl
theorem placed (p : Port) (body : List Byte) : Statement (.placed p body) := ofBody rfl rfl (by decide) rfl
theorem removed (p : Port) (body : List Byte) : Statement (.removed p body) := ofBody rfl rfl (by decide) rfl
theorem release (p : Port) (body : List Byte) : Statement (.release p body) := ofBody rfl rfl (by decide) rfl
theorem headRead (p : Port) (body : List Byte) : Statement (.headRead p body) := ofBody rfl rfl (by decide) rfl
theorem stationRead (p : Port) (body : List Byte) : Statement (.stationRead p body) := ofBody rfl rfl (by decide) rfl
theorem lineRead (p : Port) (body : List Byte) : Statement (.lineRead p body) := ofBody rfl rfl (by decide) rfl
theorem resultRead (p : Port) (body : List Byte) : Statement (.resultRead p body) := ofBody rfl rfl (by decide) rfl
theorem padRead (p : Port) (body : List Byte) : Statement (.padRead p body) := ofBody rfl rfl (by decide) rfl
theorem noticeRead (p : Port) (body : List Byte) : Statement (.noticeRead p body) := ofBody rfl rfl (by decide) rfl
theorem noticeAck (p : Port) (body : List Byte) : Statement (.noticeAck p body) := ofNone rfl
theorem noticeMask (p : Port) (body : List Byte) : Statement (.noticeMask p body) := ofBody rfl rfl (by decide) rfl
theorem unknownRequest (p : Port) (code : Byte) (body : List Byte) : Statement (.unknownRequest p code body) := ofNone rfl
theorem windowClosedEarly (p : Port) : Statement (.windowClosedEarly p) := ofNone rfl
theorem platenCount (p : PlatenId) (d : Rotation) : Statement (.platenCount p d) := ofNone rfl
theorem indexPulse (p : PlatenId) : Statement (.indexPulse p) := ofNone rfl
theorem armCount (p : PlatenId) (d : Travel) : Statement (.armCount p d) := ofNone rfl
theorem inBandChange (h : HeadId) (z : ZoneId) (inBand : Bool) : Statement (.inBandChange h z inBand) := ofNone rfl
theorem supplyReadyChange (l : LineId) (present : Bool) : Statement (.supplyReadyChange l present) := ofNone rfl
theorem moveDone (h : HeadId) (num : MoveNo) : Statement (.moveDone h num) := ofNone rfl
theorem moveFault (h : HeadId) (num : MoveNo) : Statement (.moveFault h num) := ofNone rfl
theorem moveLimitExpiry (h : HeadId) : Statement (.moveLimitExpiry h) := ofNone rfl
theorem interlockChange (v : Level) : Statement (.interlockChange v) := ofNone rfl
theorem vacuumChange (h : HeadId) (wafer : Bool) : Statement (.vacuumChange h wafer) := ofNone rfl
theorem coldReset (selected : List Port) : Statement (.coldReset selected) := ofNone rfl
theorem stallExpiry (p : PlatenId) : Statement (.stallExpiry p) := ofNone rfl
theorem bandTimeout (h : HeadId) : Statement (.bandTimeout h) := ofNone rfl
theorem lineRecovery (l : LineId) : Statement (.lineRecovery l) := ofNone rfl
theorem dwellEnd (h : HeadId) : Statement (.dwellEnd h) := ofNone rfl
theorem gapEnd (h : HeadId) : Statement (.gapEnd h) := ofNone rfl
theorem accumulatorLimit (p : PlatenId) : Statement (.accumulatorLimit p) := ofNone rfl
theorem overpolishTargetMet (p : PlatenId) : Statement (.overpolishTargetMet p) := ofNone rfl
theorem settleEnd (p : PlatenId) : Statement (.settleEnd p) := ofNone rfl
theorem endpointConfirmation (p : PlatenId) : Statement (.endpointConfirmation p) := ofNone rfl
theorem runComplete (p : PlatenId) : Statement (.runComplete p) := ofNone rfl
theorem padWarn (p : PlatenId) : Statement (.padWarn p) := ofNone rfl
theorem padRetired (p : PlatenId) : Statement (.padRetired p) := ofNone rfl
theorem diskSpent (p : PlatenId) : Statement (.diskSpent p) := ofNone rfl
theorem claimOverdue (h : HeadId) : Statement (.claimOverdue h) := ofNone rfl
theorem beat : Statement .beat := ofNone rfl
theorem warmRestart : Statement .warmRestart := ofNone rfl

end Sys2Proof.Laws.Announced
end

