-- ==== Sys2Proof/Laws/Ports.lean ====
section
/-!
SUPPORT. How a request is answered: one lemma for each check of a request that holds or fails, one for the window, and one
for each case of a byte that is clocked.
-/
namespace Sys2Proof.Machine

theorem require_true (e : Status) (r : Reply) : require true e r = r := rfl
theorem require_false (e : Status) (r : Reply) : require false e r = .error e := rfl

theorem require_of {c : Bool} (h : c = true) (e : Status) (r : Reply) : require c e r = r := by rw [h, require_true]
theorem require_not {c : Bool} (h : c = false) (e : Status) (r : Reply) : require c e r = .error e := by
  rw [h, require_false]

theorem requireLength_of {b : List Byte} {n : Nat} (h : b.length = n) (r : Reply) : requireLength b n r = r :=
  require_of (by simp [h]) ..

theorem requireLength_not {b : List Byte} {n : Nat} (h : b.length ≠ n) (r : Reply) :
    requireLength b n r = .error .badLength := require_not (by simp [h]) ..

theorem requireField_of {α : Type} {x : Option α} {a : α} (h : x = some a) (r : α → Reply) : requireField x r = r a := by
  rw [h]; rfl

theorem requireField_not {α : Type} {x : Option α} (h : x = none) (r : α → Reply) :
    requireField x r = .error .outOfRange := by rw [h]; rfl

theorem Port.isRecipe_recipe : Port.isRecipe .recipe = true := rfl
theorem Port.isEndpoint_endpoint : Port.isEndpoint .endpoint = true := rfl
theorem Port.isTransfer_transfer : Port.isTransfer .transfer = true := rfl

/-- A permitted request on a port that opens windows is answered by its reply. -/
theorem State.takeRequest_of {s : State} {q : Port} (o : s.opens q) (r : Reply) : s.takeRequest q true r = s.reply q r := by
  simp [State.takeRequest, State.openWindow, require_true, show (s.port q).selectHeld = false from o]

/-- A request that its port does not permit is refused. -/
theorem State.takeRequest_forbidden {s : State} {q : Port} (o : s.opens q) (r : Reply) :
    s.takeRequest q false r = s.refusal q .notPermitted := by
  simp [State.takeRequest, State.openWindow, require_false, show (s.port q).selectHeld = false from o, State.reply,
    State.refusal]

/-- No byte counts where no window is open. -/
theorem State.shiftByte_closed {s : State} {q : Port} (o : (s.port q).window = none) (b : Byte) :
    s.shiftByte q b = (s, 0) := by simp [State.shiftByte, o]

/-- A byte of the request frame is kept, and the last of them makes the command. -/
theorem State.shiftByte_request {s : State} {q : Port} {w : Window} (o : (s.port q).window = some w)
    (f : frameWhole w.frame = false) (b : Byte) :
    s.shiftByte q b = ({ s.modPort q (fun u => { u with window := some ⟨w.frame ++ [b], 0⟩ }) with
      pending := s.pending ++ if frameWhole (w.frame ++ [b]) then [windowCommand q (w.frame ++ [b])] else [] }, 0) := by
  cases d : frameWhole (w.frame ++ [b]) <;> simp [State.shiftByte, o, f, d] <;> rfl

/-- After the frame the response goes out, and the state counts the bytes clocked. -/
theorem State.shiftByte_response {s : State} {q : Port} {w : Window} (o : (s.port q).window = some w)
    (f : frameWhole w.frame = true) (b : Byte) :
    s.shiftByte q b = (s.modPort q fun u => { u with window := some { w with sent := w.sent + 1 } },
      (s.responseFrame q).getD w.sent 0) := by simp [State.shiftByte, o, f]

theorem State.reply_error (s : State) (q : Port) (e : Status) : s.reply q (.error e) = s.refusal q e := rfl
theorem State.reply_accept (s t : State) (q : Port) : s.reply q (accept t) = t.accepted q := rfl
theorem State.reply_answer (s : State) (q : Port) (b : List Byte) : s.reply q (answer s b) = s.respond q .ok b := rfl

end Sys2Proof.Machine
end

