-- ==== Sys2Proof/Laws/Trip.lean ====
section
/-!
SUPPORT. The module trip and its clearing, each seen as a cascade from the state with the trip state written (R128, R129,
R132), and what the trip leaves.
-/
namespace Sys2Proof.Machine

theorem LineKept.tripped (b : Bool) (k : Line) : LineKept b k k.tripped := by
  unfold Line.tripped; split
  · next e =>
    exact ⟨rfl, rfl, rfl, fun d => (by rw [e] at d; cases d), fun _ d => (by rw [e] at d; cases d), fun _ _ => rfl,
      fun _ => .nil⟩
  · exact ⟨rfl, rfl, rfl, id, fun _ h => h, fun _ h => h, fun _ => .nil⟩

/-- The state in which the trip's work begins. -/
def State.tripMade (s : State) : State := s.setTrip { s.trip with tripped := true }

/-- The state in which the work of the trip's clearing begins. -/
def State.tripCleared (s : State) : State := s.setTrip { s.trip with tripped := false }

theorem Cascade.tripModule (s : State) : Cascade s.tripMade s.tripModule :=
  ((((((Cascade.raise _ .recipe .tripped).trans (.raise _ .transfer .tripped)).trans
    (.foldl (fun _ _ => .haltMove ..) _ _)).trans (.mapLines fun _ => .tripped _ _)).trans
    (.foldl (fun _ _ => .modCond (.suspend ..)) _ _)).trans
    (.foldl (fun _ _ => .takeCause ..) _ _)).trans (.foldl (fun _ _ => .liftUp ..) _ _)

theorem Cascade.sendOwed (s : State) (h : HeadId) : Cascade s (s.sendOwed h) := by
  unfold State.sendOwed; split
  · exact .forwardMove ..
  · exact .forwardMove ..
  · exact .refl _

theorem Cascade.clearInterlock (s : State) (h : HeadId) : Cascade s (s.clearInterlock h) := by
  unfold State.clearInterlock; split
  · split
    · exact .endIntervention ..
    · exact .refl _
  · exact .refl _

theorem Cascade.clearTrip (s : State) : Cascade s.tripCleared s.clearTrip :=
  (((Cascade.foldl (fun _ _ => .sendOwed ..) _ _).trans (.handOnAll _)).trans
    (.foldl (fun _ _ => .condTripCleared ..) _ _)).trans (.foldl (fun _ _ => .clearInterlock ..) _ _)

/-- After the trip's work the module is tripped. -/
theorem State.tripped_tripModule (s : State) : s.tripModule.trip = { s.trip with tripped := true } :=
  (Cascade.tripModule s).trip

/-- After the clearing's work the module is not tripped. -/
theorem State.tripped_clearTrip (s : State) : s.clearTrip.trip = { s.trip with tripped := false } :=
  (Cascade.clearTrip s).trip

/-- The work of the trip check, from the state in which the trip stands where one is due (R129). -/
theorem Cascade.checkTrip (u : State) :
    Cascade (u.setTrip { u.trip with tripped := u.trip.tripped || u.trip.atLevel }) u.checkTrip := by
  have stay : Cascade (u.setTrip { u.trip with tripped := u.trip.tripped }) u := .refl u
  unfold State.checkTrip
  cases ht : u.trip.tripped <;> cases ha : u.trip.atLevel
  · rw [ht] at stay; exact stay
  · exact .tripModule u
  · rw [ht] at stay; exact stay
  · rw [ht] at stay; exact stay

/-- The trip state and the inputs after the check (R129). -/
theorem State.trip_checkTrip (u : State) :
    u.checkTrip.trip = { u.trip with tripped := u.trip.tripped || u.trip.atLevel } := (Cascade.checkTrip u).trip

theorem State.isDown_liftUp (s : State) (h g : HeadId) :
    (s.liftUp h).isDown g = if g = h then false else s.isDown g := by
  unfold State.liftUp
  by_cases d : s.isDown h = true
  · rw [if_pos d]
    have up : ∀ t : State, t.zones = (s.modZone h fun z => { z with lift := .up }).zones →
        t.isDown g = if g = h then false else s.isDown g := by
      intro t e
      unfold State.isDown State.zone
      rw [e]
      by_cases eq : g = h
      · subst eq; simp [State.modZone, State.setZone]
      · simp [State.modZone, State.setZone, PerHead.get_set_ne _ _ eq, eq]
    dsimp only
    split
    · exact up _ (SettleKept.refreshOuter ..).zones
    · exact up _ rfl
  · rw [if_neg d]
    split
    · next e => subst e; simpa using d
    · rfl

theorem State.carrier_haltMove (s : State) (h g : HeadId) :
    (s.haltMove h).carrier g = if g = h then (s.carrier g).halt else s.carrier g := by
  unfold State.haltMove State.modCarrier
  rw [State.carrier_setCarrier]
  split
  · next e => rw [e]
  · rfl

theorem Line.pumpOn_tripped (k : Line) : k.tripped.pumpOn = false := by
  unfold Line.tripped
  cases h : k.state <;> simp [Line.pumpOn]

/-- After the trip's work nothing moves, presses or pumps (R128). -/
theorem State.tripHolds_tripModule (s : State) : s.tripModule.TripHolds := by
  intro _
  have rest : ∀ w : State, Cascade w (headIds.foldl State.liftUp
      (headIds.foldl (fun x h => x.takeCause h .interlock) (platenIds.foldl (fun x p => x.modCond p fun c => c.suspend (x.base p).config) w))) :=
    fun w => ((Cascade.foldl (fun _ _ => .modCond (.suspend ..)) _ _).trans
      (.foldl (fun _ _ => .takeCause ..) _ _)).trans (.foldl (fun _ _ => .liftUp ..) _ _)
  refine ⟨fun h => ?_, fun h => ?_, fun l => ?_⟩
  · unfold State.tripModule
    dsimp only [headIds, List.foldl]
    simp only [State.isDown_liftUp]
    cases h <;> rfl
  · unfold State.tripModule
    dsimp only
    refine ((rest _).carrier h).still rfl ?_
    show ((headIds.foldl State.haltMove _).carrier h).position.isMoving = false
    dsimp only [headIds, List.foldl]
    simp only [State.carrier_haltMove]
    cases h <;> exact Carrier.halt_still _
  · unfold State.tripModule
    dsimp only
    refine ((rest _).line l).unbound rfl ?_
    show ((PerLine.map _ Line.tripped).get l).pumpOn = false
    rw [PerLine.get_map]
    exact Line.pumpOn_tripped _

end Sys2Proof.Machine
end

