-- ==== Sys2Proof/Laws/Reach.lean ====
section
/-!
SUPPORT. What a step can do, said once: a command writes what is its own (`Instr.Own`), sets off a cascade
(Laws/Cascade.lean), and may leave a response in a Port Unit (`Answered`). An invariant of the part is proved by looking at
the first of the three for each command, and at the relations Cascade and Answered once.
-/
namespace Sys2Proof.Machine

/-- A response was formed, or a held chip select released: nothing else changed. -/
structure Answered (u t : State) : Prop where
  same : t = { u with ports := t.ports }
  notices : ∀ q, (t.port q).notices = (u.port q).notices
  mask : ∀ q, (t.port q).mask = (u.port q).mask
  window : ∀ q, (t.port q).window = (u.port q).window

theorem Answered.refl (s : State) : Answered s s := ⟨rfl, fun _ => rfl, fun _ => rfl, fun _ => rfl⟩

theorem Answered.modPort (s : State) (q : Port) (f : PortUnit → PortUnit) (n : (f (s.port q)).notices = (s.port q).notices)
    (m : (f (s.port q)).mask = (s.port q).mask) (w : (f (s.port q)).window = (s.port q).window) :
    Answered s (s.modPort q f) := by
  refine ⟨rfl, fun j => ?_, fun j => ?_, fun j => ?_⟩ <;> unfold State.modPort <;> rw [State.port_setPort] <;> split
  · next h => rw [h, n]
  · rfl
  · next h => rw [h, m]
  · rfl
  · next h => rw [h, w]
  · rfl

theorem Answered.respond (s : State) (q : Port) (st : Status) (b : List Byte) : Answered s (s.respond q st b) :=
  .modPort s q _ rfl rfl rfl

/-- A request's reply, when it accepts, is a cascade from a state in which P holds. -/
def Reply.Gives (P : State → Prop) (r : Reply) : Prop := ∀ t b, r = .ok (t, b) → ∃ v, P v ∧ Cascade v t

theorem Reply.Gives.error (P : State → Prop) (e : Status) : Reply.Gives P (.error e) := fun _ _ h => nomatch h

theorem Reply.Gives.require {P : State → Prop} {c : Bool} {e : Status} {r : Reply} (h : c = true → Reply.Gives P r) :
    Reply.Gives P (Machine.require c e r) := by
  cases c
  · exact .error P e
  · exact h rfl

theorem Reply.Gives.requireLength {P : State → Prop} {b : List Byte} {n : Nat} {r : Reply} (h : Reply.Gives P r) :
    Reply.Gives P (Machine.requireLength b n r) := .require fun _ => h

theorem Reply.Gives.requireField {P : State → Prop} {α : Type} {x : Option α} {r : α → Reply}
    (h : ∀ a, x = some a → Reply.Gives P (r a)) : Reply.Gives P (Machine.requireField x r) := by
  cases x with
  | none => exact .error P _
  | some a => exact h a rfl

theorem Reply.Gives.ok {P : State → Prop} {v t : State} {b : List Byte} (p : P v) (c : Cascade v t) :
    Reply.Gives P (.ok (t, b)) := fun _ _ h => by injection h with h; injection h with h _; subst h; exact ⟨v, p, c⟩

theorem Reply.Gives.accept {P : State → Prop} {v t : State} (p : P v) (c : Cascade v t) :
    Reply.Gives P (Machine.accept t) := .ok p (c.trans (.settle t))

theorem Reply.Gives.answer {P : State → Prop} {s : State} {b : List Byte} (p : P s) :
    Reply.Gives P (Machine.answer s b) := .ok p (.refl s)

/-- A state is reached from one in which P holds by a cascade and a response. -/
def Reached (P : State → Prop) (t : State) : Prop := ∃ v u, P v ∧ Cascade v u ∧ Answered u t

theorem Reached.of {P : State → Prop} {v t : State} (p : P v) (c : Cascade v t) : Reached P t := ⟨v, t, p, c, .refl t⟩

theorem Reached.self {P : State → Prop} {s : State} (p : P s) : Reached P s := .of p (.refl s)

theorem Reached.takeRequest {P : State → Prop} {s : State} {q : Port} {b : Bool} {r : Reply} (p : P s)
    (g : Reply.Gives P r) : Reached P (s.takeRequest q b r) := by
  unfold State.takeRequest State.openWindow
  split
  · exact ⟨s, s, p, .refl s, .modPort _ _ _ rfl rfl rfl⟩
  · cases b
    · exact ⟨s, s, p, .refl s, .respond ..⟩
    · rcases r with e | ⟨t, x⟩
      · exact ⟨s, s, p, .refl s, .respond ..⟩
      · obtain ⟨v, pv, c⟩ := g t x rfl
        exact ⟨v, t, pv, c, .respond ..⟩

/-- A pad record after more life: identity and settings are kept, life does not decrease. -/
structure PadAged (a b : Pad) : Prop where
  padId : b.padId = a.padId
  warnLimit : b.warnLimit = a.warnLimit
  retireLimit : b.retireLimit = a.retireLimit
  interval : b.interval = a.interval
  exSitu : b.exSituSweeps = a.exSituSweeps
  breakIn : b.breakInSweeps = a.breakInSweeps
  life : a.life ≤ b.life
  wafers : b.wafers = a.wafers

/-- A line record when its input changes: what is configured and the wait list are kept, and no binding is made. -/
structure LineFed (a b : Line) : Prop where
  cls : b.cls = a.cls
  time : b.recoveryTime = a.recoveryTime
  wait : b.wait = a.wait
  pump : b.pumpOn = true → a.pumpOn = true

/-- A beat has reached the claims: the claims and the beat unit are new, and notices may have been added. -/
structure BeatTold (s v : State) : Prop where
  same : v = { s with seqs := v.seqs, beat := v.beat, ports := v.ports }
  seq : ∀ h, v.seq h = { s.seq h with claim := (v.seq h).claim }
  beat : v.beat = s.beat.expire
  port : ∀ q, PortKept q (s.port q) (v.port q)

end Sys2Proof.Machine

namespace Sys2Proof
open Sys2Proof.Machine

/-- What a command itself writes, before what it sets off. -/
def Instr.Own (c : Instr) (s v : State) : Prop :=
  match c with
  | .listWrite _ b => v = s ∨ ∃ h r, le8 b 1 < Config.listCapacity ∧ le8 b 1 ≤ (s.seq h).steps.length ∧
      v = s.modSeq h fun q => { q with steps := writeAt q.steps (le8 b 1) r }
  | .listClear _ _ => v = s ∨ ∃ h, v = s.modSeq h fun q => { q with steps := [], results := [] }
  | .start _ _ => v = s ∨ ∃ h, v = s.modSeq h fun q =>
      { q with results := [], stack := [], lost := none, activity := none, state := .running }
  | .headConfig _ _ => v = s ∨ ∃ h x y z, v = (s.modZone h fun k =>
      { k with rinsePressure := x, bandTimeout := y }).modCarrier h fun k => { k with moveLimit := z }
  | .platenConfig _ b => v = s ∨ ∃ p, (platenConfigOf b).valid = true ∧
      v = s.modBase p fun k => k.configure (platenConfigOf b)
  | .lineConfig _ _ => v = s ∨ ∃ l x n, (s.line l).busy = false ∧ v = s.setLine l ((s.line l).configure x n)
  | .moduleConfig _ _ => v = s ∨ ∃ x p n, v = State.checkTrip
      { s with
        seqs := if n = s.beat.claimLimit then s.seqs else s.seqs.map Sequencer.newLimit
        beat := s.beat.configure p n
        trip := { s.trip with sense := x } }
  | .serviceSet _ _ => v = s ∨ ∃ p i, v = s.modStation (.platen p) fun k => { k with inService := i }
  | .padInstall _ _ | .padRestore _ _ => v = s ∨ ∃ p k, v = s.setPad p k
  | .diskInstall _ _ => v = s ∨ ∃ p k, v = s.setDisk p k
  | .resumeModule _ _ => v = s ∨ (s.trip.atLevel = false ∧ v = s.tripCleared)
  | .restart _ _ => v = s ∨ v = s.setBeat { s.beat with restartPending := true }
  | .beatRead _ _ => v = s ∨ v = s.setBeat { s.beat with flag := false, settingEnabled := true }
  | .revokeClaim _ _ | .claim _ _ | .placed _ _ | .removed _ _ | .release _ _ | .claimOverdue _ =>
    v = s ∨ ∃ h x, v = s.modSeq h fun q => { q with claim := x }
  | .headRead _ _ => v = s ∨ ∃ n, v = { s with freeCount := n }
  | .noticeAck q _ => v = s ∨ ∃ ns, v = s.modPort q fun u => u.acknowledge ns
  | .noticeMask q _ => v = s ∨ ∃ m, v = s.modPort q fun u => { u with mask := m }
  | .platenCount p d => ∃ k, PadAged (s.pad p) k ∧ v = (s.setBase p (match d with
      | .forward => (s.base p).countForward.1
      | .reverse => (s.base p).countReverse)).setPad p k
  | .indexPulse p => ∃ k, PadAged (s.pad p) k ∧ v = (s.setBase p (s.base p).index.1).setPad p k
  | .armCount p d => v = s.modCond p fun k => k.moveArm d
  | .inBandChange h z x => v = s.modZone h fun k => k.inBandChange z x
  | .supplyReadyChange l x => v = s ∨ ∃ k, LineFed (s.line l) k ∧ k.supplyReady = x ∧ v = s.setLine l k
  | .lineRecovery l => v = s ∨
      ∃ k, LineFed (s.line l) k ∧ k.supplyReady = (s.line l).supplyReady ∧ v = s.setLine l k
  | .interlockChange x => v = s ∨ v = (s.setTrip { s.trip with input := x }).checkTrip
  | .vacuumChange h x => v = s.modSeq h fun q => { q with vacuum := x }
  | .coldReset x => v = s.coldReset x
  | .padWarn p | .padRetired p => v = s ∨ ∃ k, PadAged (s.pad p) k ∧ v = s.setPad p k
  | .beat | .warmRestart => v = s ∨ BeatTold s v ∨ v = (s.setBeat s.beat.expire).warmRestart
  | .listRead _ _ | .hold _ _ | .resume _ _ | .abort _ _ | .amend _ _ | .flagSet _ _ | .placeHead _ _
  | .conditionNow _ _ | .mark _ _ | .qualRead _ _ | .stationRead _ _ | .lineRead _ _ | .resultRead _ _ | .padRead _ _
  | .noticeRead _ _ | .unknownRequest _ _ _ | .windowClosedEarly _ | .moveDone _ _ | .moveFault _ _
  | .moveLimitExpiry _ | .stallExpiry _ | .bandTimeout _ | .dwellEnd _ | .gapEnd _
  | .accumulatorLimit _ | .overpolishTargetMet _ | .settleEnd _ | .endpointConfirmation _ | .runComplete _
  | .diskSpent _ => v = s

end Sys2Proof

namespace Sys2Proof.Machine

/-! ## Work that is a cascade from the state it starts in -/

theorem Cascade.placeHead (s : State) (h : HeadId) (d : StationId) :
    Cascade s (((s.modStation d fun r => { r with holder := some (.head h) }).modCarrier h fun c =>
      { c with position := .stands d }).setHead h .idle) :=
  ((Cascade.setStation (x := { s.station d with holder := some (.head h) }) {}).trans
    (.setCarrier (x := { (s.setStation d _).carrier h with position := .stands d }) ⟨rfl, fun _ _ => rfl⟩)).trans
    (.setHead ..)

theorem Cascade.takeMark (s : State) (p : PlatenId) (rev : Byte) (k : MarkKind) : Cascade s (s.takeMark p rev k).1 := by
  unfold State.takeMark
  dsimp only
  split
  · exact Cascade.setQual.trans (.confirm ..)
  · exact .setQual

theorem Cascade.endGap (s : State) (h : HeadId) : Cascade s (s.endGap h) := by
  unfold State.endGap
  split
  · split
    · exact .enterPolish ..
    · exact .refl s
  · exact .refl s

theorem Cascade.reachLimit (s : State) (p : PlatenId) : Cascade s (s.reachLimit p) := by
  unfold State.reachLimit
  split
  · exact .refl s
  · split
    · exact .accrueTo ..
    · split
      · exact .refl s
      · exact .accrueTo ..

theorem Cascade.reachTarget (s : State) (p : PlatenId) : Cascade s (s.reachTarget p) := by
  unfold State.reachTarget
  split
  · exact .refl s
  · split
    · exact .refl s
    · split
      · exact .refl s
      · exact .accrueTo ..

theorem Cascade.spendDisk (s : State) (p : PlatenId) : Cascade s (s.spendDisk p) := by
  unfold State.spendDisk
  split
  · refine Cascade.trans (t := s.modDisk p _) (.setDisk ?_) (.raise ..)
    exact ⟨rfl, rfl, Nat.le_trans (le_satSucc Config.max32 _) (Nat.le_max_left ..)⟩
  · exact .refl s

/-! ## Each command -/

/-- The recovery of a line from the state in which the line is IDLE (R92). -/
theorem Cascade.recoverLine (s : State) (l : LineId) :
    Cascade (s.setLine l { s.line l with state := .idle }) (s.recoverLine l) :=
  (Cascade.handOnAll _).trans (.deliverRecovery ..)

theorem LineFed.recovered {k : Line} : LineFed k { k with state := .idle } :=
  ⟨rfl, rfl, rfl, fun h => by simp [Line.pumpOn] at h⟩

theorem PadAged.refl (k : Pad) : PadAged k k := ⟨rfl, rfl, rfl, rfl, rfl, rfl, Nat.le_refl _, rfl⟩

/-- Pad life at a boundary and its crossing (R155). -/
theorem State.padCrossing_eq (s : State) (p : PlatenId) :
    ∃ k : PadState, Cascade (s.setPad p { s.pad p with state := k }) (s.padCrossing p) := by
  unfold State.padCrossing
  dsimp only
  split
  · exact ⟨_, .raise ..⟩
  · split
    · exact ⟨_, .raise ..⟩
    · refine ⟨(s.pad p).state, ?_⟩
      have c : Cascade (s.setPad p (s.pad p)) s := by rw [State.setPad_pad]; exact .refl s
      exact c

theorem State.padAgedTo (s : State) (p : PlatenId) (n : Nat) (h : (s.pad p).life ≤ n) :
    ∃ k, PadAged (s.pad p) k ∧ Cascade (s.setPad p k) ((s.modPad p fun k => { k with life := n }).padCrossing p) := by
  obtain ⟨x, c⟩ := (s.modPad p fun k => { k with life := n }).padCrossing_eq p
  refine ⟨{ s.pad p with life := n, state := x }, ⟨rfl, rfl, rfl, rfl, rfl, rfl, h, rfl⟩, ?_⟩
  simpa [State.modPad] using c

theorem State.padBoundary_aged (s : State) (p : PlatenId) :
    ∃ k, PadAged (s.pad p) k ∧ Cascade (s.setPad p k) (s.padBoundary p) := by
  unfold State.padBoundary
  split
  · exact s.padAgedTo p _ (le_satSucc ..)
  · exact ⟨_, .refl _, by rw [State.setPad_pad]; exact .refl s⟩

/-- What a revolution boundary does, from the state in which the pad has aged (R53). -/
theorem State.boundary_aged (s : State) (p : PlatenId) :
    ∃ k, PadAged (s.pad p) k ∧ Cascade (s.setPad p k) (s.boundary p) := by
  obtain ⟨k, a, c⟩ := s.padBoundary_aged p
  exact ⟨k, a, (c.trans (.modQual ..)).trans (.boundaryAccrual ..)⟩

theorem ZoneKept.inBandChange_rest (z : ZoneMonitor) (i : ZoneId) (v : Bool) :
    (z.inBandChange i v).rinsePressure = z.rinsePressure ∧ (z.inBandChange i v).bandTimeout = z.bandTimeout := by
  unfold ZoneMonitor.inBandChange
  dsimp only
  split <;> exact ⟨rfl, rfl⟩

theorem BeatTold.claimBeat {s t : State} (b : BeatTold s t) (h : HeadId) : BeatTold s (t.claimBeat h) := by
  unfold State.claimBeat
  split
  · exact b
  · next c _ =>
    dsimp only
    generalize hx : c.beat t.beat.claimLimit = r
    have told : BeatTold s (t.modSeq h fun q => { q with claim := some r.1 }) := by
      refine ⟨?_, fun g => ?_, b.beat, b.port⟩
      · conv_lhs => rw [State.modSeq, State.setSeq, b.same]
        rfl
      · unfold State.modSeq
        rw [State.seq_setSeq]
        split
        · next e => subst e; rw [b.seq g]
        · exact b.seq g
    split
    · refine ⟨?_, told.seq, told.beat, fun q => ?_⟩
      · conv_lhs => rw [State.raiseOverdue, State.raise, State.raise, State.modPort, State.modPort, State.setPort,
          State.setPort, told.same]
        rfl
      · exact ((told.port q).trans ((Cascade.raise _ .recipe _).port q)).trans ((Cascade.raise _ .transfer _).port q)
    · exact told

theorem BeatTold.foldl {s : State} : ∀ (hs : List HeadId) {t : State}, BeatTold s t →
    BeatTold s (hs.foldl State.claimBeat t)
  | [], _, b => b
  | h :: hs, _, b => BeatTold.foldl hs (b.claimBeat h)

theorem Instr.own_beat (s : State) : Instr.Own .beat s s.beatExpiry := by
  unfold State.beatExpiry
  dsimp only
  split
  · exact .inr (.inr rfl)
  · exact .inr (.inl (.foldl _ ⟨rfl, fun _ => rfl, rfl, fun _ => .refl ..⟩))

/-- The work of an accepted MODULE_CONFIG (R129, R180). -/
theorem State.moduleConfig_own (s : State) (x : InterlockSense) (p : BeatPeriod) (n : Nat) :
    Reply.Gives (fun v => v = s ∨ ∃ x p n, v = State.checkTrip
      { s with
        seqs := if n = s.beat.claimLimit then s.seqs else s.seqs.map Sequencer.newLimit
        beat := s.beat.configure p n
        trip := { s.trip with sense := x } }) (s.moduleConfig x p n) := by
  unfold State.moduleConfig
  by_cases e : n = s.beat.claimLimit
  · simp only [if_pos e]
    exact .accept (.inr ⟨x, p, n, by rw [if_pos e]; rfl⟩) (.refl _)
  · simp only [if_neg e]
    exact .accept (.inr ⟨x, p, n, by rw [if_neg e]; rfl⟩) (.refl _)

theorem LineFed.of_state {k : Line} {x : LineState} {b : Bool} (h : ∀ n g f, x ≠ .bound n g f) :
    LineFed k { k with supplyReady := b, state := x } :=
  ⟨rfl, rfl, rfl, fun e => by
    cases x with
    | bound n g f => exact absurd rfl (h n g f)
    | _ => exact absurd e (by simp [Line.pumpOn])⟩

theorem LineFed.of_ready {k : Line} {b : Bool} : LineFed k { k with supplyReady := b } := ⟨rfl, rfl, rfl, id⟩

/-- The work of a lost supply (R90, R91). -/
theorem State.supplyLost_own (s : State) (l : LineId) :
    ∃ k, LineFed (s.line l) k ∧ k.supplyReady = false ∧ Cascade (s.setLine l k) (s.supplyLost l) := by
  unfold State.supplyLost
  dsimp only
  split
  · exact ⟨{ s.line l with supplyReady := false, state := .faulted none }, .of_state fun _ _ _ => nofun, rfl,
      (Cascade.raise ..).trans (.raiseCause ..)⟩
  · exact ⟨{ s.line l with supplyReady := false, state := .faulted none }, .of_state fun _ _ _ => nofun, rfl, .raise ..⟩
  · exact ⟨{ s.line l with supplyReady := false, state := .faulted none }, .of_state fun _ _ _ => nofun, rfl, .refl _⟩
  · exact ⟨{ s.line l with supplyReady := false }, .of_ready, rfl, .refl _⟩

/-- The work of a supply that is back (R91, R92). -/
theorem State.supplyBack_own (s : State) (l : LineId) :
    ∃ k, LineFed (s.line l) k ∧ k.supplyReady = true ∧ Cascade (s.setLine l k) (s.supplyBack l) := by
  unfold State.supplyBack
  dsimp only
  split
  · split
    · refine ⟨{ s.line l with supplyReady := true, state := .idle }, .of_state fun _ _ _ => nofun, rfl, ?_⟩
      simpa using Cascade.recoverLine (s.setLine l { s.line l with supplyReady := true, state := .faulted (some 0) }) l
    · exact ⟨{ s.line l with supplyReady := true, state := .faulted (some 0) }, .of_state fun _ _ _ => nofun, rfl,
        .refl _⟩
  · exact ⟨{ s.line l with supplyReady := true }, .of_ready, rfl, .refl _⟩

/-- The work of a recovery (R92). -/
theorem State.recoveryExpiry_own (s : State) (l : LineId) :
    s.recoveryExpiry l = s ∨ ∃ k, LineFed (s.line l) k ∧ k.supplyReady = (s.line l).supplyReady ∧
      Cascade (s.setLine l k) (s.recoveryExpiry l) := by
  unfold State.recoveryExpiry
  split
  · exact .inr ⟨_, .recovered, rfl, .recoverLine ..⟩
  · exact .inl rfl

theorem Timebase.countForward_life (s : State) (p : PlatenId) :
    ∃ k, PadAged (s.pad p) k ∧ Cascade ((s.setBase p (s.base p).countForward.1).setPad p k) (s.countForward p) := by
  unfold State.countForward
  dsimp only
  split
  · obtain ⟨k, a, c⟩ := (s.setBase p (s.base p).countForward.1).boundary_aged p
    exact ⟨k, a, (c.trans (.platenSeen ..)).trans (.forwardToHead ..)⟩
  · refine ⟨_, .refl _, Cascade.trans (Cascade.trans ?_ (.platenSeen ..)) (.forwardToHead ..)⟩
    have c : Cascade ((s.setBase p (s.base p).countForward.1).setPad p ((s.setBase p (s.base p).countForward.1).pad p))
        (s.setBase p (s.base p).countForward.1) := by rw [State.setPad_pad]; exact .refl _
    exact c

theorem Cascade.countReverse (s : State) (p : PlatenId) :
    Cascade (s.setBase p (s.base p).countReverse) (s.countReverse p) := by
  unfold State.countReverse
  dsimp only
  refine Cascade.trans (Cascade.platenSeen (s.modBase p Timebase.countReverse) p) ?_
  split
  · split
    · exact .raiseCause ..
    · exact .refl _
  · exact .refl _

theorem State.indexPulse_life (s : State) (p : PlatenId) :
    ∃ k, PadAged (s.pad p) k ∧ Cascade ((s.setBase p (s.base p).index.1).setPad p k) (s.indexPulse p) := by
  have last : ∀ (u : State) (b : Bool), Cascade u (if b = true then u.raise .recipe (.encoderSlip p) else u) := by
    intro u b; split
    · exact .raise ..
    · exact .refl _
  suffices h : ∃ k, PadAged (s.pad p) k ∧ Cascade ((s.setBase p (s.base p).index.1).setPad p k)
      (if (s.base p).index.2.1 = true then (s.setBase p (s.base p).index.1).boundary p
        else s.setBase p (s.base p).index.1) by
    obtain ⟨k, a, c⟩ := h
    exact ⟨k, a, c.trans (last _ _)⟩
  split
  · exact (s.setBase p (s.base p).index.1).boundary_aged p
  · refine ⟨_, .refl _, ?_⟩
    have c : Cascade ((s.setBase p (s.base p).index.1).setPad p ((s.setBase p (s.base p).index.1).pad p))
        (s.setBase p (s.base p).index.1) := by rw [State.setPad_pad]; exact .refl _
    exact c

theorem Cascade.armCount (s : State) (p : PlatenId) (d : Travel) :
    Cascade (s.modCond p fun k => k.moveArm d) (s.armCount p d) := by
  unfold State.armCount
  dsimp only
  refine Cascade.trans (t := s.setCond p (((s.cond p).moveArm d).motionDecision (s.base p).config).1) ?_ ?_
  · have c := Cascade.setCond (s := s.modCond p fun k => k.moveArm d) (i := p)
      (x := (((s.cond p).moveArm d).motionDecision (s.base p).config).1)
      (by simpa [State.modCond] using ArmKept.motionDecision ..)
    simpa [State.modCond] using c
  · refine Cascade.trans ?_ (.deliverArm ..)
    have sweep : ∀ (u : State) (b : Bool), Cascade u (if b = true then u.diskSweep p else u) := by
      intro u b; split
      · exact .diskSweep ..
      · exact .refl _
    have run : ∀ (u : State) (b : Bool), Cascade u (if b = true then u.completeRun p else u) := by
      intro u b; split
      · exact .completeRun ..
      · exact .refl _
    exact (sweep _ _).trans (run _ _)

/-- What a command can do: its own writes, a cascade, a response. -/
theorem Instr.exec_reaches (c : Instr) (s t : State) (h : exec c s = .next t) : Reached (c.Own s) t := by
  cases c
  case unknownRequest q c b =>
    have h : (if requestCodes.contains c.toNat then Host.Outcome.fault Fault.illFormedCommand
      else .next (s.openWindow q (s.respond q .unknownRequest []))) = .next t := h
    split at h
    · cases h
    · injection h with h
      subst h
      unfold State.openWindow
      split
      · exact ⟨s, s, rfl, .refl s, .modPort _ _ _ rfl rfl rfl⟩
      · exact ⟨s, s, rfl, .refl s, .respond ..⟩
  all_goals (injection h with h; subst h)
  case listWrite q b =>
    refine .takeRequest (.inl rfl) (.require fun _ => .requireField fun _ _ => .requireLength (.requireField fun g _ =>
      .require fun lt => .requireField fun r _ => .require fun _ => .require fun le => ?_))
    simp only [Bool.and_eq_true, decide_eq_true_eq] at lt le
    exact .accept (.inr ⟨g, r, lt, le.1, rfl⟩) (.refl _)
  case listClear q b =>
    exact .takeRequest (.inl rfl) (.requireLength (.requireField fun g _ => .require fun _ =>
      .accept (.inr ⟨g, rfl⟩) (.refl _)))
  case listRead q b =>
    exact .takeRequest rfl (.requireLength (.requireField fun g _ => .requireField fun _ _ => .answer rfl))
  case start q b =>
    exact .takeRequest (.inl rfl) (.requireLength (.requireField fun g _ => .require fun _ => .require fun _ =>
      .require fun _ => .require fun _ => .accept (.inr ⟨g, rfl⟩) (.advance ..)))
  case hold q b =>
    exact .takeRequest rfl (.requireLength (.requireField fun g _ => .requireField fun k _ => .require fun _ =>
      .require fun _ => .require fun _ => .accept rfl (.raiseCause ..)))
  case resume q b =>
    refine .takeRequest rfl (.requireLength (.requireField fun g _ => ?_))
    unfold State.resume
    split
    · exact .require fun _ => .accept rfl (.resumeRunning ..)
    · exact .error _ _
    · exact .require fun _ => .accept rfl (.resumeHalted ..)
    · exact .error _ _
    · exact .error _ _
    · exact .error _ _
  case abort q b =>
    exact .takeRequest rfl (.requireLength (.requireField fun g _ => .require fun _ => .accept rfl (.abort ..)))
  case amend q b =>
    refine .takeRequest rfl (.requireLength (.requireField fun g _ => .requireField fun f _ => .require fun _ =>
      .require fun _ => ?_))
    split
    · exact .accept rfl (.modBase ⟨rfl, rfl, rfl, rfl⟩)
    · exact .error _ _
  case flagSet q b =>
    exact .takeRequest rfl (.requireLength (.requireField fun g _ => .requireField fun f _ => .requireField fun x _ =>
      .accept rfl (.modSeq (.setUser ..))))
  case placeHead q b =>
    exact .takeRequest rfl (.requireLength (.requireField fun g _ => .requireField fun d _ => .require fun _ =>
      .accept rfl (.placeHead ..)))
  case headConfig q b =>
    exact .takeRequest (.inl rfl) (.requireLength (.requireField fun g _ => .require fun _ => .require fun _ =>
      .accept (.inr ⟨g, _, _, _, rfl⟩) (.refl _)))
  case platenConfig q b =>
    refine .takeRequest (.inl rfl) (.requireLength (.requireField fun p _ => .require fun ok => .require fun _ =>
      .accept (.inr ⟨p, ok, rfl⟩) (.modCond ?_)))
    unfold Conditioner.configured
    split
    · exact .enter ..
    · exact .refl _
  case lineConfig q b =>
    refine .takeRequest (.inl rfl) (.requireLength (.requireField fun l _ => .requireField fun x _ => .require fun _ =>
      .require fun nb => .accept (.inr ⟨l, x, le16 b 2, by simpa using nb, rfl⟩) ?_))
    unfold State.configureLine
    dsimp only
    split
    · exact .raise ..
    · split
      · exact .deliverRecovery ..
      · exact .refl _
  case moduleConfig q b =>
    exact .takeRequest (.inl rfl) (.requireLength (.requireField fun x _ => .requireField fun p _ => .require fun _ =>
      s.moduleConfig_own _ _ _))
  case serviceSet q b =>
    refine .takeRequest (.inl rfl) (.requireLength (.requireField fun p _ => .requireField fun x _ => ?_))
    unfold State.serviceSet
    dsimp only
    split
    · exact .accept (.inl rfl) (.refl _)
    · split
      · exact .accept (.inr ⟨p, true, rfl⟩) (.tryClaim ..)
      · exact .require fun _ => .accept (.inr ⟨p, false, rfl⟩) (.refl _)
  case padInstall q b =>
    exact .takeRequest (.inl rfl) (.requireLength (.requireField fun p _ => .require fun _ => .require fun _ =>
      .accept (.inr ⟨p, _, rfl⟩) (.refl _)))
  case padRestore q b =>
    exact .takeRequest (.inl rfl) (.requireLength (.requireField fun p _ => .requireField fun _ _ => .require fun _ =>
      .require fun _ => .accept (.inr ⟨p, _, rfl⟩) (.refl _)))
  case diskInstall q b =>
    exact .takeRequest (.inl rfl) (.requireLength (.requireField fun p _ => .require fun _ => .require fun _ =>
      .accept (.inr ⟨p, _, rfl⟩) (.refl _)))
  case conditionNow q b =>
    exact .takeRequest rfl (.requireLength (.requireField fun p _ => .require fun _ => .require fun _ =>
      .accept rfl ((Cascade.modPad ⟨rfl, rfl, rfl, rfl, rfl, rfl, rfl, Nat.le_refl _⟩).trans (.tryClaim ..))))
  case resumeModule q b =>
    refine .takeRequest (.inl rfl) (.requireLength (.require fun nl => ?_))
    by_cases tr : s.trip.tripped = true
    · rw [if_pos tr]
      exact .accept (.inr ⟨by simpa using nl, rfl⟩) (.clearTrip s)
    · rw [if_neg tr]
      exact .accept (.inl rfl) (.refl _)
  case restart q b => exact .takeRequest (.inl rfl) (.requireLength (.accept (.inr rfl) (.refl _)))
  case beatRead q b => exact .takeRequest (.inl rfl) (.requireLength (.ok (.inr rfl) (.refl _)))
  case revokeClaim q b =>
    exact .takeRequest (.inl rfl) (.requireLength (.requireField fun g _ => .require fun _ =>
      .accept (.inr ⟨g, none, rfl⟩) (.raise ..)))
  case mark q b =>
    exact .takeRequest rfl (.requireLength (.requireField fun p _ => .requireField fun k _ =>
      .ok rfl ((Cascade.takeMark ..).trans (.settle _))))
  case qualRead q b => exact .takeRequest rfl (.requireLength (.requireField fun _ _ => .answer rfl))
  case claim q b =>
    exact .takeRequest (.inl rfl) (.requireLength (.requireField fun g _ => .require fun _ => .require fun _ =>
      .require fun _ => .accept (.inr ⟨g, _, rfl⟩) (.refl _)))
  case placed q b =>
    exact .takeRequest (.inl rfl) (.requireLength (.requireField fun g _ => .require fun _ => .require fun _ =>
      .accept (.inr ⟨g, _, rfl⟩) (.refl _)))
  case removed q b =>
    exact .takeRequest (.inl rfl) (.requireLength (.requireField fun g _ => .require fun _ => .require fun _ =>
      .accept (.inr ⟨g, _, rfl⟩) (.refl _)))
  case release q b =>
    exact .takeRequest (.inl rfl) (.requireLength (.requireField fun g _ => .require fun _ =>
      .accept (.inr ⟨g, none, rfl⟩) (.refl _)))
  case headRead q b =>
    refine .takeRequest (.inl rfl) (.requireLength (.requireField fun g _ => ?_))
    unfold State.headReadReply
    split
    · exact .ok (.inr ⟨_, rfl⟩) (.refl _)
    · exact .ok (.inl rfl) (.refl _)
  case stationRead q b => exact .takeRequest rfl (.requireLength (.answer rfl))
  case lineRead q b => exact .takeRequest rfl (.requireLength (.answer rfl))
  case resultRead q b =>
    exact .takeRequest rfl (.requireLength (.requireField fun _ _ => .require fun _ => .answer rfl))
  case padRead q b => exact .takeRequest rfl (.requireLength (.requireField fun _ _ => .answer rfl))
  case noticeRead q b => exact .takeRequest rfl (.requireLength (.answer rfl))
  case noticeAck q b =>
    exact .takeRequest (.inl rfl) (.require fun _ => .requireField fun ns _ => .ok (.inr ⟨ns, rfl⟩) (.refl _))
  case noticeMask q b =>
    exact .takeRequest (.inl rfl) (.requireLength (.require fun _ => .ok (.inr ⟨_, rfl⟩) (.refl _)))
  case windowClosedEarly q => exact ⟨s, s, rfl, .refl s, .modPort _ _ _ rfl rfl rfl⟩
  case platenCount p d =>
    cases d
    · obtain ⟨k, a, c⟩ := Timebase.countForward_life s p
      exact .of ⟨k, a, rfl⟩ (c.trans (.settle _))
    · refine .of ⟨_, .refl _, rfl⟩ (Cascade.trans ?_ (.settle _))
      have c : Cascade ((s.setBase p (s.base p).countReverse).setPad p ((s.setBase p (s.base p).countReverse).pad p))
          (s.countReverse p) := by rw [State.setPad_pad]; exact .countReverse ..
      exact c
  case indexPulse p =>
    obtain ⟨k, a, c⟩ := s.indexPulse_life p
    exact .of ⟨k, a, rfl⟩ (c.trans (.settle _))
  case armCount p d => exact .of rfl ((Cascade.armCount s p d).trans (.settle _))
  case inBandChange g z x => exact .self rfl
  case supplyReadyChange l x =>
    split
    · exact .self (.inl rfl)
    · cases x
      · obtain ⟨k, a, b, c⟩ := s.supplyLost_own l
        exact .of (.inr ⟨k, a, b, rfl⟩) (c.trans (.settle _))
      · obtain ⟨k, a, b, c⟩ := s.supplyBack_own l
        exact .of (.inr ⟨k, a, b, rfl⟩) (c.trans (.settle _))
  case moveDone g n =>
    split
    · exact .of rfl ((Cascade.completeMove ..).trans (.settle _))
    · exact .self rfl
  case moveFault g n =>
    split
    · exact .of rfl ((Cascade.faultMove ..).trans (.settle _))
    · exact .self rfl
  case moveLimitExpiry g => exact .of rfl ((Cascade.faultMove ..).trans (.settle _))
  case interlockChange x =>
    split
    · exact .self (.inl rfl)
    · exact .of (.inr rfl) (.settle _)
  case vacuumChange g x =>
    split
    · exact .of rfl ((Cascade.finalHalt ..).trans (.settle _))
    · exact .self rfl
  case coldReset x => exact .self rfl
  case stallExpiry p => exact .of rfl ((Cascade.stallExpiry ..).trans (.settle _))
  case bandTimeout g => exact .of rfl ((Cascade.bandExpiry ..).trans (.settle _))
  case lineRecovery l =>
    rcases s.recoveryExpiry_own l with e | ⟨k, a, b, c⟩
    · rw [e]; exact .of (.inl rfl) (.settle _)
    · exact .of (.inr ⟨k, a, b, rfl⟩) (c.trans (.settle _))
  case dwellEnd g => exact .of rfl ((Cascade.endDwell ..).trans (.settle _))
  case gapEnd g => exact .of rfl ((Cascade.endGap ..).trans (.settle _))
  case accumulatorLimit p => exact .of rfl ((Cascade.reachLimit ..).trans (.settle _))
  case overpolishTargetMet p => exact .of rfl ((Cascade.reachTarget ..).trans (.settle _))
  case settleEnd p => exact .of rfl (.modQual ..)
  case endpointConfirmation p =>
    refine .of rfl (Cascade.trans ?_ (.settle _))
    split
    · exact .confirm ..
    · exact .refl _
  case runComplete p =>
    refine .of rfl (Cascade.trans ?_ (.settle _))
    split
    · exact .completeRun ..
    · exact .refl _
  case padWarn p =>
    unfold State.reachLife
    split
    · obtain ⟨k, a, c⟩ := s.padAgedTo p (max (satSucc Config.max32 (s.pad p).life) (s.pad p).warnLimit)
        (Nat.le_trans (le_satSucc ..) (Nat.le_max_left ..))
      exact .of (.inr ⟨k, a, rfl⟩) (c.trans (.settle _))
    · exact .of (.inl rfl) (.settle _)
  case padRetired p =>
    unfold State.reachLife
    split
    · obtain ⟨k, a, c⟩ := s.padAgedTo p (max (satSucc Config.max32 (s.pad p).life) (s.pad p).retireLimit)
        (Nat.le_trans (le_satSucc ..) (Nat.le_max_left ..))
      exact .of (.inr ⟨k, a, rfl⟩) (c.trans (.settle _))
    · exact .of (.inl rfl) (.settle _)
  case diskSpent p => exact .of rfl (.spendDisk ..)
  case claimOverdue g =>
    unfold State.claimExpires
    split
    · exact .self (.inl rfl)
    · split
      · exact .self (.inl rfl)
      · exact .of (.inr ⟨g, _, rfl⟩) ((Cascade.raise ..).trans (.raise ..))
  case beat => exact .of (Instr.own_beat s) (.settle _)
  case warmRestart =>
    split
    · exact .of (Instr.own_beat s) (.settle _)
    · exact .self (.inl rfl)

/-! ## The idle millisecond -/

/-- What the timers do in a millisecond before the beat: cascades, and the lines whose recovery timer counts or ends. -/
inductive Drift : State → State → Prop
  | cascade {s t : State} : Cascade s t → Drift s t
  | line {s : State} {l : LineId} {k : Line} : LineFed (s.line l) k → k.supplyReady = (s.line l).supplyReady →
      Drift s (s.setLine l k)
  | trans {s t u : State} : Drift s t → Drift t u → Drift s u

theorem Drift.tickRecovery (s : State) (l : LineId) : Drift s (s.tickRecovery l) := by
  unfold State.tickRecovery
  split
  · next n e =>
    dsimp only
    have d : Drift s (s.modLine l fun k => { k with state := .faulted (some (n + 1)) }) :=
      .line (.of_state fun _ _ _ => nofun) rfl
    split
    · rcases (s.modLine l fun k => { k with state := .faulted (some (n + 1)) }).recoveryExpiry_own l with x | ⟨k, a, b, c⟩
      · rw [x]; exact d
      · exact (d.trans (.line a b)).trans (.cascade c)
    · exact d
  · exact .cascade (.refl s)

theorem Drift.foldl {α : Type} {f : State → α → State} (h : ∀ s x, Drift s (f s x)) :
    ∀ (xs : List α) (s : State), Drift s (xs.foldl f s)
  | [], s => .cascade (.refl s)
  | x :: xs, s => (h s x).trans (Drift.foldl h xs (f s x))

/-- What an idle millisecond can do: the timers drift, the beat interval counts, a beat may expire, outputs settle. -/
theorem State.tick_reaches (s : State) : ∃ u v w, Drift s u ∧
    v = u.setBeat { u.beat with interval := u.beat.interval + 1 } ∧ Instr.Own .beat v w ∧ Cascade w s.tick := by
  unfold State.tick
  dsimp only
  generalize ha : headIds.foldl State.tickDwell s = a
  generalize hb : headIds.foldl State.tickBand a = b
  generalize hc : headIds.foldl State.tickMove b = c
  generalize hd : platenIds.foldl State.tickStall c = d
  generalize he : lineIds.foldl State.tickRecovery d = e
  generalize hf : platenIds.foldl (fun t p => t.accrue p .time) e = f
  have c1 : Cascade s d := by
    subst ha hb hc hd
    exact (((Cascade.foldl (fun _ _ => .tickDwell ..) _ _).trans (.foldl (fun _ _ => .tickBand ..) _ _)).trans
      (.foldl (fun _ _ => .tickMove ..) _ _)).trans (.foldl (fun _ _ => .tickStall ..) _ _)
  have c2 : Drift d e := by subst he; exact .foldl (fun _ _ => .tickRecovery ..) _ _
  have c3 : Cascade e f := by subst hf; exact .foldl (fun _ _ => .accrue ..) _ _
  have dr : Drift s f := (Drift.trans (.cascade c1) c2).trans (.cascade c3)
  unfold State.tickBeat
  dsimp only
  split
  · exact ⟨f, _, _, dr, rfl, Instr.own_beat _, .settle _⟩
  · exact ⟨f, _, _, dr, rfl, .inl rfl, .settle _⟩

end Sys2Proof.Machine
end

