-- ==== Sys2Proof/Tests/Slice0.lean ====
section
/-!
SUPPORT. The model's own tests: ill-formed commands are refused by WellFormed, single commands act as the manual says on small
states, and for every obligation with hypotheses a state and operands meet them together (witness_<its name>, with what the
model answers there where that is short).
-/
namespace Sys2Proof.Tests
open Sys2Proof.Machine

/-! ## Small states -/

/-- The state a command leaves, or the state it met where it stops. -/
def after (c : Instr) (s : State) : State :=
  match exec c s with
  | .next t => t
  | .fault _ => s
  | .refused _ => s

/-- The status of the last response of a port. -/
def answered (q : Port) (s : State) : Option Status := (s.port q).response.map Response.status

def goodPad : Pad :=
  { padId := 7, state := .inService, life := 0, warnLimit := 1000, retireLimit := 2000, wafers := 0, sinceExSitu := 0,
    interval := 0, exSituSweeps := 2, breakInSweeps := 0, owed := 0, polishMark := false }

/-- A module in work: not tripped, every platen IN service with a pad and a disk, every line IDLE. -/
def working : State :=
  { State.reset with
    stations := ⟨Station.reset true, PerPlaten.all (Station.reset true), Station.reset true⟩
    pads := PerPlaten.all goodPad
    disks := PerPlaten.all ⟨3, .active, 0, 100⟩
    lines := PerLine.all ⟨.slurry, .idle, 5000, true, []⟩
    trip := ⟨.high, .tripOnLow, false⟩ }

/-- Head h stands at station d, IDLE. -/
def standing (s : State) (h : HeadId) (d : StationId) : State :=
  ((s.modStation d fun r => { r with holder := some (.head h) }).modCarrier h fun c =>
    { c with position := .stands d }).modSeq h fun q => { q with state := .idle }

def moveStep (d : StationId) : StepRecord := ⟨none, none, .move d⟩
def dwellStep (n : Nat) : StepRecord := ⟨none, none, .dwell n⟩

def recipe : PolishRecord :=
  { clock := .counts, limit := 10, termination := .limit, settle := 0, opFixed := 5, opPercent := 50, gap := 3,
    line := .line .l1, flow := 100, speed := 60, gapPressure := 10, zones := PerZone.all 50, inSitu := false }

/-- Every field at its greatest value (R19). -/
def largest : PolishRecord :=
  { clock := .revs, limit := 4000000, termination := .endpoint, settle := 255, opFixed := 65535, opPercent := 100,
    gap := 65535, line := .rinse, flow := 500, speed := 150, gapPressure := 700, zones := PerZone.all 700,
    inSitu := true }

def polishStep (r : PolishRecord) : StepRecord := ⟨none, none, .polish r⟩

/-- Head h RUNNING with a step current. -/
def running (s : State) (h : HeadId) (w : Working) : State :=
  s.modSeq h fun q => { q with state := .running, steps := [w.record], activity := some (.step w), vacuum := true }

/-- The working record of step 0 with record r in a phase, for a head at platen P1. -/
def record (r : StepRecord) (ph : Option Phase) : Working :=
  { Working.fresh 0 r (.platen .p1) 0 false with phase := ph, platen := some .p1 }

/-- H1 at P1 RUNNING a POLISH step in a phase, DOWN with every zone in band, its accumulator at n of 10. -/
def pressing (r : PolishRecord) (ph : Phase) (n : Nat) : State :=
  ((((running (standing working .h1 (.platen .p1)) .h1 (record (polishStep r) (some ph))).modZone .h1 fun z =>
    { z with lift := .down (.gap 10) ⟨0, false, false⟩, inBand := PerZone.all true }).modBase .p1 fun b =>
    { b with accumulator := n, owner := some ⟨.h1, r.limit, r.clock⟩ }).setLine .l1
    ⟨.slurry, .bound .p1 .h1 100, 5000, true, []⟩).settle

/-- H1 at LOAD, IDLE, with a list. -/
def loaded (steps : List StepRecord) : State :=
  (standing working .h1 .load).modSeq .h1 fun q => { q with steps := steps, vacuum := true }

/-- H1 RUNNING an intervention over the contexts given, at P1. -/
def intervened (k : Intervention) (causes : List Cause) (x : Option ParkProgress) (stack : List Context) : State :=
  (standing working .h1 (.platen .p1)).modSeq .h1 fun q =>
    { q with state := .running, vacuum := true, activity := some (.intervention k causes x), stack := stack }

/-- H1 under way from P1 to LOAD in a MOVE step, its head in a state. -/
def travelling (st : MoveStatus) (x : HeadState) : State :=
  ((running (standing working .h1 (.platen .p1)) .h1
    { record (moveStep .load) (some .inTransit) with station := .load, platen := none }).modCarrier .h1 fun c =>
    { c with position := .inTransit (.platen .p1) .load st, moveNumber := 9 }).modSeq .h1 fun q => { q with state := x }

/-- The module tripped, its input at the clear level. -/
def tripped (s : State) : State := s.setTrip ⟨.high, .tripOnLow, true⟩

/-- The arm of P1 in a state, at a position. -/
def armed (a : ArmState) (d : Travel) (n : Nat) : State :=
  (working.modCond .p1 fun c => { c with arm := a, direction := d, position := n }).settle

/-- Conditioner C1 holds P1 with a run, its arm sweeping at a position. -/
def conditioning (n : Nat) : State :=
  (((working.modStation (.platen .p1) fun r => { r with holder := some .conditioner }).modPad .p1 fun k =>
    { k with owed := 2 }).modCond .p1 fun c =>
    { c with arm := .sweeping .exSitu, direction := .outward, runHeld := true, position := n }).settle

/-! ## WellFormed refuses an ill-formed term of each check -/

theorem test_body_that_its_length_byte_cannot_state :
    (Instr.listClear .recipe (List.replicate 256 0)).wellFormed = false := by decide +kernel
theorem test_longest_announced_body : (Instr.listClear .recipe (List.replicate 255 0)).wellFormed = true := by
  decide +kernel
theorem test_unknown_request_with_a_known_code : (Instr.unknownRequest .recipe 8 []).wellFormed = false := by
  decide +kernel
theorem test_unknown_request_with_an_unknown_code : (Instr.unknownRequest .recipe 0 []).wellFormed = true := by
  decide +kernel
theorem test_reset_with_a_port_twice : (Instr.coldReset [.recipe, .recipe]).wellFormed = false := by decide +kernel
theorem test_reset_with_every_port : (Instr.coldReset [.recipe, .endpoint, .transfer]).wellFormed = true := by
  decide +kernel

/-! ## No word spells a command -/

theorem test_no_row_gives_bits : decodeTableWord 8 0 = none ∧ State.reset.withFetchWord 8 1 = State.reset := by
  decide +kernel

/-! ## The queue, reset and the forms of requests -/

theorem witness_StepRunsTheFrontCommand :
    ({ working with pending := [.beat, .warmRestart] } : State).pending = .beat :: [.warmRestart] ∧
      step { working with pending := [.beat, .warmRestart] } = exec .beat { working with pending := [.warmRestart] } :=
  ⟨rfl, rfl⟩

theorem witness_IdleStepIsOneMillisecond :
    working.pending = [] ∧ working.beat.interval + 1 < working.beat.period.ms ∧
      (working.setBeat { working.beat with interval := 99 }).beat.period.ms ≤ 99 + 1 ∧
      (working.setBeat { working.beat with interval := 99 }).tick.beat.counter = 1 := by decide +kernel

/-- State.timerDue as a check. -/
def due (s : State) : Timer → Bool
  | .dwell h => (s.dwelling h).any fun w => decide (w.dwellRemaining ≤ 1)
  | .band h =>
    match (s.zone h).lift with
    | .down _ b => b.running && decide ((s.zone h).bandTimeout ≤ b.ms + 1)
    | .up => false
  | .move h =>
    match (s.carrier h).position with
    | .inTransit _ _ (.moving n l) => decide (l ≤ n + 1)
    | _ => false
  | .stall p => (s.base p).stallTimer.any fun n => decide ((s.base p).config.stallWindow ≤ n + 1)
  | .recovery l =>
    match (s.line l).state with
    | .faulted (some n) => decide ((s.line l).recoveryTime ≤ n + 1)
    | _ => false
  | .time p => s.gate p && (s.base p).owner.any fun o => decide (o.clock = .time) && (s.runningStep o.head).any fun w =>
      decide (o.limit ≤ (s.base p).accumulator + 1) ||
        w.confirmed.any fun c => decide (c.target ≤ (s.base p).accumulator + 1 - c.capture.accrued)
  | .beat => decide (s.beat.period.ms ≤ s.beat.interval + 1)

theorem due_of_timerDue {s : State} {x : Timer} (e : s.timerDue x) : due s x = true := by
  cases x <;> simp only [State.timerDue] at e
  case dwell => obtain ⟨w, a, b⟩ := e; simp [due, a, b]
  case band => obtain ⟨x, b, a, c, d⟩ := e; simp [due, a, c, d]
  case move => obtain ⟨o, d, n, l, a, c⟩ := e; simp [due, a, c]
  case stall => obtain ⟨n, a, c⟩ := e; simp [due, a, c]
  case recovery => obtain ⟨n, a, c⟩ := e; simp [due, a, c]
  case time =>
    obtain ⟨g, h, limit, w, a, b, c | ⟨c, d, f⟩⟩ := e
    · simp [due, g, a, b, c]
    · simp [due, g, a, b, d, f]
  case beat => simpa [due] using e

def timers : List Timer :=
  headIds.map .dwell ++ headIds.map .band ++ headIds.map .move ++ platenIds.map .stall ++ lineIds.map .recovery ++
    platenIds.map .time ++ [.beat]

theorem mem_timers : ∀ x : Timer, x ∈ timers
  | .dwell h | .band h | .move h => by cases h <;> decide
  | .stall p | .time p => by cases p <;> decide
  | .recovery l => by cases l <;> decide
  | .beat => by decide

/-- Where the check finds only x, no other timer is due. -/
theorem not_due_of_filter {s : State} {l : List Timer} (e : timers.filter (due s) = l) {y : Timer} (n : y ∉ l) :
    ¬ s.timerDue y := fun d => n (e ▸ List.mem_filter.mpr ⟨mem_timers y, due_of_timerDue d⟩)

/-- H1 polishes P1 on a TIME clock, n of 10 ms; H2 moves from LOAD to P2 since m ms. -/
def clocked (n m : Nat) : State :=
  (running (standing (pressing { recipe with clock := .time } .polish n) .h2 .load) .h2
    { record (moveStep (.platen .p2)) (some .inTransit) with station := .platen .p2, platen := none }).modCarrier .h2
      fun c => { c with position := .inTransit .load (.platen .p2) (.moving m 20000) }

/-- H4 dwells at RINSE with k ms to go, L3 recovers since j ms. -/
def clockedToo (s : State) (k j : Nat) : State :=
  (running (standing s .h4 .rinse) .h4
    { record (dwellStep 40) (some .dwell) with station := .rinse, platen := none, dwellRemaining := k }).setLine .l3
      ⟨.slurry, .faulted (some j), 5000, true, []⟩

/-- H1 polishes P1 with Z1 out of band since n ms, the platen without an edge since k ms. -/
def unbanded (n k : Nat) : State :=
  ((clocked 3 7).modZone .h1 fun z =>
    { z with lift := .down (.polish recipe.zones) ⟨n, true, false⟩, inBand := (PerZone.all true).set .z1 false }).modBase
      .p1 fun b => { b with stallTimer := some k }

theorem witness_IdleStepIsOneMillisecond_quiet :
    (∀ s ∈ [clockedToo (clocked 3 7) 9 4, clockedToo (unbanded 5 6) 9 4],
      s.pending = [] ∧ s.settle = s ∧ timers.filter (due s) = []) ∧
    (let t := (clockedToo (clocked 3 7) 9 4).tick
     (t.base .p1).accumulator = 4 ∧ (t.pad .p1).polishMark = true ∧
       (t.carrier .h2).position = .inTransit .load (.platen .p2) (.moving 8 20000) ∧
       ((t.dwelling .h4).map Working.dwellRemaining) = some 8 ∧ (t.line .l3).state = .faulted (some 5)) ∧
    (let t := (clockedToo (unbanded 5 6) 9 4).tick
     (t.zone .h1).lift = .down (.polish recipe.zones) ⟨6, true, false⟩ ∧ (t.base .p1).stallTimer = some 7 ∧
       (t.base .p1).accumulator = 3) := by decide +kernel

theorem witness_IdleStepIsOneMillisecond_due :
    (let s := clockedToo (clocked 3 7) 1 4
     timers.filter (due s) = [.dwell .h4] ∧ (s.tick.seq .h4).results.map ResultRecord.outcome = [.completed]) ∧
    (let s := clockedToo (unbanded 1999 6) 9 4
     timers.filter (due s) = [.band .h1] ∧ (s.seq .h1).state = .running ∧ s.dwelling .h1 = none ∧
       (s.seq .h1).stack = [] ∧ (s.tick.seq .h1).activity = some (.intervention .lift [.pressureBand] none)) ∧
    (let s := clockedToo (clocked 3 19999) 9 4
     timers.filter (due s) = [.move .h2] ∧ s.dwelling .h2 = none ∧
       (s.tick.seq .h2).state = .halted .moveFault none) ∧
    (let s := clockedToo (unbanded 5 499) 9 4
     timers.filter (due s) = [.stall .p1] ∧ s.trip.tripped = false ∧ s.headOn .p1 = some .h1 ∧ s.isDown .h1 = true ∧
       0 < (s.base .p1).speed ∧ (s.seq .h1).stack = [] ∧
       (s.tick.seq .h1).activity = some (.intervention .lift [.platenStall] none)) ∧
    (let s := clockedToo (clocked 3 7) 9 4999
     timers.filter (due s) = [.recovery .l3] ∧ (∀ l ∈ lineIds, (s.line l).wait = []) ∧ (s.tick.line .l3).state = .idle) ∧
    (let s := clockedToo (clocked 9 7) 9 4
     timers.filter (due s) = [.time .p1] ∧ (s.base .p1).owner = some ⟨.h1, 10, .time⟩ ∧
       s.ownedPlaten .h1 = some .p1 ∧ (s.tick.seq .h1).results.map ResultRecord.accrued = [10]) := by decide +kernel

theorem witness_RequestsAreRefusedOrAccepted :
    (Instr.start .transfer [0]).wellFormed = true ∧ (Instr.start .transfer [0]).port? = some .transfer ∧
      (working.port .transfer).selectHeld = false := by decide +kernel

theorem witness_PortsAndLengthsAreChecked :
    ((Instr.mark .recipe []).wellFormed = true ∧ (Instr.mark .recipe []).port? = some .recipe ∧
      (Instr.mark .recipe []).onlyPort? = some .endpoint ∧
      answered .recipe (after (.mark .recipe []) working) = some .notPermitted) ∧
    ((Instr.start .recipe [0, 0]).fixedBody? = some ([0, 0], 1) ∧
      answered .recipe (after (.start .recipe [0, 0]) working) = some .badLength) ∧
    60 < (List.replicate 61 (0 : Byte)).length ∧
    answered .recipe (after (.listWrite .recipe (List.replicate 61 0)) working) = some .badLength ∧
    answered .endpoint (after (.noticeAck .endpoint [0]) working) = some .badLength := by decide +kernel

theorem witness_PortsAndLengthsAreChecked_fields :
    (let write (b : List Byte) := answered .recipe (after (.listWrite .recipe b) working)
     recordLength (le8 [0, 0, 1, 0, 0, 0, 0, 0, 0] 2) = some 37 ∧ write [0, 0, 1, 0, 0, 0, 0, 0, 0] = some .badLength ∧
       write [] = some .badLength ∧ write (List.replicate 60 0) = some .badLength ∧
       3 ≤ le8 [0, 0, 3, 0, 0, 0, 0, 0, 0] 2 ∧ write [0, 0, 3, 0, 0, 0, 0, 0, 0] = some .outOfRange ∧
       write [0, 0, 3, 0, 0, 0, 0, 0] = some .badLength ∧
       4 ≤ le8 [4, 0, 0, 0, 0, 0, 0, 0, 4] 0 ∧ write [4, 0, 0, 0, 0, 0, 0, 0, 4] = some .outOfRange ∧
       16 ≤ le8 [3, 16, 0, 0, 0, 0, 0, 0, 4] 1 ∧ write [3, 16, 0, 0, 0, 0, 0, 0, 4] = some .outOfRange ∧
       recordOf [3, 0, 0, 0, 0, 0, 0, 0, 5] = none ∧ write [3, 0, 0, 0, 0, 0, 0, 0, 5] = some .outOfRange ∧
       write [3, 0, 0, 0, 0, 0, 0, 0, 4] = some .ok) ∧
    (∀ c ∈ [Instr.start .recipe [4], .padRead .recipe [3], .lineConfig .recipe [6, 1, 0, 0]],
      c.port? = some .recipe ∧ (∀ p, c.onlyPort? = some p → .recipe = p) ∧
        c.named? = some (le8 ((c.fixedBody?.getD ([], 0)).1) 0) ∧
        (c.fixedBody?.map fun x => x.1.length) = c.fixedBody?.map Prod.snd ∧
        answered .recipe (after c working) = some .outOfRange) ∧
    (∀ c ∈ [Instr.placeHead .recipe [3, 5], .serviceSet .recipe [0, 0], .serviceSet .recipe [4, 0],
        .serviceSet .recipe [3, 2], .hold .recipe [0, 3], .flagSet .recipe [0, 2, 0], .flagSet .recipe [0, 1, 2],
        .lineConfig .recipe [0, 3, 0, 0], .moduleConfig .recipe [2, 0, 1, 0], .moduleConfig .recipe [0, 3, 1, 0],
        .resultRead .recipe [0, 16]],
      (c.fixedBody?.map fun x => x.1.length) = c.fixedBody?.map Prod.snd ∧
        answered .recipe (after c working) = some .outOfRange) ∧
    answered .endpoint (after (.mark .endpoint [0, 0, 3]) working) = some .outOfRange := by
  refine ⟨by decide +kernel, ?_, by decide +kernel, by decide +kernel⟩
  intro c hc
  simp only [List.mem_cons, List.not_mem_nil, or_false] at hc
  rcases hc with rfl | rfl | rfl <;> refine ⟨rfl, fun p h => ?_, by decide +kernel, by decide +kernel, by decide +kernel⟩
  all_goals simp_all [Instr.onlyPort?]

/-! ## Step lists, flags, placing -/

/-- A LIST_WRITE body of H1: step i of MOVE to RINSE. -/
def writeMove (i : Nat) : List Byte := [0, BitVec.ofNat 8 i] ++ putRecord (moveStep .rinse)

theorem witness_ListWriteStoresTheRecord :
    (recordLength (le8 (writeMove 0) 2) = some (writeMove 0).length ∧ headOf (le8 (writeMove 0) 0) = some .h1 ∧
      le8 (writeMove 0) 1 < 16 ∧ recordOf (writeMove 0) = some (moveStep .rinse) ∧
      (working.seq .h1).state = .unplaced ∧ le8 (writeMove 0) 1 ≤ (working.seq .h1).steps.length ∧
      ((after (.listWrite .recipe (writeMove 0)) working).seq .h1).steps = [moveStep .rinse]) ∧
    ((loaded (List.replicate 15 (moveStep .load))).seq .h1).steps.length = le8 (writeMove 15) 1 ∧
    (recordOf ([0, 0] ++ putRecord (polishStep recipe)) = some (polishStep recipe) ∧
      (polishStep recipe).line = .line .l1 ∧ (working.line .l1).cls ≠ .none ∧ (State.reset.line .l1).cls = .none ∧
      answered .recipe (after (.listWrite .recipe ([0, 0] ++ putRecord (polishStep recipe))) State.reset) =
        some .outOfRange) ∧
    ((pressing recipe .polish 0).seq .h1).state ≠ .unplaced ∧ ((pressing recipe .polish 0).seq .h1).state ≠ .idle ∧
    (working.seq .h1).steps.length < le8 (writeMove 1) 1 := by decide +kernel

theorem witness_ListClearFlagSetPlaceHead :
    (headOf (le8 [0] 0) = some .h1 ∧ (working.seq .h1).state = .unplaced ∧
      ((loaded [moveStep .rinse]).seq .h1).state = .idle ∧
      ((after (.listClear .recipe [0]) (loaded [moveStep .rinse])).seq .h1).steps = [] ∧
      ((pressing recipe .polish 0).seq .h1).state = .running) ∧
    (le8 [0, 0, 1] 1 = 0 ∧ le8 [0, 0, 1] 2 = true.toNat ∧ le8 [0, 1, 0] 1 = 1 ∧ le8 [0, 1, 0] 2 = false.toNat ∧
      ((after (.flagSet .recipe [0, 0, 1]) working).seq .h1).u1 = true) ∧
    (stationOfCode (le8 [0, 4] 1) = some .rinse ∧ (working.carrier .h1).position = .unplaced ∧
      (working.station .rinse).holder = none ∧ (working.station .rinse).inService = true ∧
      (working.station .rinse).wait = [] ∧
      ((after (.placeHead .recipe [0, 4]) working).carrier .h1).position = .stands .rinse) ∧
    ((loaded []).carrier .h1).position ≠ .unplaced ∧ (State.reset.station (.platen .p1)).inService = false := by
  decide +kernel

theorem witness_RecordsReadBack :
    (polishStep recipe).inRange = true ∧ (dwellStep 65535).inRange = true ∧ (moveStep (.platen .p3)).inRange = true ∧
      (polishStep largest).inRange = true := by decide +kernel

/-! ## Reads -/

/-- H1 in LIFT over a RINSE over a DWELL that is to resume. -/
def turnedOff : State :=
  intervened .lift [.holdLift] none
    [⟨.intervention .rinse [.lineFault .l2], none⟩,
      ⟨.step { record (dwellStep 40) none with resume := some .dwell }, none⟩]

/-- H1 in LIFT, its step lost. -/
def lostStep : State :=
  (intervened .lift [.holdLift] none [⟨.intervention .rinse [], none⟩]).modSeq .h1 fun q =>
    { q with lost := some ⟨2, 7, 1, ResultFlags.clear, 3, 0, some .p1, .line .l1⟩ }

def endpointRecipe : PolishRecord := { recipe with termination := .endpoint }

/-- H1 polishes under a watch in a state. -/
def watched (x : QualState) : State :=
  (pressing endpointRecipe .polish 3).modQual .p1 fun q => { q with state := x, lastCounted := some 0 }

theorem witness_ReadsChangeNothing :
    (([0, 0] : List Byte).length = 2 ∧ headOf (le8 [0, 0] 0) = some .h1 ∧
      ((loaded [moveStep .rinse]).seq .h1).steps[le8 [0, 0] 1]? = some (moveStep .rinse) ∧
      ((loaded [moveStep .rinse]).seq .h1).steps.length ≤ le8 [0, 1] 1) ∧
    le8 [0, 15] 1 < 16 ∧ platenOfCode (le8 [2] 0) = some .p3 ∧
    (working.drawsFree .h1 = false ∧
      (intervened .lift [.holdLift] none [] |>.modSeq .h1 fun q =>
        { q with lost := some ⟨0, 0, 1, ResultFlags.clear, 0, 0, none, .none⟩ }).drawsFree .h1 = true) ∧
    answered .transfer (after (.stationRead .transfer []) working) = some .ok ∧
    answered .transfer (after (.padRead .transfer [2]) working) = some .ok ∧
    answered .endpoint (after (.qualRead .endpoint [2]) working) = some .ok := by decide +kernel

/-- Steps saved and lost, and what the bodies of the reads show of them. -/
theorem witness_ReadsChangeNothing_layouts :
    (let s := pressing recipe .polish 3
     s.stepShown .h1 = (some 0, some 5) ∧ s.headRead .h1 = [2, 0, 0, 1, 0, 1, 5, 1, 0, 0, 0, 0, 1, 0, 0, 0, 0, 0, 50, 0, 0xd0, 7, 0x20, 0x4e]) ∧
    ((turnedOff.seq .h1).stack = [⟨.intervention .rinse [.lineFault .l2], none⟩] ++
        [⟨.step { record (dwellStep 40) none with resume := some .dwell }, none⟩] ∧
      turnedOff.stepShown .h1 = (some 0, some 7)) ∧
    ((∀ w, (lostStep.seq .h1).activity ≠ some (.step w)) ∧ (lostStep.stepShown .h1).1 = some 2 ∧
      working.stepShown .h1 = (none, none)) ∧
    (watched (.confirm .h1 0 2)).qualRead .p1 =
      [3, 1, 0, 0, 0, 1, 0, 0, 0, 0, 2, 3, 1, 0, 0, 0, 0, 0] ++ List.replicate 10 0 ++ List.replicate 11 0 ++
        [0, 0, 0, 0, 0, 0] ∧
    (working.qual .p1).state = .idle ∧ ((watched (.settling .h1 4)).qual .p1).state = .settling .h1 4 := by
  refine ⟨by decide +kernel, by decide +kernel, ⟨?_, by decide +kernel⟩, by decide +kernel⟩
  intro w h
  cases h

/-- The spray and a rinse valve (R88, R89), on a HALTED head too (log entry 30). -/
theorem witness_ReadsChangeNothing_sprays :
    (let s := (running (standing working .h1 .rinse) .h1 { record (dwellStep 5) (some .waitStation) with platen := none })
     s.spray = true ∧ (s.modSeq .h1 fun q => { q with state := .halted .cycle none }).spray = true ∧
       (tripped s).spray = false ∧ (pressing recipe .polish 3).spray = false) ∧
    ((intervened .rinse [.holdRinse] none []).rinseValve .p1 = true ∧
      ((intervened .rinse [.holdRinse] none []).modSeq .h1 fun q => { q with state := .halted .moveFault none }).rinseValve
        .p1 = true ∧
      (tripped (intervened .rinse [.holdRinse] none [])).rinseValve .p1 = false ∧
      (pressing { recipe with line := .rinse } .acquireLine 0).rinseValve .p1 = true ∧
      (pressing recipe .polish 0).rinseValve .p1 = false) := by decide +kernel

/-! ## Running a list -/

theorem witness_ReadsChangeNothing_bodies :
    (let s := (standing (standing working .h1 .load) .h2 (.platen .p2)).modStation .load fun k => { k with wait := [.h2] }
     putStation (s.station .load) = [1, 0, 1, 1] ∧ s.putCarrier .h1 = [1, 0, 0, 0, 0, 0, 0] ∧
       s.putCarrier .h2 = [1, 2, 0, 0, 0, 0, 1]) ∧
    (let s := pressing recipe .polish 3
     putLine (s.line .l1) = [1, 2, 1, 0, 1, 0, 100, 0, 0x88, 0x13, 0, 0, 0, 0, 0] ∧
       s.putNozzle .p1 = [1, 0, 1, 0, 0xe8, 3] ∧ putDisk (s.disk .p1) = [3, 0, 0, 0, 1, 0, 0, 0, 0, 100, 0, 0, 0] ∧
       putConditioner (s.cond .p1) = [0, 0, 0, 0, 0, 1, 0, 0, 0, 0, 0, 0, 0]) ∧
    putRecord ⟨some ⟨.u1, .skipIfClear⟩, some ⟨.u2, false⟩, .dwell 258⟩ = [2, 1, 3, 1, 1, 3, 2, 1] := by decide +kernel

theorem witness_StartTakesTheFirstStep :
    (((loaded [moveStep .rinse]).seq .h1).state = .idle ∧ ((loaded [moveStep .rinse]).seq .h1).claim = none ∧
      (loaded [moveStep .rinse]).trip.tripped = false ∧
      ((loaded [moveStep .rinse]).carrier .h1).position = .stands .load ∧
      (loaded [moveStep .rinse]).guardSkips .h1 none = false ∧ (loaded [moveStep .rinse]).closedTo .rinse = false ∧
      ((loaded [moveStep .rinse]).station .rinse).holder = none ∧
      (loaded [moveStep .rinse]).keptForRun .rinse = false ∧
      ((after (.start .recipe [0]) (loaded [moveStep .rinse])).carrier .h1).position =
        .inTransit .load .rinse (.moving 0 20000)) ∧
    ((after (.start .recipe [0]) (loaded [dwellStep 5])).dwelling .h1).isSome = true ∧
    ((after (.start .recipe [0]) (loaded [polishStep recipe])).seq .h1).state = .halted (.final .refusedPlace) none ∧
    (((standing working .h1 (.platen .p1)).modSeq .h1 fun q => { q with steps := [polishStep recipe] }).seq .h1).vacuum =
      false ∧
    (loaded [⟨some ⟨.u1, .skipIfClear⟩, none, .dwell 5⟩]).guardSkips .h1 (some ⟨.u1, .skipIfClear⟩) = true ∧
    ((after (.start .recipe [0]) (loaded [⟨some ⟨.u1, .skipIfClear⟩, none, .dwell 5⟩])).seq .h1).results =
      [skippedResult 0 (dwellStep 5) 0] := by decide +kernel

theorem witness_StartTakesTheFirstStep_refusals :
    (working.seq .h1).state ≠ .idle ∧
      answered .recipe (after (.start .recipe [0]) ((loaded [dwellStep 5]).modSeq .h1 fun q =>
        { q with claim := some ⟨0, false, .none⟩ })) = some .claimed ∧
      answered .recipe (after (.start .recipe [0]) (tripped (loaded [dwellStep 5]))) = some .tripped ∧
      answered .recipe (after (.start .recipe [0]) (loaded [])) = some .wrongState := by decide +kernel

/-- A POLISH step on the line given, skipped while U1 is clear. -/
def skipped (l : StepLine) : StepRecord := ⟨some ⟨.u1, .skipIfClear⟩, none, .polish { recipe with line := l }⟩

/-- H1 at P1 with a wafer and a list, IDLE, the arm of P1 at a position. -/
def atPlaten (steps : List StepRecord) (n : Nat) : State :=
  ((standing working .h1 (.platen .p1)).modSeq .h1 fun q => { q with steps := steps, vacuum := true }).modCond .p1 fun c =>
    { c with position := n }

/-- What START makes of a list: head state, phase and gap of the current step, the lines of the results, the lift. -/
structure Begun where
  state : HeadState
  phase : Option Phase
  gap : Nat
  lines : List StepLine
  down : Bool
  deriving DecidableEq

def begun (s : State) : Begun :=
  let t := after (.start .recipe [0]) s
  let w := t.current .h1
  ⟨(t.seq .h1).state, w.bind Working.phase, (w.map Working.gapRemaining).getD 0,
    (t.seq .h1).results.map ResultRecord.line, t.isDown .h1⟩

theorem witness_StartTakesTheFirstStep_polish :
    ((∀ l ∈ lineIds, (working.line l).wait = []) ∧
      (∀ x ∈ [skipped (.line .l2), skipped .rinse], (atPlaten [] 0).guardSkips .h1 x.guard = true) ∧
      ((atPlaten [] 0).seq .h1).vacuum = true ∧ (atPlaten [] 0).isDown .h1 = false ∧
      ((atPlaten [] 0).base .p1).stalled = false ∧ ((atPlaten [] 0).base .p1).direction = .forward) ∧
    [begun (atPlaten ([skipped (.line .l2), skipped .rinse] ++ [polishStep recipe]) 20000),
      begun (atPlaten [polishStep recipe] 20001),
      begun (atPlaten [polishStep { recipe with line := .none, gap := 0 }] 0),
      begun (atPlaten [polishStep { recipe with line := .rinse, gap := 1000 }] 0),
      begun ((atPlaten [polishStep recipe] 0).setLine .l1 ⟨.slurry, .bound .p2 .h2 5, 5000, true, []⟩),
      begun ((atPlaten [polishStep recipe] 0).setLine .l1 ⟨.slurry, .faulted none, 5000, false, [.p2]⟩),
      begun ((atPlaten [polishStep recipe] 0).setLine .l1 ⟨.none, .disabled, 5000, false, []⟩),
      begun (atPlaten [skipped (.line .l2)] 0)] =
      [⟨.running, some .gap, 1000, [.line .l2, .rinse], true⟩, ⟨.running, some .keepoutWait, 0, [], false⟩,
        ⟨.running, some .polish, 0, [], true⟩, ⟨.running, some .gap, 1000, [], true⟩,
        ⟨.running, some .acquireLine, 0, [], false⟩, ⟨.running, some .acquireLine, 0, [], false⟩,
        ⟨.halted .stationUnavailable none, some .acquireLine, 0, [], false⟩, ⟨.idle, none, 0, [.line .l2], false⟩] ∧
    ((after (.start .recipe [0]) (atPlaten [polishStep recipe] 0)).line .l1).state = .bound .p1 .h1 100 := by
  decide +kernel

theorem witness_HoldSuspendsTheStep :
    (((pressing recipe .polish 3).seq .h1).state = .running ∧
      ((pressing recipe .polish 3).seq .h1).activity = some (.step (record (polishStep recipe) (some .polish))) ∧
      ((pressing recipe .polish 3).seq .h1).stack = [] ∧ ((pressing recipe .polish 3).seq .h1).lost = none ∧
      le8 [0, 0] 1 = 0 ∧ (pressing recipe .polish 3).inPolishPhase .h1 = true) ∧
    (let t := after (.hold .recipe [0, 0]) (pressing recipe .polish 3)
     (t.seq .h1).activity = some (.intervention .rinse [.holdRinse] none) ∧ t.isDown .h1 = true ∧
       (t.line .l1).state = .idle) ∧
    (let t := after (.hold .recipe [0, 1]) (pressing recipe .polish 3)
     (t.seq .h1).activity = some (.intervention .lift [.holdLift] none) ∧ t.isDown .h1 = false) ∧
    (((pressing recipe .polish 3).carrier .h1).position = .stands (.platen .p1) ∧ StationId.platen .p1 ≠ .rinse ∧
      (pressing recipe .polish 3).trip.tripped = false ∧ ((pressing recipe .polish 3).station .rinse).holder = none ∧
      ((pressing recipe .polish 3).station .rinse).inService = true) ∧
    ((after (.hold .recipe [0, 2]) (pressing recipe .polish 3)).seq .h1).activity =
      some (.intervention .park [.holdPark] (some .moving)) := by decide +kernel

theorem witness_HoldSuspendsTheStep_refusals :
    holdOf (le8 [0, 1] 1) = some .holdLift ∧ (working.seq .h1).state ≠ .running ∧
      Cause.holdLift.cls.rank < (intervened .park [.holdPark] (some .inPlace) []).activityRank .h1 ∧
      (intervened .rinse [.holdRinse] none []).inPolishPhase .h1 = false ∧
      answered .recipe (after (.hold .recipe [0, 0]) (intervened .rinse [.holdRinse] none [])) = some .wrongState := by
  decide +kernel

/-- H1 in LIFT by a HOLD over a DWELL at P1. -/
def lifted : State := intervened .lift [.holdLift] none [⟨.step (record (dwellStep 40) (some .dwell)), none⟩]

/-- H1 in LIFT by a stall over a RINSE for a line, over a POLISH step at P1: both contexts of the stack are taken. -/
def full : State :=
  intervened .lift [.platenStall] none
    [⟨.intervention .rinse [.lineFault .l2], none⟩, ⟨.step (record (polishStep recipe) (some .polish)), none⟩]

theorem witness_HoldSuspendsTheStep_overflow :
    (Cause.holdLift.cls = .lift ∧ Cause.holdLift ≠ .holdRinse ∧ (∀ l ∈ lineIds, (full.line l).wait = []) ∧
      ((after (.hold .recipe [0, 1]) full).seq .h1).activity =
        some (.intervention .lift [.platenStall, .holdLift] none) ∧
      ((after (.hold .recipe [0, 1]) lifted).seq .h1).activity = some (.intervention .lift [.holdLift] none)) ∧
    (let t := after (.hold .recipe [0, 2]) full
     (t.seq .h1).activity = some (.intervention .park [.holdPark] (some .moving)) ∧
       (t.seq .h1).stack = [⟨.intervention .lift [.platenStall], none⟩,
         ⟨.intervention .rinse [.lineFault .l2], none⟩] ∧
       (t.seq .h1).lost = some ⟨0, 0, 1, ResultFlags.clear, 0, 0, some .p1, .line .l1⟩ ∧
       .contextLost .h1 ∈ (t.port .recipe).notices) := by decide +kernel

/-- H1 in LIFT by a HOLD over a RINSE for a line, over a DWELL at P1. -/
def deep : State :=
  intervened .lift [.holdLift] none
    [⟨.intervention .rinse [.lineFault .l2], none⟩, ⟨.step (record (dwellStep 40) (some .dwell)), none⟩]

theorem witness_ResumeUnwindsTheStack :
    (∀ c ∈ [Cause.holdLift], c.clearedByResume = true) ∧
      (deep.seq .h1).stack = ⟨.intervention .rinse (.lineFault .l2 :: []), none⟩ ::
        [⟨.step (record (dwellStep 40) (some .dwell)), none⟩] ∧
      ((after (.resume .recipe [0]) deep).seq .h1).activity = some (.intervention .rinse [.lineFault .l2] none) ∧
      (record (dwellStep 40) (some .dwell)).record.kind = .dwell 40 ∧
      (lifted.carrier .h1).position = .stands (record (dwellStep 40) (some .dwell)).station ∧
      ((after (.resume .recipe [0]) lifted).dwelling .h1).isSome = true ∧
      (∀ c ∈ [Cause.lineFault .l2], c.clearedByResume = false) ∧
      ((intervened .rinse [.lineFault .l2] none []).seq .h1).activity =
        some (.intervention .rinse [.lineFault .l2] none) ∧
      answered .recipe (after (.resume .recipe [0]) (pressing recipe .polish 3)) = some .wrongState ∧
      answered .recipe (after (.resume .recipe [0]) (intervened .trip [.interlock] none [])) = some .wrongState := by
  decide +kernel

/-- H1 in LIFT over its POLISH step at P1, whose line is FAULTED. -/
def dry : State :=
  (intervened .lift [.holdLift] none [⟨.step (record (polishStep recipe) (some .polish)), none⟩]).setLine .l1
    ⟨.slurry, .faulted none, 5000, false, [.p1]⟩

theorem witness_ResumeUnwindsTheStack_lost :
    ((∀ c ∈ (lostStep.seq .h1).stack, c.saved = .intervention .rinse []) ∧
      ((after (.resume .recipe [0]) lostStep).seq .h1).state = .halted (.final .lost) none ∧
      ((after (.resume .recipe [0]) lostStep).seq .h1).results =
        [⟨2, .lost, ResultFlags.clear, 3, 0, none, 1, 7, 0, some .p1, .line .l1⟩]) ∧
    (let s := lostStep.modCarrier .h1 fun c => { c with position := .inTransit (.platen .p1) .load .halted }
     ((after (.resume .recipe [0]) s).seq .h1).state = .closing (.halted .lost)) ∧
    (dry.ownedPlaten .h1 = none ∧ (dry.base .p1).amend = ⟨none, none, none⟩ ∧
      (dry.carrier .h1).position = .stands (.platen .p1) ∧ (dry.station (.platen .p1)).holder = some (.head .h1) ∧
      (dry.seq .h1).vacuum = true ∧ (dry.seq .h1).lost = none ∧
      (let t := after (.resume .recipe [0]) dry
       (t.seq .h1).activity = some (.intervention .rinse [.lineFault .l1] none) ∧ (t.line .l1).wait = [] ∧
         ((t.seq .h1).stack.findSome? Context.step?).map (fun w => (w.resume, w.interventions)) =
           some (some .acquireLine, 1))) := by decide +kernel

/-- H1 at P1 HALTED(STATION_UNAVAILABLE) in a MOVE step to RINSE. -/
def turnedDown : State :=
  (running (standing working .h1 (.platen .p1)) .h1
    { record (moveStep .rinse) none with station := .rinse, platen := none }).modSeq .h1 fun q =>
    { q with state := .halted .stationUnavailable none }

theorem witness_ResumeRetriesTheHalt :
    ((turnedDown.seq .h1).state = .halted .stationUnavailable none ∧ turnedDown.trip.tripped = false ∧
      (turnedDown.carrier .h1).position = .stands (.platen .p1) ∧ turnedDown.closedTo .rinse = false ∧
      (turnedDown.station .rinse).holder = none ∧ turnedDown.keptForRun .rinse = false ∧
      ((after (.resume .recipe [0]) turnedDown).seq .h1).state = .running) ∧
    (((travelling .halted (.halted .moveFault none)).carrier .h1).position = .inTransit (.platen .p1) .load .halted ∧
      ((after (.resume .recipe [0]) (travelling .halted (.halted .moveFault none))).carrier .h1).moveNumber = 10) ∧
    ((after (.resume .recipe [0]) (travelling .halted (.halted .moveFault (some .idle)))).seq .h1).state =
      .closing .idle ∧
    answered .recipe (after (.resume .recipe [0]) (travelling .halted (.halted (.final .lost) none))) =
      some .wrongState ∧
    answered .recipe (after (.resume .recipe [0]) (tripped turnedDown)) = some .tripped ∧
    answered .recipe (after (.resume .recipe [0]) working) = some .wrongState := by decide +kernel

theorem witness_AbortEndsTheList :
    (((pressing recipe .polish 3).seq .h1).state.abortable = true ∧
      ((pressing recipe .polish 3).carrier .h1).position = .stands (.platen .p1) ∧
      (let t := after (.abort .recipe [0]) (pressing recipe .polish 3)
       (t.seq .h1).state = .idle ∧ (t.seq .h1).results.map ResultRecord.outcome = [.aborted] ∧
         (t.seq .h1).results.map ResultRecord.accrued = [3] ∧ (t.line .l1).state = .idle)) ∧
    ((after (.abort .recipe [0]) (travelling (.moving 4 20000) .running)).carrier .h1 =
        (travelling (.moving 4 20000) .running).carrier .h1) ∧
    ((after (.abort .recipe [0]) (travelling .halted .running)).carrier .h1).position =
      .inTransit (.platen .p1) .load (.moving 0 20000) ∧
    ((after (.abort .recipe [0]) (tripped (travelling .halted .running))).carrier .h1).position =
      .inTransit (.platen .p1) .load .deferred ∧
    (working.seq .h1).state.abortable = false := by decide +kernel

/-- H2 at P2 waits in ACQUIRE_LINE for L1, the arm of P2 at a position. -/
def awaiting (s : State) (n : Nat) : State :=
  (((running (standing s .h2 (.platen .p2)) .h2 { record (polishStep recipe) (some .acquireLine) with
    station := .platen .p2, platen := some .p2 }).setLine .l1 { s.line .l1 with wait := [.p2] }).modCond .p2 fun c =>
    { c with position := n }).settle

/-- What the state s gives the premises of State.HandedOn for L1, P2 and H2. -/
def handing (s : State) : Bool :=
  decide ((s.line .l1).wait = [.p2] ∧ s.headOn .p2 = some .h2 ∧ s.isDown .h2 = false ∧ (s.seq .h2).stack = []) &&
    decide ((s.polishing .h2).map (fun x => (x.1.phase, x.2)) = some (some .acquireLine, recipe, .p2)) &&
    decide ((s.base .p2).stalled = false ∧ (s.base .p2).direction = .forward ∧ s.trip.tripped = false) &&
    lineIds.all fun l => decide ((s.line l).state = .idle → (s.line l).wait = [])

/-- What becomes of L1 and of H2's step: the binding and the waiters, the phase and the gap, the lift. -/
structure Handed where
  line : LineState
  wait : List NozzleId
  phase : Option Phase
  gap : Nat
  down : Bool
  deriving DecidableEq

def handedOn (c : Instr) (s : State) : Handed :=
  let t := after c s
  let w := t.current .h2
  ⟨(t.line .l1).state, (t.line .l1).wait, w.bind Working.phase, (w.map Working.gapRemaining).getD 0, t.isDown .h2⟩

def toGap : Handed := ⟨.bound .p2 .h2 100, [], some .gap, 1000, true⟩
def toKeepout : Handed := ⟨.bound .p2 .h2 100, [], some .keepoutWait, 0, false⟩

theorem witness_AbortEndsTheList_line :
    (let s := awaiting (pressing recipe .polish 3) 20000
     handing s ∧ s.headOn .p1 = some .h1 ∧ (s.carrier .h1).position = .stands (.platen .p1) ∧
       (s.line .l1).state = .bound .p1 .h1 100 ∧
       (∀ k ∈ lineIds, k ≠ .l1 → (s.line k).state = .idle) ∧ handedOn (.abort .recipe [0]) s = toGap) ∧
    (let s := awaiting (pressing recipe .polish 3) 20001
     handing s ∧ handedOn (.abort .recipe [0]) s = toKeepout) := by
  decide +kernel

theorem witness_AmendWaitsForTheBoundary :
    ((pressing recipe .gap 0).inPolishPhase .h1 = true ∧
      ((pressing recipe .gap 0).carrier .h1).position = .stands (.platen .p1) ∧
      le32 [0, 0, 1, 0, 0, 0] 2 = 1 ∧ le32 [0, 0, 0x00, 0x09, 0x3d, 0] 2 = 4000000 ∧
      ((after (.amend .recipe [0, 0, 1, 0, 0, 0]) (pressing recipe .gap 0)).base .p1).amend.limit = some 1 ∧
      ((after (.amend .recipe [0, 1, 0xff, 0xff, 0, 0]) (pressing recipe .gap 0)).base .p1).amend.opFixed =
        some 65535 ∧
      ((after (.amend .recipe [0, 2, 100, 0, 0, 0]) (pressing recipe .gap 0)).base .p1).amend.opPercent = some 100) ∧
    le32 [0, 0, 0, 0, 0, 0] 2 = 0 ∧ 4000000 < le32 [0, 0, 0x01, 0x09, 0x3d, 0] 2 ∧
    65535 < le32 [0, 1, 0, 0, 1, 0] 2 ∧ 100 < le32 [0, 2, 101, 0, 0, 0] 2 ∧ 3 ≤ le8 [0, 3, 0, 0, 0, 0] 1 ∧
    working.inPolishPhase .h1 = false := by decide +kernel

/-- H1 in GAP with n counts to go. -/
def gapping (n : Nat) : State :=
  ((pressing recipe .gap 0).setWorking .h1 { record (polishStep recipe) (some .gap) with gapRemaining := n })

/-- H1 in OVERPOLISH with 6 units captured and a target, 8 of 10 units accrued. -/
def overpolishing (target : Nat) : State :=
  (pressing endpointRecipe .overpolish 8).setWorking .h1
    { record (polishStep endpointRecipe) (some .overpolish) with confirmed := some ⟨⟨0, 0, 6⟩, target⟩ }

/-- H1 in a POLISH step at the last position of a revolution, with an amend pending. -/
def amending (r : PolishRecord) (ph : Phase) (n : Nat) (a : AmendBuffer) : State :=
  (pressing r ph n).modBase .p1 fun b => { b with position := 3999, amend := a }

/-- What a boundary leaves of the step: its phase and values, or the outcome and CLAMPED of its result. -/
structure Bounded where
  phase : Option Phase
  fixed : Nat
  percent : Nat
  outcomes : List StepOutcome
  clamped : List Bool
  deriving DecidableEq

def bounded (c : Instr) (s : State) : Bounded :=
  let t := after c s
  let w := t.current .h1
  ⟨w.bind Working.phase, (w.map Working.opFixed).getD 0, (w.map Working.opPercent).getD 0,
    (t.seq .h1).results.map ResultRecord.outcome, (t.seq .h1).results.map fun r => r.flags.clamped⟩

theorem witness_AmendWaitsForTheBoundary_load :
    (let s := amending recipe .polish 3 ⟨some 5, some 7, none⟩
     (s.base .p1).config.cpr ≤ (s.base .p1).position + 1 ∧ 0 < (s.base .p1).position ∧
       (s.base .p1).config.cpr ≤ 2 * (s.base .p1).position ∧ (s.base .p1).amend ≠ ⟨none, none, none⟩ ∧
       (s.base .p1).owner = some ⟨.h1, 10, .counts⟩ ∧ s.ownedPlaten .h1 = some .p1 ∧ s.headOn .p1 = some .h1 ∧
       (s.polishing .h1).map (fun x => x.2) = some (recipe, .p1) ∧
       ((after (.indexPulse .p1) s).base .p1).amend = ⟨none, none, none⟩) ∧
    (let past (a : AmendBuffer) := (overpolishing 5).modBase .p1 fun b => { b with position := 3999, amend := a }
     [bounded (.platenCount .p1 .forward) (amending recipe .polish 3 ⟨some 5, some 7, none⟩),
       bounded (.indexPulse .p1) (amending recipe .polish 3 ⟨some 5, some 7, none⟩),
       bounded (.platenCount .p1 .forward)
         ((gapping 2).modBase .p1 fun b => { b with position := 3999, amend := ⟨none, none, some 9⟩ }),
       bounded (.indexPulse .p1) (amending recipe .polish 3 ⟨some 3, none, none⟩),
       bounded (.indexPulse .p1) (amending recipe .polish 3 ⟨some 4, none, none⟩),
       bounded (.indexPulse .p1) (amending endpointRecipe .polish 3 ⟨some 3, none, none⟩),
       bounded (.indexPulse .p1) (past ⟨none, some 2, some 0⟩),
       bounded (.indexPulse .p1) (past ⟨some 8, some 3, some 0⟩),
       bounded (.indexPulse .p1) (past ⟨some 10, some 4, some 0⟩)]) =
      [⟨some .polish, 7, 50, [], []⟩, ⟨some .polish, 7, 50, [], []⟩, ⟨some .gap, 5, 9, [], []⟩,
        ⟨none, 0, 0, [.completed], [false]⟩, ⟨some .polish, 5, 50, [], []⟩, ⟨none, 0, 0, [.epMiss], [false]⟩,
        ⟨none, 0, 0, [.endpoint], [false]⟩, ⟨none, 0, 0, [.endpoint], [true]⟩, ⟨some .overpolish, 4, 0, [], []⟩] := by decide +kernel

/-! ## Placing, configuration and records -/

/-- P1 is OUT of service. -/
def closed : State := working.modStation (.platen .p1) fun k => { k with inService := false }

/-- P1 is OUT of service and its pad owes two sweeps. -/
def closedOwing : State := closed.modPad .p1 fun k => { k with owed := 2 }

/-- H1 on its way from P1 to LOAD, CLOSING(IDLE). -/
def closing : State := travelling (.moving 4 20000) (.closing .idle)

/-- A PLATEN_CONFIG body of P1 with the lead and the fold given. -/
def platenBody (lead0 fold : Byte) : List Byte :=
  [0, 0xe8, 3, fold, 8, 0xf4, 1, lead0, 3, 3, 60, 200, 0, 0xd0, 7, 0x20, 0x4e, 0x40, 0x9c, 0xa0, 0x0f, 150, 0]

theorem witness_HeadAndPlatenConfig :
    (let b : List Byte := [0, 0xbc, 2, 100, 0, 0xe8, 3]
     let c : List Byte := [0, 0, 0, 0x10, 0x27, 0x60, 0xea]
     b.length = 7 ∧ le16 b 1 = 700 ∧ le16 b 3 = 100 ∧ le16 b 5 = 1000 ∧ le16 c 3 = 10000 ∧ le16 c 5 = 60000 ∧
       (working.seq .h1).state.configOpen = true ∧ ((pressing recipe .polish 0).seq .h1).state = .running ∧
       (closing.seq .h1).state = .closing .idle ∧
       ((after (.headConfig .recipe c) working).zone .h1).bandTimeout = 10000 ∧
       answered .recipe (after (.headConfig .recipe b) (pressing recipe .polish 0)) = some .wrongState) ∧
    700 < le16 [0, 0xbd, 2] 1 ∧
    ((platenBody 0xe8 4).length = 23 ∧ (platenConfigOf (platenBody 0xe8 4)).valid = true ∧
      (platenConfigOf (platenBody 0xe7 1)).valid = true ∧ (platenConfigOf (platenBody 0xe8 1)).valid = false ∧
      (closed.station (.platen .p1)).inService = false ∧ (working.station (.platen .p1)).inService = true ∧
      ((after (.platenConfig .recipe (platenBody 0xe7 1)) (closed.modBase .p1 fun k => { k with position := 7 })).base
        .p1).position = 0 ∧
      ((after (.platenConfig .recipe (platenBody 0xe8 4)) (closed.modCond .p1 fun k => { k with position := 201 })).cond
        .p1).arm = .stowing) ∧
    ((platenConfigOf (platenBody 0xe8 4)).cpr = 4000 ∧ (platenConfigOf (platenBody 0xe8 4)).outer = 40000 ∧
      (platenConfigOf ((platenBody 0xe8 4).set 9 8)).valid = false ∧
      (platenConfigOf ((platenBody 0xe8 4).set 9 7)).valid = true ∧
      (platenConfigOf ((platenBody 0xe8 4).set 10 9)).valid = false ∧
      (platenConfigOf ((platenBody 0xe8 4).set 22 1)).valid = false) := by decide +kernel

/-- A PLATEN_CONFIG taken while the arm stows leaves its speed until the next arm count, which takes the new one (R136). -/
theorem test_stowing_arm_keeps_its_speed :
    (let s := closed.modCond .p1 fun c => { c with arm := .stowing, position := 500, speedOut := 4000 }
     let t := after (.platenConfig .recipe ((platenBody 0xe8 4).set 19 0xa1)) s
     t.armOut .p1 = ⟨.travel .inward, 4000, 0⟩ ∧ (t.base .p1).config.armSpeed = 4001 ∧
       (after (.armCount .p1 .inward) t).armOut .p1 = ⟨.travel .inward, 4001, 0⟩) := by decide +kernel

theorem witness_LineConfig :
    (let off : List Byte := [0, 0, 0, 0]
     let slurry : List Byte := [0, 1, 0x60, 0xea]
     let faulted := working.setLine .l1 ⟨.slurry, .faulted none, 5000, false, []⟩
     lineOf (le8 slurry 0) = some .l1 ∧ lineClassOf (le8 slurry 1) = some .slurry ∧ le16 slurry 2 = 60000 ∧
       lineClassOf (le8 off 1) = some .none ∧ (State.reset.line .l1) = ⟨.none, .disabled, 5000, false, []⟩ ∧
       ((after (.lineConfig .recipe slurry) State.reset).line .l1).state = .faulted none ∧
       ((after (.lineConfig .recipe slurry) (working.setLine .l1 ⟨.none, .disabled, 0, true, []⟩)).line .l1).state =
         .idle ∧
       (working.line .l1) = ⟨.slurry, .idle, 5000, true, []⟩ ∧
       ((after (.lineConfig .recipe off) working).line .l1).state = .disabled ∧
       ((after (.lineConfig .recipe off) faulted).line .l1).state = .disabled ∧
       ((after (.lineConfig .recipe slurry) faulted).line .l1).state = .faulted none ∧
       ((pressing recipe .polish 0).line .l1).state = .bound .p1 .h1 100 ∧
       answered .recipe (after (.lineConfig .recipe off) (pressing recipe .polish 0)) = some .busy) ∧
    60000 < le16 [0, 0, 0x61, 0xea] 2 := by decide +kernel

theorem witness_ModuleConfig :
    senseOf (le8 [0, 1, 1, 0] 0) = some .tripOnLow ∧ periodOf (le8 [0, 1, 1, 0] 1) = some .ms100 ∧
      le16 [0, 1, 1, 0] 2 = 1 ∧ working.trip.tripped = false ∧ InterlockSense.level .tripOnLow ≠ working.trip.input ∧
      senseOf (le8 [1, 2, 1, 0] 0) = some .tripOnHigh ∧ InterlockSense.level .tripOnHigh = working.trip.input ∧
      (after (.moduleConfig .recipe [1, 2, 1, 0]) working).trip.tripped = true ∧ le16 [0, 1, 0, 0] 2 = 0 := by
  decide +kernel

theorem witness_ServiceSet :
    le8 [0, 1] 0 = 0 ∧ 4 ≤ le8 [4, 0] 0 ∧ stationOfCode (le8 [1, 1] 0) = some (.platen .p1) ∧
      (working.station (.platen .p1)).holder = none ∧ (working.station (.platen .p1)).wait = [] ∧
      ((after (.serviceSet .recipe [1, 1]) working).station (.platen .p1)).inService = false ∧
      (working.station (.platen .p1)).inService = decide (le8 [1, 0] 1 = 0) ∧
      ((pressing recipe .polish 0).station (.platen .p1)).holder ≠ none ∧
      answered .recipe (after (.serviceSet .recipe [1, 1]) (pressing recipe .polish 0)) = some .busy ∧
      (closed.pad .p1).owed = 0 ∧ (closed.station (.platen .p1)).inService = false ∧
      (closedOwing.disk .p1).state = .active ∧ closedOwing.trip.tripped = false ∧
      (closedOwing.cond .p1).runHeld = false ∧ (closedOwing.cond .p1).arm = .stowed ∧
      (closedOwing.station (.platen .p1)).holder = none ∧
      ((after (.serviceSet .recipe [1, 0]) closedOwing).cond .p1).arm = .deploying .exSitu := by decide +kernel

/-- A PAD_INSTALL body: limits 1 and 2, one ex-situ sweep, n break-in sweeps. -/
def installBody (n : Byte) : List Byte := [0, 1, 0, 0, 0, 1, 0, 0, 0, 2, 0, 0, 0, 0, 1, n]

/-- A PAD_RESTORE body: a state code, the life, limits 1 and 2, one ex-situ sweep, n owed. -/
def restoreBody (g life n : Byte) : List Byte :=
  [0, 1, 0, 0, 0, g, life, 0, 0, 0, 1, 0, 0, 0, 2, 0, 0, 0, 5, 0, 0, 0, 6, 0, 0, 1, 0, n]

theorem witness_PadAndDiskRecords :
    ((installBody 0).length = 16 ∧ le32 (installBody 0) 5 = 1 ∧ le32 (installBody 0) 9 = 2 ∧
      le8 (installBody 0) 14 = 1 ∧ platenOfCode (le8 (installBody 0) 0) = some .p1 ∧
      ((after (.padInstall .recipe (installBody 0)) closed).pad .p1).state = .inService ∧
      ((after (.padInstall .recipe (installBody 9)) closed).pad .p1).owed = 9 ∧
      answered .recipe (after (.padInstall .recipe (installBody 0)) working) = some .wrongState) ∧
    ((restoreBody 2 0 0).length = 28 ∧ padStateOf (le8 (restoreBody 2 0 0) 5) = some .inService ∧
      le32 (restoreBody 2 0 0) 10 = 1 ∧ le32 (restoreBody 2 0 0) 14 = 2 ∧ le8 (restoreBody 2 0 0) 25 = 1 ∧
      ((after (.padRestore .recipe (restoreBody 2 0 0)) closed).pad .p1).state = .inService ∧
      ((after (.padRestore .recipe (restoreBody 2 1 0)) closed).pad .p1).state = .warn ∧
      ((after (.padRestore .recipe (restoreBody 1 1 1)) closed).pad .p1).state = .breakIn ∧
      ((after (.padRestore .recipe (restoreBody 1 2 1)) closed).pad .p1).state = .retired ∧
      answered .recipe (after (.padRestore .recipe (restoreBody 1 0 0)) closed) = some .outOfRange ∧
      answered .recipe (after (.padRestore .recipe (restoreBody 5 0 0)) closed) = some .outOfRange) ∧
    (le32 [0, 1, 0, 0, 0, 1, 0, 0, 0] 5 = 1 ∧ le32 [0, 1, 0, 0, 0, 0x00, 0x09, 0x3d, 0] 5 = 4000000 ∧
      ((after (.diskInstall .recipe [0, 1, 0, 0, 0, 1, 0, 0, 0]) closed).disk .p1) = ⟨1, .active, 0, 1⟩ ∧
      le32 [0, 1, 0, 0, 0, 0, 0, 0, 0] 5 = 0) := by decide +kernel

theorem witness_ConditionNow :
    le8 [0, 1] 1 = 1 ∧ (working.pad .p1).state ≠ .unknown ∧ (working.station (.platen .p1)).holder = none ∧
      (working.station (.platen .p1)).inService = true ∧ (working.disk .p1).state = .active ∧
      working.trip.tripped = false ∧ (working.cond .p1).runHeld = false ∧ (working.cond .p1).arm = .stowed ∧
      ((after (.conditionNow .recipe [0, 1]) working).station (.platen .p1)).holder = some .conditioner ∧
      ((after (.conditionNow .recipe [0, 255]) closed).pad .p1).owed = 255 ∧
      (State.reset.pad .p1).state = .unknown ∧ le8 [0, 0] 1 = 0 := by decide +kernel

/-! ## Notices, windows, the beat -/

theorem witness_NoticeRead :
    ((working.raise .recipe .tripped).raise .recipe (.listDone .h2)).NoticesCanonical ∧
      (answered .recipe (after (.noticeRead .recipe []) (working.raise .recipe .tripped)) = some .ok ∧
        ((catalogue .recipe).length = 51 ∧
          (PortUnit.noticeRead ⟨catalogue .recipe, 0, none, false, none⟩ .recipe).length = 103)) := by
  refine ⟨fun q => ?_, by decide +kernel⟩
  unfold PortUnit.canonical
  cases q <;> decide +kernel

theorem witness_NoticeAckAndMask :
    (∀ n ∈ [Notice.tripped, .claimOverdue .h4], n ∈ catalogue .transfer) ∧
      ((after (.noticeAck .transfer ([Notice.tripped, .claimOverdue .h4].map (putNotice .transfer)).flatten)
        (working.raise .transfer .tripped)).port .transfer).notices = [] ∧
      (∀ n ∈ catalogue .endpoint, ¬(n.kind .endpoint = some (3 : Byte).toNat ∧ n.object = (0 : Byte).toNat)) ∧
      (∀ n ∈ catalogue .endpoint, ¬(n.kind .endpoint = some (2 : Byte).toNat ∧ n.object = (3 : Byte).toNat)) ∧
      answered .endpoint (after (.noticeAck .endpoint [0, 0, 2, 3]) working) = some .outOfRange ∧
      le16 [7, 0] 0 < 2 ^ kindCount .endpoint ∧ 2 ^ kindCount .endpoint ≤ le16 [8, 0] 0 ∧
      ((after (.noticeMask .recipe [0, 0x20]) (working.raise .recipe .tripped)).alertOut .recipe = true) := by
  decide +kernel

theorem witness_Windows :
    codeUnknown 0 = true ∧ codeUnknown 56 = true ∧ codeUnknown 55 = false ∧
      answered .transfer (after (.unknownRequest .transfer 24 []) working) = some .unknownRequest ∧
      (Instr.claim .transfer []).wellFormed = true ∧ (Instr.claim .transfer []).port? = some .transfer ∧
      ((after (.coldReset [.transfer]) working).port .transfer).selectHeld = true ∧
      answered .transfer (after (.claim .transfer []) (after (.coldReset [.transfer]) working)) = none := by
  decide +kernel

theorem witness_Windows_frames :
    windowCommand .recipe [1, 60] = .windowClosedEarly .recipe ∧
      windowCommand .recipe [4, 1, 3, 0xff, 0xff] = .start .recipe [3] ∧
      (after (windowCommand .recipe ([1, 9] ++ writeMove 0)) working).seq .h1 =
        { working.seq .h1 with steps := [moveStep .rinse] } ∧
      windowCommand .endpoint [0, 0] = .unknownRequest .endpoint 0 [] ∧ codeUnknown 23 = false ∧
      answered .recipe (after (windowCommand .recipe [1, 61]) working) = some .badLength ∧
      answered .transfer (after (windowCommand .transfer [1, 61]) working) = some .notPermitted ∧
      (working.takeWindow .transfer [49, 0]).pending = [.stationRead .transfer []] ∧
      (after (.claim .transfer [0]) (loaded [])).responseFrame .transfer = [0, 0] ∧
      (after (.claim .transfer [0, 0]) (loaded [])).responseFrame .transfer = [2, 0] ∧
      (after (.beatRead .recipe []) working).responseFrame .recipe = [0, 5, 0, 0, 0, 0, 0] := by decide +kernel

/-- The frame of BEAT_READ and three bytes more, and the same with the command taken once its frame is complete. -/
theorem witness_Windows_bytes :
    (let a := ((working.respond .recipe .ok [7]).selectPort .recipe).shiftBytes .recipe [22]
     let b := a.1.shiftByte .recipe 0
     let early := b.1.shiftBytes .recipe [9, 9]
     a.2 = [0] ∧ (a.1.port .recipe).window = some ⟨[22], 0⟩ ∧ a.1.pending = [] ∧
       (a.1.port .recipe).response = none ∧ (a.1.releasePort .recipe).pending = [.windowClosedEarly .recipe] ∧
       b.2 = 0 ∧ frameWhole [22, 0] = true ∧ b.1.pending = [.beatRead .recipe []] ∧ early.2 = [0, 0] ∧
       (let t := after (.beatRead .recipe []) { b.1 with pending := [] }
        let c := t.shiftBytes .recipe [9, 9, 9]
        (t.responseFrame .recipe).length = 7 ∧ c.2 = [0, 5, 0] ∧ (c.1.port .recipe).window = some ⟨[22, 0], 3⟩ ∧
          (c.1.shiftBytes .recipe (List.replicate 6 0)).2 = [0, 0, 0, 0, 0, 0] ∧
          ((c.1.releasePort .recipe).port .recipe).window = none ∧ (c.1.releasePort .recipe).pending = [])) ∧
    (let s := after (.coldReset [.transfer]) working
     (s.port .transfer).selectHeld = true ∧ s.selectPort .transfer = s ∧ s.shiftByte .transfer 5 = (s, 0) ∧
       ((s.releasePort .transfer).port .transfer).selectHeld = false) := by decide +kernel

/-- H1 in TRIP over a LIFT; H2 CLOSING in transit with its move deferred; the module tripped. -/
def owing : State :=
  tripped (((intervened .trip [.interlock] none [⟨.intervention .lift [.platenStall], none⟩]).modCarrier .h2 fun c =>
    { c with position := .inTransit .load .rinse .deferred }).modSeq .h2 fun q => { q with state := .closing .idle })

theorem witness_ResumeModule :
    State.reset.trip.atLevel = true ∧ working.trip.atLevel = false ∧ working.trip.tripped = false ∧
      (owing.trip.atLevel = false ∧ owing.trip.tripped = true ∧
        (owing.carrier .h2).position = .inTransit .load .rinse .deferred ∧ (owing.seq .h2).state = .closing .idle ∧
        (∀ d ∈ stationIds, (owing.station d).wait = []) ∧
        (owing.seq .h1).stack = ⟨.intervention .lift (.platenStall :: []), none⟩ :: []) ∧
      ((after (.resumeModule .recipe []) owing).seq .h1).activity = some (.intervention .lift [.platenStall] none) ∧
      ((after (.resumeModule .recipe []) owing).carrier .h2).moveNumber = 1 := by decide +kernel

/-- H1 at P1 in TRIP over the step w, the module tripped, the interlock back at its clear level. -/
def tripOver (w : Working) : State := tripped (intervened .trip [.interlock] none [⟨.step w, none⟩])

/-- What RESUME_MODULE makes of H1: its position, its stack, the phase and the gap of its step, its lift. -/
structure Resumed where
  position : Position
  stack : List Context
  phase : Option Phase
  gap : Nat
  down : Bool
  deriving DecidableEq

def resumed (s : State) : Resumed :=
  let t := after (.resumeModule .recipe []) s
  let w := t.current .h1
  ⟨(t.carrier .h1).position, (t.seq .h1).stack, w.bind Working.phase, (w.map Working.gapRemaining).getD 0,
    t.isDown .h1⟩

/-- A MOVE step to LOAD that waited for its station. -/
def toLoad : Working := { record (moveStep .load) (some .waitStation) with station := .load, platen := none }

theorem witness_ResumeModule_steps :
    (∀ s ∈ [tripOver toLoad, tripOver (record (dwellStep 40) (some .dwell))],
      s.trip.atLevel = false ∧ s.trip.tripped = true ∧ (s.seq .h1).state = .running ∧
        (s.carrier .h1).position = .stands (.platen .p1) ∧ (s.station (.platen .p1)).holder = some (.head .h1) ∧
        (s.seq .h1).vacuum = true ∧ s.closedTo .load = false ∧ (s.station .load).holder = none ∧
        (∀ l ∈ lineIds, (s.line l).wait = []) ∧ (∀ g ∈ headIds, g ≠ .h1 → s.isRunning g = false)) ∧
    [resumed (tripOver toLoad),
      resumed ((tripOver toLoad).modCarrier .h1 fun c => { c with position := .inTransit (.platen .p1) .load .halted }),
      resumed (tripOver (record (dwellStep 40) (some .dwell))),
      resumed (tripOver (record (polishStep { recipe with line := .none }) (some .polish))),
      resumed (tripOver (record (polishStep recipe) (some .polish))),
      resumed ((tripOver (record (polishStep recipe) (some .polish))).modCond .p1 fun c =>
        { c with arm := .stowing, position := 20001 })] =
      [⟨.inTransit (.platen .p1) .load (.moving 0 20000), [], some .inTransit, 0, false⟩,
        ⟨.inTransit (.platen .p1) .load (.moving 0 20000), [], some .inTransit, 0, false⟩,
        ⟨.stands (.platen .p1), [], some .dwell, 0, false⟩, ⟨.stands (.platen .p1), [], some .gap, 3, true⟩,
        ⟨.stands (.platen .p1), [], some .gap, 1000, true⟩, ⟨.stands (.platen .p1), [], some .keepoutWait, 0, false⟩] ∧
    (let s := tripped (travelling .deferred .running)
     (s.seq .h1).activity = some (.step { record (moveStep .load) (some .inTransit) with station := .load, platen := none }) ∧
       resumed s = ⟨.inTransit (.platen .p1) .load (.moving 0 20000), [], some .inTransit, 0, false⟩) := by
  decide +kernel

/-- The arm of P1 suspended by the trip at a position, C1 holding its run or no one holding P1. -/
def halted (m : ArmMode) (run : Bool) (n : Nat) : State :=
  (tripped ((conditioning n).modCond .p1 fun c => { c with arm := .suspended m .sweeping, runHeld := run })).modStation
    (.platen .p1) fun k => { k with holder := if run then some .conditioner else none }

theorem witness_ResumeModule_blocks :
    (let s := halted .exSitu true 3000
     let t := after (.resumeModule .recipe []) s
     (s.base .p1).stalled = false ∧ (s.cond .p1).runHeld = true ∧ (t.cond .p1).arm = .sweeping .exSitu ∧
       (t.cond .p1).forceOut = 150 ∧ (t.base .p1).speed = 60) ∧
    (let s := (halted (.inSitu .h1) false 3000).modPad .p1 fun k => { k with owed := 0 }
     (∀ g ∈ headIds, (s.carrier g).position ≠ .stands (.platen .p1)) ∧
       ((after (.resumeModule .recipe []) s).cond .p1).arm = .stowing) ∧
    (let s := tripped (working.modPad .p1 fun k => { k with owed := 2 })
     let t := after (.resumeModule .recipe []) s
     (s.disk .p1).state = .active ∧ (s.cond .p1).runHeld = false ∧ (s.station (.platen .p1)).holder = none ∧
       (s.station (.platen .p1)).inService = true ∧ (t.cond .p1).arm = .deploying .exSitu ∧
       (t.station (.platen .p1)).holder = some .conditioner) ∧
    (let s := tripped (awaiting working 0)
     (s.line .l1).state = .idle ∧ (∀ l ∈ lineIds, l ≠ .l1 → (s.line l).wait = []) ∧ (s.line .l1).wait = [.p2] ∧
       handedOn (.resumeModule .recipe []) s = toGap) := by decide +kernel

/-- H1 at LOAD holds a claim whose timer stands at n. -/
def claimed (n : Nat) (stopped : Bool) : State :=
  (loaded []).modSeq .h1 fun q => { q with claim := some ⟨n, stopped, .none⟩ }

theorem witness_BeatReachesTheClaims :
    (claimed 298 false).beat.restartPending = false ∧ 298 + 1 < (claimed 298 false).beat.claimLimit ∧
      (claimed 299 false).beat.claimLimit ≤ 299 + 1 ∧ (working.seq .h1).claim = none ∧
      ((after .beat (claimed 298 false)).seq .h1).claim = some ⟨299, false, .none⟩ ∧
      ((after .beat (claimed 299 false)).seq .h1).claim = some ⟨300, true, .none⟩ ∧
      ((after (.claimOverdue .h1) (claimed 5 false)).seq .h1).claim = some ⟨300, true, .none⟩ ∧
      ((claimed 300 true).seq .h1).claim = some ⟨300, true, .none⟩ := by decide +kernel

/-- A restart is pending while H1 polishes. -/
def restarting : State :=
  let s := pressing recipe .polish 3
  s.setBeat { s.beat with restartPending := true }

theorem witness_WarmRestart :
    restarting.beat.restartPending = true ∧ working.beat.restartPending = false ∧
      (restarting.carrier .h1).position = .stands (.platen .p1) ∧
      (after .warmRestart restarting).trip.tripped = true ∧ after .beat restarting = after .warmRestart restarting ∧
      ((after .warmRestart restarting).port .recipe).notices = [.tripped, .restarted] := by decide +kernel

theorem witness_WarmRestart_lines :
    (let s := restarting.setLine .l3 ⟨.none, .disabled, 0, true, []⟩
     let t := after .warmRestart (s.setLine .l4 ⟨.slurry, .faulted none, 5000, true, []⟩)
     (s.line .l1).state = .bound .p1 .h1 100 ∧ (s.line .l2).state = .idle ∧
       (t.line .l1).state = .idle ∧ (t.line .l2).state = .idle ∧ (t.line .l3).state = .disabled ∧
       (t.line .l4).state = .faulted (some 0)) := by decide +kernel

theorem test_cold_reset_keeps_the_inputs :
    (after (.coldReset []) working).trip = ⟨.high, .tripOnLow, true⟩ ∧
      ((after (.coldReset []) (loaded [])).seq .h1).vacuum = true := by decide +kernel

/-! ## The transfer claim -/

theorem witness_ClaimBeginsAndEnds :
    ((loaded []).seq .h1).claim = none ∧ ((loaded []).seq .h1).state = .idle ∧
      ((loaded []).carrier .h1).position = .stands .load ∧
      ((after (.claim .transfer [0]) (loaded [])).seq .h1).claim = some ⟨0, false, .none⟩ ∧
      answered .transfer (after (.claim .transfer [0]) (claimed 0 false)) = some .busy ∧
      answered .transfer (after (.claim .transfer [0]) (pressing recipe .gap 0)) = some .busy ∧
      (closing.seq .h1).state = .closing .idle ∧ (working.seq .h1).state ≠ .idle ∧
      answered .transfer (after (.claim .transfer [0]) working) = some .wrongState ∧
      ((claimed 0 true).seq .h1).claim ≠ none ∧
      ((after (.release .transfer [0]) (claimed 0 true)).seq .h1).claim = none ∧
      .claimRevoked .h1 ∈ ((after (.revokeClaim .recipe [0]) (claimed 0 true)).port .transfer).notices := by
  decide +kernel

theorem witness_PlacedAndRemoved :
    ((claimed 300 true).seq .h1).vacuum = true ∧ ((claimed 300 true).seq .h1).claim ≠ none ∧
      ((after (.placed .transfer [0]) (claimed 300 true)).seq .h1).claim = some ⟨0, false, .placed⟩ ∧
      answered .transfer (after (.removed .transfer [0]) (claimed 300 true)) = some .wrongState ∧
      ((after (.vacuumChange .h1 false) (claimed 300 true)).seq .h1).vacuum = false ∧
      answered .transfer (after (.placed .transfer [0]) working) = some .notClaimed := by decide +kernel

/-! ## Marks and endpoint -/

theorem witness_MarkAnswersItsDisposition :
    platenOfCode (le8 [0, 0, 1] 0) = some .p1 ∧ markKindOf (le8 [0, 0, 1] 2) = some .clearing ∧
      (((watched (.watch .h1 0)).qual .p1).mark 0 0 .clearing 3).confirms = false ∧
      ((after (.mark .endpoint [0, 0, 1]) (watched (.watch .h1 0))).qual .p1).state = .confirm .h1 0 1 ∧
      (let s := (watched (.confirm .h1 0 2)).modBase .p1 fun b => { b with revolution := 1 }
       ((s.qual .p1).mark 1 1 .cleared 3).confirms = true ∧
         ((after (.mark .endpoint [0, 1, 2]) s).qual .p1).state = .idle ∧
         ((after (.mark .endpoint [0, 1, 2]) s).seq .h1).ep = true) := by decide +kernel

theorem witness_MarksAreClassified :
    ((5 : Rev).setWidth 8 - (3 : Byte)).toNat = 2 ∧ ((5 : Rev).setWidth 8 - (4 : Byte)).toNat = 1 ∧
      ((256 : Rev).setWidth 8 - (255 : Byte)).toNat = 1 ∧
      revNotBefore (5 - BitVec.ofNat 32 1) 5 = false ∧ revNotBefore (5 - BitVec.ofNat 32 1) 4 = true ∧
      (Qualifier.mark ⟨.idle, none, none, 0, 0, 65535, 0, 0, none⟩ 5 5 .film 3).qual.unexpected = 65535 ∧
      (Qualifier.mark ⟨.settling .h1 1, none, none, 0, 0, 0, 0, 0, none⟩ 5 4 .film 3).disposition = .ignored ∧
      (Qualifier.mark ⟨.settling .h1 1, none, none, 0, 0, 0, 0, 0, none⟩ 5 3 .film 3).disposition = .late ∧
      (Qualifier.mark ⟨.watch .h1 5, none, none, 0, 0, 0, 0, 0, none⟩ 5 4 .film 3).disposition = .ignored ∧
      (Qualifier.mark ⟨.confirm .h1 4 1, some 4, none, 0, 0, 0, 0, 0, none⟩ 5 4 .cleared 3).disposition =
        .duplicate := by decide +kernel

theorem witness_MarksCountRevolutions :
    revNotBefore 5 5 = true ∧ revNotBefore 4 5 = false ∧ revNotBefore 0 0xffffffff = true ∧
      (0 : Rev) = 0xffffffff + 1 ∧ (7 : Rev) ≠ 5 ∧ (7 : Rev) ≠ 5 + 1 ∧ revNotBefore 7 5 = true ∧
      ((Qualifier.reset.markInConfirm .h1 0 2 5 7 .clearing 3).qual.state = .confirm .h1 0 1) := by decide +kernel

theorem witness_Confirmation :
    ((working.qual .p1).state.counting = false ∧ (watched (.settling .h1 1)).qual .p1 ≠ Qualifier.reset ∧
      ((watched (.settling .h1 1)).qual .p1).state.counting = false) ∧
    (((watched (.watch .h1 0)).qual .p1).state.counting = true ∧
      ((watched (.watch .h1 0)).qual .p1).state.watching = some .h1 ∧
      ((watched (.watch .h1 0)).seq .h1).activity = some (.step (record (polishStep endpointRecipe) (some .polish))) ∧
      (record (polishStep endpointRecipe) (some .polish)).opFixed = 5 ∧
      ((after (.endpointConfirmation .p1) (watched (.watch .h1 0))).seq .h1).ep = true) ∧
    (let s := (running (watched (.confirm .h1 0 1)) .h1
        { record (polishStep endpointRecipe) (some .polish) with opFixed := 0, opPercent := 33 })
     (s.base .p1).accumulator = 3 ∧ 0 + 33 * 3 / 100 = 0 ∧
       ((after (.endpointConfirmation .p1) s).seq .h1).results.map ResultRecord.outcome = [.endpoint]) := by
  decide +kernel

theorem witness_Confirmation_mark :
    (let s := (watched (.confirm .h1 0 2)).modBase .p1 fun b => { b with revolution := 1 }
     let m := (s.qual .p1).mark (s.base .p1).revolution 1 .cleared (s.base .p1).config.confirmNumber
     (m.disposition, m.confirms, m.qual.state.watching) = (.accepted, true, some .h1) ∧
       platenOfCode (le8 [0, 1, 2] 0) = some .p1 ∧ markKindOf (le8 [0, 1, 2] 2) = some .cleared ∧
       (let t := after (.mark .endpoint [0, 1, 2]) s
        (t.qual .p1).capture = some ⟨1, 0, 3⟩ ∧ (t.port .endpoint).response = some ⟨.ok, [0]⟩ ∧
          (t.current .h1).map Working.phase = some (some .overpolish)) ∧
       (let u := s.setWorking .h1 { record (polishStep endpointRecipe) (some .polish) with opFixed := 0, opPercent := 33 }
        0 + 33 * (u.base .p1).accumulator / 100 = 0 ∧
          ((after (.mark .endpoint [0, 1, 2]) u).seq .h1).results.map ResultRecord.outcome = [.endpoint])) := by
  decide +kernel

/-! ## Counts of the platens and the arms -/

theorem witness_PlatenCounts :
    (3998 + 1 < (working.base .p1).config.cpr ∧ (working.base .p1).config.cpr ≤ 3999 + 1) ∧
    ((gapping 2).headOn .p1 = some .h1 ∧ ((gapping 2).base .p1).stalled = false ∧
      ((gapping 2).polishing .h1).map (fun x => (x.1.phase, x.1.gapRemaining, x.2.2)) = some (some .gap, 2, .p1) ∧
      ((after (.platenCount .p1 .forward) (gapping 2)).current .h1).map Working.gapRemaining = some 1) ∧
    ((pressing recipe .polish 8).gate .p1 = true ∧
      ((pressing recipe .polish 8).base .p1).owner = some ⟨.h1, 10, .counts⟩ ∧
      ((pressing recipe .polish 8).polishing .h1).isSome = true ∧
      ((after (.platenCount .p1 .forward) (pressing recipe .polish 8)).base .p1).accumulator = 9 ∧
      ((after (.platenCount .p1 .forward) (pressing recipe .polish 9)).seq .h1).state = .idle) ∧
    (let s := (pressing recipe .polish 8).modBase .p1 fun b => { b with position := 3999 }
     s.padPressed .p1 = true ∧ ((after (.platenCount .p1 .forward) s).pad .p1).life = 1 ∧
       ((after (.platenCount .p1 .forward) s).base .p1).revolution = 1) ∧
    ((pressing recipe .polish 8).isDown .h1 = true ∧ ((pressing recipe .polish 8).base .p1).position = 0 ∧
      ((pressing recipe .polish 8).seq .h1).stack = [] ∧
      (Activity.step (record (polishStep recipe) (some .polish))).rank < 2 ∧
      ((after (.platenCount .p1 .reverse) (pressing recipe .polish 8)).seq .h1).activity =
        some (.intervention .lift [.platenReverse] none) ∧
      ((after (.platenCount .p1 .reverse) (pressing recipe .polish 8)).base .p1).position = 3999) := by decide +kernel

/-- The platen P1 stands at a position. -/
def turned (n : Nat) : State := working.modBase .p1 fun b => { b with position := n }

theorem witness_IndexPulse :
    after (.indexPulse .p1) (turned 0) = (turned 0).settle ∧
      (2 * 1999 < (working.base .p1).config.cpr ∧ (working.base .p1).config.cpr ≤ 2 * 2000) ∧
      ((after (.indexPulse .p1) (turned 8)).port .recipe).notices = [] ∧
      ((after (.indexPulse .p1) (turned 9)).port .recipe).notices = [.encoderSlip .p1] ∧
      ((after (.indexPulse .p1) (turned 3992)).port .recipe).notices = [] ∧
      ((after (.indexPulse .p1) (turned 3991)).port .recipe).notices = [.encoderSlip .p1] ∧
      ((after (.indexPulse .p1) (turned 1999)).base .p1).revolution = 0 ∧
      ((after (.indexPulse .p1) (turned 2000)).base .p1).revolution = 1 := by decide +kernel

/-- H1 polishes on a REVS clock at the last position, its watch settling. -/
def settling (n : Nat) : State :=
  (amending { endpointRecipe with clock := .revs } .polish 3 ⟨none, none, none⟩).modQual .p1 fun q =>
    { q with state := .settling .h1 n }

theorem witness_IndexPulse_boundary :
    ((settling 1).base .p1).owner = some ⟨.h1, 10, .revs⟩ ∧ (settling 1).headOn .p1 = some .h1 ∧
      (settling 1).gate .p1 = true ∧ ((settling 1).base .p1).accumulator + 1 < 10 ∧
      ((settling 1).polishing .h1).map (fun x => x.1.phase) = some (some .polish) ∧
      (∀ c ∈ [Instr.platenCount .p1 .forward, .indexPulse .p1],
        ((after c (settling 1)).qual .p1).state = .watch .h1 1 ∧
          ((after c (settling 2)).qual .p1).state = .settling .h1 1 ∧
          ((after c (settling 1)).base .p1).accumulator = 4 ∧ ((after c (settling 1)).pad .p1).life = 1 ∧
          ((after c (watched (.watch .h1 0))).qual .p1).state = .watch .h1 0) := by decide +kernel

/-- P1 after a CONDITION_NOW taken while its arm stows at a position. -/
def conditionable (n : Nat) : State := after (.conditionNow .recipe [0, 1]) (armed .stowing .inward n)

theorem witness_ArmCounts :
    (∀ s ∈ [armed .stowed .inward 200, armed .stowing .inward 201, armed (.deploying .exSitu) .inward 1999,
        armed (.sweeping .exSitu) .inward 2001, armed (.sweeping (.inSitu .h1)) .outward 39999, conditioning 39999,
        armed (.suspended .exSitu .sweeping) .outward 65535],
      s.settle = s ∧ ∀ h ∈ headIds, s.polishing h = none) ∧
    ((after (.armCount .p1 .outward) (armed .stowed .inward 200)).cond .p1).arm = .stowing ∧
    ((after (.armCount .p1 .inward) (armed .stowing .inward 201)).cond .p1).arm = .stowed ∧
    ((after (.armCount .p1 .outward) (armed (.deploying .exSitu) .inward 1999)).cond .p1).arm = .sweeping .exSitu ∧
    ((after (.armCount .p1 .inward) (armed (.sweeping .exSitu) .inward 2001)).cond .p1).direction = .outward ∧
    ((after (.armCount .p1 .outward) (armed (.sweeping (.inSitu .h1)) .outward 39998)).disk .p1).used = 0 ∧
    ((after (.armCount .p1 .outward) (armed (.sweeping (.inSitu .h1)) .outward 39999)).disk .p1).used = 1 ∧
    ((after (.armCount .p1 .outward) (conditioning 39999)).cond .p1).sweepsDone = 1 ∧
    satSucc 255 ((conditioning 39999).cond .p1).sweepsDone < ((conditioning 39999).pad .p1).owed ∧
    ((after (.armCount .p1 .outward) (armed (.suspended .exSitu .sweeping) .outward 65535)).cond .p1).position =
      65535 ∧
    ((after (.armCount .p1 .inward) (armed .stowed .inward 0)).cond .p1).position = 0 ∧
    (after (.armCount .p1 .outward) (armed (.deploying .exSitu) .inward 1999)).armOut .p1 =
      ⟨.travel .outward, 4000, 150⟩ ∧
    (after (.armCount .p1 .inward) (armed .stowing .inward 201)).armOut .p1 = ⟨.stop, 0, 0⟩ ∧
    (let t := after (.armCount .p1 .outward) (armed (.deploying (.inSitu .h1)) .inward 39999)
     (t.cond .p1).arm = .sweeping (.inSitu .h1) ∧ (t.cond .p1).direction = .inward ∧ (t.disk .p1).used = 1) := by
  decide +kernel

/-- A sweep begun while the arm stows at exactly I turns outward on entry (R139, R141). -/
theorem test_sweep_entered_at_the_inner_limit :
    (let s := ((conditionable 2000).cond .p1)
     (s.arm, s.direction, s.speedOut, s.forceOut) = (.sweeping .exSitu, .outward, 4000, 150)) ∧
    (let s := ((conditionable 2001).cond .p1)
     (s.arm, s.direction) = (.sweeping .exSitu, .inward)) ∧
    ((conditionable 1999).cond .p1).arm = .deploying .exSitu := by decide +kernel

/-- H1 in KEEPOUT_WAIT at P1, the arm on its way in at a position. -/
def waitingForArm (n : Nat) : State :=
  ((running (standing working .h1 (.platen .p1)) .h1 (record (polishStep recipe) (some .keepoutWait))).modCond .p1
    fun c => { c with arm := .sweeping (.inSitu .h1), direction := .inward, position := n }).settle

theorem witness_KeepoutWaitEnds :
    (waitingForArm 20001).headOn .p1 = some .h1 ∧
      ((waitingForArm 20001).polishing .h1).map (fun x => (x.1.phase, x.2)) = some (some .keepoutWait, recipe, .p1) ∧
      (waitingForArm 20001).isDown .h1 = false ∧ (waitingForArm 20001).trip.tripped = false ∧
      ((waitingForArm 20001).base .p1).stalled = false ∧ ((waitingForArm 20001).base .p1).direction = .forward ∧
      (∀ l ∈ lineIds, ((waitingForArm 20001).line l).wait = []) ∧
      ((waitingForArm 20001).cond .p1).runHeld = false ∧
      ((waitingForArm 20001).cond .p1).position - 1 ≤ ((waitingForArm 20001).base .p1).config.keepOut ∧
      ((after (.armCount .p1 .inward) (waitingForArm 20001)).current .h1).map
        (fun w => (w.phase, w.gapRemaining, w.flags.gapExtended)) = some (some .gap, 1000, true) ∧
      (after (.armCount .p1 .inward) (waitingForArm 20002)).isDown .h1 = false := by decide +kernel

/-! ## Zones, lines, moves -/

/-- H1 pressing with Z1 out of band and its band timer in a state. -/
def outOfBand (b : BandTimer) : State :=
  (pressing recipe .polish 3).modZone .h1 fun z =>
    { z with lift := .down (.polish recipe.zones) b, inBand := (PerZone.all true).set .z1 false }

theorem witness_InBandChange :
    (working.zone .h1).lift = .up ∧ ((pressing recipe .polish 3).zone .h1).lift = .down (.gap 10) ⟨0, false, false⟩ ∧
      (((pressing recipe .polish 3).zone .h1).inBand.set .z1 true).allTrue = true ∧
      ((after (.inBandChange .h1 .ring false) (pressing recipe .polish 3)).zone .h1).lift =
        .down (.gap 10) ⟨0, true, false⟩ ∧
      ((after (.inBandChange .h1 .z1 true) (outOfBand ⟨7, true, false⟩)).zone .h1).lift =
        .down (.polish recipe.zones) ⟨0, false, false⟩ ∧
      ((after (.inBandChange .h1 .z2 false) (outOfBand ⟨2000, false, true⟩)).zone .h1).lift =
        .down (.polish recipe.zones) ⟨2000, false, true⟩ := by decide +kernel

/-- Line L2 FAULTED with a recovery time and a timer, its supply as given. -/
def lineDown (time : Nat) (timer : Option Nat) (supply : Bool) : State :=
  working.setLine .l2 ⟨.slurry, .faulted timer, time, supply, []⟩

theorem witness_SupplyReadyChange :
    (working.line .l2).supplyReady = true ∧
      (((pressing recipe .polish 3).line .l1).state = .bound .p1 .h1 100 ∧
        ((after (.supplyReadyChange .l1 false) (pressing recipe .polish 3)).seq .h1).activity =
          some (.intervention .rinse [.lineFault .l1] none)) ∧
      ((after (.supplyReadyChange .l2 false) working).line .l2).state = .faulted none ∧
      ((after (.supplyReadyChange .l2 false) (lineDown 5000 (some 7) true)).line .l2).state = .faulted none ∧
      (State.reset.line .l2).state = .disabled ∧
      ((after (.supplyReadyChange .l2 true) (lineDown 1 none false)).line .l2).state = .faulted (some 0) ∧
      (∀ h ∈ headIds, (lineDown 0 none false).isRunning h = false) ∧
      ((after (.supplyReadyChange .l2 true) (lineDown 0 none false)).line .l2).state = .idle := by decide +kernel

/-- H1 in RINSE at P1 by the fault of L1, whose recovery timer runs, over its POLISH step. -/
def recovering : State :=
  (intervened .rinse [.lineFault .l1] none [⟨.step (record (polishStep recipe) (some .polish)), none⟩]).setLine .l1
    ⟨.slurry, .faulted (some 4999), 5000, true, []⟩

theorem witness_LineRecovery :
    (recovering.line .l1).state = .faulted (some 4999) ∧ (∀ l ∈ lineIds, (recovering.line l).wait = []) ∧
      (∀ g ∈ headIds, g ≠ .h1 → recovering.isRunning g = false) ∧
      (let w := record (polishStep recipe) (some .polish)
       (recovering.seq .h1).stack = [⟨.step w, none⟩] ∧ w.record.kind = .polish recipe ∧ recipe.line = .line .l1 ∧
         w.platen = some .p1 ∧ w.station = .platen .p1) ∧
      (recovering.carrier .h1).position = .stands (.platen .p1) ∧ (recovering.seq .h1).vacuum = true ∧
      recovering.trip.tripped = false ∧ (recovering.base .p1).stalled = false ∧
      (recovering.base .p1).direction = .forward ∧
      (recovering.cond .p1).position ≤ (recovering.base .p1).config.keepOut ∧
      ((after (.lineRecovery .l1) recovering).current .h1).map (fun w => (w.phase, w.gapRemaining)) =
        some (some .gap, 1000) ∧
      ((after (.lineRecovery .l1) recovering).line .l1).state = .bound .p1 .h1 100 ∧
      ((after (.lineRecovery .l2) (lineDown 5000 (some 3) true)).line .l2).state = .idle ∧
      (∀ h ∈ headIds, (lineDown 5000 (some 3) true).isRunning h = false) := by decide +kernel

theorem witness_LineRecovery_waiters :
    (let s := awaiting (working.setLine .l1 ⟨.slurry, .faulted (some 4999), 5000, true, []⟩) 0
     handing s ∧ (s.line .l1).state = .faulted (some 4999) ∧ handedOn (.lineRecovery .l1) s = toGap) ∧
    (let s := awaiting (working.setLine .l1 ⟨.slurry, .faulted (some 4999), 5000, true, []⟩) 20001
     handing s ∧ handedOn (.lineRecovery .l1) s = toKeepout) ∧
    (let s := awaiting recovering 0
     handing s ∧ (s.seq .h1).activity = some (.intervention .rinse [.lineFault .l1] none) ∧
       (s.carrier .h1).position = .stands (.platen .p1) ∧ (s.seq .h1).vacuum = true ∧
       (s.seq .h1).stack = [⟨.step (record (polishStep recipe) (some .polish)), none⟩] ∧
       (∀ j ∈ headIds, j ≠ .h1 → j ≠ .h2 → s.isRunning j = false) ∧
       handedOn (.lineRecovery .l1) s = { toGap with wait := [.p1] } ∧
       ((after (.lineRecovery .l1) s).current .h1).map Working.phase = some (some .acquireLine)) := by
  decide +kernel

/-- H1 CLOSING(IDLE) from LOAD to RINSE; H2 RUNNING at P2 waits for LOAD. -/
def leaving : State :=
  let s := standing (standing working .h1 .load) .h2 (.platen .p2)
  (((s.modCarrier .h1 fun c => { c with position := .inTransit .load .rinse (.moving 4 20000) }).modSeq .h1 fun q =>
    { q with state := .closing .idle }).modStation .load fun k => { k with wait := [.h2] }).modSeq .h2 fun q =>
    { q with
      state := .running
      activity := some (.step { record (moveStep .load) (some .waitStation) with station := .load, platen := none }) }

/-- H1 in PARK, its move to RINSE on the way. -/
def parking : State :=
  (intervened .park [.holdPark] (some .moving) []).modCarrier .h1 fun c =>
    { c with position := .inTransit (.platen .p1) .rinse (.moving 4 20000) }

theorem witness_MoveDone :
    ((closing.carrier .h1).moveNumber = 9 ∧ (8 : MoveNo) ≠ 9 ∧ (working.carrier .h1).position = .unplaced) ∧
    ((leaving.carrier .h1).position = .inTransit .load .rinse (.moving 4 20000) ∧ .h1 ∉ (leaving.station .load).wait ∧
      (leaving.seq .h1).state = .closing .idle ∧ (leaving.station .load).wait = .h2 :: [] ∧
      leaving.trip.tripped = false ∧
      ((after (.moveDone .h1 0) leaving).station .load).holder = some (.head .h2) ∧
      ((after (.moveDone .h1 0) leaving).carrier .h2).moveNumber = 1 ∧
      ((after (.moveDone .h1 0) leaving).seq .h1).state = .idle) ∧
    ((travelling .halted (.halted .moveFault none)).carrier .h1).position = .inTransit (.platen .p1) .load .halted ∧
    ((after (.moveDone .h1 9) (travelling .halted (.halted .moveFault none))).seq .h1).state =
      .halted .moveFault none ∧
    ((after (.moveDone .h1 9) (travelling (.moving 4 20000) .running)).seq .h1).results.map ResultRecord.outcome =
      [.completed] ∧
    ((after (.moveDone .h1 0) parking).seq .h1).activity = some (.intervention .park [.holdPark] (some .atRinse)) := by
  decide +kernel

/-- H1 leaves P1 for LOAD as given, the pad of P1 with its polish mark set and as f makes it, and H2 waits at RINSE for
P1. -/
def leavingPlaten (s : State) (f : Pad → Pad) : State :=
  (((standing s .h2 .rinse).modPad .p1 fun k => f { k with polishMark := true }).modStation (.platen .p1) fun k =>
    { k with wait := [.h2] }).modSeq .h2 fun q =>
    { q with
      state := .running
      activity := some (.step { record (moveStep (.platen .p1)) (some .waitStation) with
        station := .platen .p1, platen := none }) }

/-- What MOVE_DONE of H1 leaves: P1's holder and waiters, wafers and owed sweeps, H2's position and state. -/
structure Left where
  holder : Option Holder
  wait : List HeadId
  wafers : Nat
  owed : Nat
  waiter : Position
  state : HeadState
  deriving DecidableEq

def left (s : State) : Left :=
  let t := after (.moveDone .h1 (s.carrier .h1).moveNumber) s
  ⟨(t.station (.platen .p1)).holder, (t.station (.platen .p1)).wait, (t.pad .p1).wafers, (t.pad .p1).owed,
    (t.carrier .h2).position, (t.seq .h2).state⟩

theorem witness_MoveDone_platen :
    (let s := leavingPlaten closing id
     s.padLeft .p1 = { s.pad .p1 with wafers := 1, sinceExSitu := 1, polishMark := false } ∧
       .h1 ∉ (s.station (.platen .p1)).wait) ∧
    [left (leavingPlaten closing id), left (tripped (leavingPlaten closing id)),
      left (leavingPlaten (travelling (.moving 4 20000) .running) id),
      left (leavingPlaten (travelling .halted (.halted .moveFault none)) id),
      left (leavingPlaten closing fun k => { k with interval := 1 }),
      left ((leavingPlaten closing fun k => { k with interval := 1 }).setDisk .p1 ⟨3, .spent, 100, 100⟩),
      left (leavingPlaten closing fun k => { k with interval := 2 }),
      left (leavingPlaten closing fun k => { k with state := .retired })] =
      [⟨some (.head .h2), [], 1, 0, .inTransit .rinse (.platen .p1) (.moving 0 20000), .running⟩,
        ⟨some (.head .h2), [], 1, 0, .inTransit .rinse (.platen .p1) .deferred, .running⟩,
        ⟨some (.head .h2), [], 1, 0, .inTransit .rinse (.platen .p1) (.moving 0 20000), .running⟩,
        ⟨some (.head .h2), [], 1, 0, .inTransit .rinse (.platen .p1) (.moving 0 20000), .running⟩,
        ⟨some .conditioner, [.h2], 1, 2, .stands .rinse, .running⟩, ⟨none, [.h2], 1, 2, .stands .rinse, .running⟩,
        ⟨some (.head .h2), [], 1, 0, .inTransit .rinse (.platen .p1) (.moving 0 20000), .running⟩,
        ⟨none, [], 1, 0, .stands .rinse, .halted .stationUnavailable none⟩] ∧
    (let t := after (.moveDone .h1 0) (parking.modPad .p1 fun k => { k with polishMark := true })
     (t.station (.platen .p1)).holder = none ∧ (t.pad .p1).wafers = 1) ∧
    ((travelling (.moving 4 20000) .running).seq .h1).steps.length ≤ 0 + 1 ∧
    ((after (.moveDone .h1 9) (travelling (.moving 4 20000) .running)).seq .h1).state = .idle := by decide +kernel

/-- H1 RUNNING on its way from RINSE to P1 with the step w current, P1 granted to it, the arm of P1 at a position. -/
def movingBack (w : Working) (n : Nat) : State :=
  ((running (standing working .h1 (.platen .p1)) .h1 w).modCarrier .h1 fun c =>
    { c with position := .inTransit .rinse (.platen .p1) (.moving 4 20000), moveNumber := 9 }).modCond .p1 fun c =>
    { c with position := n }

/-- What the MOVE_DONE of a move back leaves: the phase, the gap, the lift, the accumulator, the head's state. -/
structure Back where
  phase : Option Phase
  gap : Nat
  down : Bool
  accrued : Nat
  state : HeadState
  deriving DecidableEq

def movedBack (s : State) : Back :=
  let t := after (.moveDone .h1 9) s
  let w := t.current .h1
  ⟨w.bind Working.phase, (w.map Working.gapRemaining).getD 0, t.isDown .h1, (t.base .p1).accumulator, (t.seq .h1).state⟩

/-- A POLISH step on the line given, suspended with 6 units accrued, moving back. -/
def backTo (l : StepLine) : Working :=
  { record (polishStep { recipe with line := l }) (some .inTransit) with accrued := 6, resume := some .polish }

theorem witness_MoveDone_moveBack :
    (let s := movingBack (backTo .none) 20000
     s.trip.tripped = false ∧ s.isDown .h1 = false ∧ (s.station (.platen .p1)).holder = some (.head .h1) ∧
       (s.base .p1).stalled = false ∧ (s.base .p1).direction = .forward ∧ 0 < recipe.gap ∧ (s.seq .h1).vacuum = true ∧
       (∀ l ∈ lineIds, (s.line l).wait = []) ∧ .h1 ∉ (s.station .rinse).wait ∧
       (backTo .none).station = .platen .p1 ∧ (backTo .none).platen = some .p1 ∧
       movedBack s = ⟨some .gap, 3, true, 6, .running⟩) ∧
    movedBack (movingBack (backTo .none) 20001) = ⟨some .keepoutWait, 0, false, 6, .running⟩ ∧
    (let s := (movingBack (backTo (.line .l1)) 0).setLine .l1 ⟨.slurry, .bound .p2 .h2 5, 5000, true, []⟩
     movedBack s = ⟨some .acquireLine, 0, false, 6, .running⟩ ∧
       ((after (.moveDone .h1 9) s).line .l1).wait = [.p1]) ∧
    movedBack ((movingBack (backTo .none) 0).modSeq .h1 fun q => { q with vacuum := false }) =
      ⟨none, 0, false, 0, .halted (.final .waferLost) none⟩ ∧
    (let s := movingBack { record (dwellStep 40) (some .inTransit) with resume := some .dwell } 0
     (s.seq .h1).state = .running ∧ ((after (.moveDone .h1 9) s).dwelling .h1).isSome = true) := by decide +kernel

/-- A MOVE step that is not the last of its list leaves its station to the next waiter. -/
theorem witness_MoveDone_between_steps :
    (let s := (leavingPlaten (travelling (.moving 4 20000) .running) id).modSeq .h1 fun q =>
        { q with steps := [moveStep .load, dwellStep 5, moveStep .rinse] }
     (∀ x ∈ (s.seq .h1).steps.drop (0 + 1), x.kind ≠ .move (.platen .p1)) ∧
       (∀ g ∈ (s.station (.platen .p1)).wait, (s.polishing g).isNone = true) ∧
       left s = ⟨some (.head .h2), [], 1, 0, .inTransit .rinse (.platen .p1) (.moving 0 20000), .running⟩) := by
  decide +kernel

/-- C1 makes the last sweep of its run, the pad of P1 in a state; H2 waits at RINSE for P1. -/
def lastSweep (x : PadState) : State :=
  ((leavingPlaten (conditioning 39999) id).modPad .p1 fun k => { k with owed := 1, state := x, polishMark := false }).settle

/-- What the end of the run leaves: holder, waiters, arm, pad, disk, H2's position and state. -/
def runOver (c : Instr) (s : State) : Option Holder × List HeadId × ArmState × PadState × Nat :=
  let t := after c s
  ((t.station (.platen .p1)).holder, (t.station (.platen .p1)).wait, (t.cond .p1).arm, (t.pad .p1).state,
    (t.disk .p1).used)

theorem witness_ArmCounts_run :
    (let s := lastSweep .breakIn
     (s.cond .p1).arm = .sweeping .exSitu ∧ (s.cond .p1).direction = .outward ∧ (s.cond .p1).runHeld = true ∧
       (s.cond .p1).outerPosition (s.base .p1).config ≤ satSucc 65535 (s.cond .p1).position ∧
       (s.station (.platen .p1)).holder = some .conditioner ∧
       (s.pad .p1).owed ≤ satSucc 255 (s.cond .p1).sweepsDone) ∧
    runOver (.armCount .p1 .outward) (lastSweep .breakIn) = (some (.head .h2), [], .stowing, .inService, 1) ∧
    runOver (.armCount .p1 .outward) (lastSweep .retired) = (none, [], .stowing, .retired, 1) ∧
    runOver (.armCount .p1 .outward) ((lastSweep .warn).modCond .p1 fun c => { c with arm := .deploying .exSitu }) =
      (some (.head .h2), [], .stowing, .warn, 1) := by decide +kernel

theorem witness_RunCompletes_retired :
    ((lastSweep .retired).seq .h2).state = .running ∧
      runOver (.runComplete .p1) (lastSweep .retired) = (none, [], .stowing, .retired, 0) ∧
      ((after (.runComplete .p1) (lastSweep .retired)).seq .h2).state = .halted .stationUnavailable none := by
  decide +kernel

theorem witness_MoveFaultsAndLimits :
    (travelling .halted .running |>.carrier .h1).position = .inTransit (.platen .p1) .load .halted ∧
      (closing.carrier .h1).position = .inTransit (.platen .p1) .load (.moving 4 20000) ∧
      ((after (.moveFault .h1 9) closing).seq .h1).state = .halted .moveFault (some .idle) ∧
      ((after (.moveLimitExpiry .h1) (travelling (.moving 4 20000) .running)).seq .h1).state =
        .halted .moveFault none ∧
      (closing.carrier .h1).moveNumber ≠ 10 := by decide +kernel

/-! ## The trip and the wafer -/

theorem witness_InterlockTrips :
    let s := pressing recipe .polish 3
    Level.low ≠ s.trip.input ∧ s.trip.tripped = false ∧ s.trip.sense.level = .low ∧ (tripped s).trip.tripped = true ∧
      (s.seq .h1).state = .running ∧ (s.seq .h1).stack = [] ∧ (s.seq .h2).state ≠ .running ∧
      (conditioning 3000).trip.tripped = false ∧ ((conditioning 3000).cond .p1).arm = .sweeping .exSitu ∧
      ((after (.interlockChange .low) (conditioning 3000)).cond .p1).arm = .suspended .exSitu .sweeping ∧
      ((after (.interlockChange .low) s).seq .h1).activity = some (.intervention .trip [.interlock] none) ∧
      (after (.interlockChange .low) s).isDown .h1 = false := by decide +kernel

theorem witness_InterlockTrips_overflow :
    (let t := after (.interlockChange .low) full
     (t.seq .h1).stack = [⟨.intervention .lift [.platenStall], none⟩, ⟨.intervention .rinse [.lineFault .l2], none⟩] ∧
       (t.seq .h1).lost = some ⟨0, 0, 1, ResultFlags.clear, 0, 0, some .p1, .line .l1⟩ ∧
       .contextLost .h1 ∈ (t.port .recipe).notices) ∧
    (let s := (intervened .park [.holdPark] (some .inPlace)
        [⟨.intervention .lift [.holdLift], none⟩, ⟨.intervention .rinse [.holdRinse], none⟩]).modSeq .h1 fun q =>
        { q with lost := (lostStep.seq .h1).lost }
     let t := after (.interlockChange .low) s
     (t.seq .h1).stack = [⟨.intervention .park [.holdPark], none⟩, ⟨.intervention .lift [.holdLift], none⟩] ∧
       (t.seq .h1).lost.map (fun l => (l.index, l.interventions)) = some (2, 2)) := by decide +kernel

theorem witness_VacuumChange :
    let s := pressing recipe .polish 3
    (s.seq .h1).vacuum = true ∧ (s.seq .h1).state = .running ∧ (working.seq .h1).vacuum = false ∧
      ((after (.vacuumChange .h1 false) s).seq .h1).state = .halted (.final .waferLost) none ∧
      ((after (.vacuumChange .h1 false) (travelling (.moving 0 20000) .running)).seq .h1).state =
        .closing (.halted .waferLost) := by decide +kernel

/-! ## Expiries and thresholds -/

theorem witness_BandAndStallExpiries :
    (working.zone .h1).bandRunning = false ∧ ((outOfBand ⟨1999, true, false⟩).zone .h1).bandRunning = true ∧
      ((after (.bandTimeout .h1) (outOfBand ⟨1999, true, false⟩)).seq .h1).activity =
        some (.intervention .lift [.pressureBand] none) ∧
      (working.base .p1).stallTimer = none ∧
      (let s := pressing recipe .polish 3
       (s.base .p1).stallTimer ≠ none ∧ 0 < (s.base .p1).speed ∧ s.isDown .h1 = true ∧ 0 < recipe.speed ∧
         ((after (.stallExpiry .p1) s).seq .h1).activity = some (.intervention .lift [.platenStall] none) ∧
         ((after (.stallExpiry .p1) s).base .p1).stalled = true) ∧
      ((conditioning 3000).station (.platen .p1)).holder = some .conditioner ∧
      ((conditioning 3000).base .p1).stallTimer ≠ none ∧ 0 < ((conditioning 3000).base .p1).speed ∧
      ((conditioning 3000).cond .p1).runHeld = true ∧
      ((after (.stallExpiry .p1) (conditioning 3000)).cond .p1).arm = .suspended .exSitu .sweeping := by decide +kernel

/-- H1 at P1 dwelling. -/
def dwelling : State := running (standing working .h1 (.platen .p1)) .h1 (record (dwellStep 5) (some .dwell))

theorem witness_DwellEnds :
    working.dwelling .h1 = none ∧ (dwelling.seq .h1).state = .running ∧
      (dwelling.seq .h1).activity = some (.step (record (dwellStep 5) (some .dwell))) ∧
      (dwelling.seq .h1).steps.length ≤ (record (dwellStep 5) (some .dwell)).index + 1 ∧
      ((after (.dwellEnd .h1) dwelling).seq .h1).results.map ResultRecord.outcome = [.completed] ∧
      ((after (.dwellEnd .h1) dwelling).seq .h1).state = .idle := by decide +kernel

theorem witness_AccumulatorEnds :
    working.gate .p1 = false ∧
      (let s := pressing recipe .polish 9
       s.gate .p1 = true ∧ (s.base .p1).owner = some ⟨.h1, 10, .counts⟩ ∧ s.ownedPlaten .h1 = some .p1 ∧
         (s.base .p1).accumulator < 10 ∧
         ((after (.accumulatorLimit .p1) s).seq .h1).results.map ResultRecord.outcome = [.completed]) ∧
      ((after (.accumulatorLimit .p1) (pressing endpointRecipe .polish 0)).seq .h1).results.map
        ResultRecord.outcome = [.epMiss] ∧
      ((overpolishing 5).gate .p1 = true ∧ 10 < 6 + 5 ∧ (overpolishing 5).ownedPlaten .h1 = some .p1 ∧
        ((after (.accumulatorLimit .p1) (overpolishing 5)).seq .h1).results.map
          (fun r => (r.outcome, r.overpolish, r.flags.clamped)) = [(.endpoint, 4, true)]) ∧
      ((overpolishing 4).gate .p1 = true ∧ 6 + 4 ≤ 10 ∧
        ((after (.overpolishTargetMet .p1) (overpolishing 4)).seq .h1).results.map
          (fun r => (r.outcome, r.overpolish, r.flags.clamped)) = [(.endpoint, 4, false)]) := by decide +kernel

theorem witness_AccumulatorEnds_line :
    (let s := awaiting (pressing recipe .polish 9) 0
     handing s ∧ s.gate .p1 = true ∧ (s.carrier .h1).position = .stands (.platen .p1) ∧
       handedOn (.accumulatorLimit .p1) s = toGap) ∧
    (let s := awaiting (pressing recipe .polish 9) 20001
     handing s ∧ handedOn (.accumulatorLimit .p1) s = toKeepout) := by
  decide +kernel

theorem witness_GapAndSettleEnds :
    working.polishing .h1 = none ∧
      ((pressing endpointRecipe .gap 0).polishing .h1).map (fun x => (x.1.phase, x.1.confirmed, x.2)) =
        some (some .gap, none, endpointRecipe, .p1) ∧
      ((pressing endpointRecipe .gap 0).zone .h1).lift = .down (.gap 10) ⟨0, false, false⟩ ∧
      ((after (.gapEnd .h1) (pressing endpointRecipe .gap 0)).qual .p1).state = .watch .h1 0 ∧
      ((after (.gapEnd .h1) (pressing { endpointRecipe with settle := 1 } .gap 0)).qual .p1).state = .settling .h1 1 ∧
      ((after (.gapEnd .h1) (pressing recipe .gap 0)).current .h1).map Working.phase = some (some .polish) ∧
      ((watched (.settling .h1 4)).qual .p1).state = .settling .h1 4 ∧
      ((after (.settleEnd .p1) (watched (.settling .h1 4))).qual .p1).state = .watch .h1 0 := by decide +kernel

/-- H2 at LOAD, RUNNING, waits for P1, on which C1 holds its run. -/
def runWaited : State :=
  ((standing (conditioning 150) .h2 .load).modSeq .h2 fun q =>
    { q with
      state := .running
      activity := some (.step { record (moveStep (.platen .p1)) (some .waitStation) with station := .platen .p1 })
    }).modStation (.platen .p1) fun k => { k with wait := [.h2] }

theorem witness_RunCompletes :
    (working.cond .p1).runHeld = false ∧ ((conditioning 201).cond .p1).runHeld = true ∧
      ((conditioning 201).cond .p1).arm = .sweeping .exSitu ∧
      ((conditioning 201).station (.platen .p1)).holder = some .conditioner ∧
      ((conditioning 201).station (.platen .p1)).wait = [] ∧
      ((after (.runComplete .p1) (conditioning 201)).cond .p1).arm = .stowing ∧
      ((after (.runComplete .p1) (conditioning 200)).cond .p1).arm = .stowed ∧
      ((after (.runComplete .p1) (conditioning 201)).station (.platen .p1)).holder = none ∧
      (runWaited.station (.platen .p1)).wait = .h2 :: [] ∧ (runWaited.pad .p1).state = .inService ∧
      runWaited.trip.tripped = false ∧ (runWaited.station (.platen .p1)).holder = some .conditioner ∧
      ((after (.runComplete .p1) runWaited).station (.platen .p1)).holder = some (.head .h2) := by decide +kernel

theorem witness_PadAndDiskLimits :
    let s := pressing recipe .polish 3
    let worn := s.modPad .p1 fun k => { k with state := .warn, life := 1999 }
    s.padPressed .p1 = true ∧ (s.pad .p1).state = .inService ∧ working.padPressed .p1 = false ∧
      ((after (.padWarn .p1) s).pad .p1).state = .warn ∧ ((after (.padWarn .p1) s).pad .p1).life = 1000 ∧
      worn.padPressed .p1 = true ∧ ((after (.padRetired .p1) worn).pad .p1).state = .retired ∧
      ((conditioning 3000).disk .p1).state = .active ∧ ((conditioning 3000).cond .p1).arm.isSweeping = true ∧
      ((after (.diskSpent .p1) (conditioning 3000)).disk .p1) = ⟨3, .spent, 100, 100⟩ ∧
      (working.cond .p1).arm.isSweeping = false := by decide +kernel

/-! ## What the blocks answer and set -/

/-- H1 at LOAD, H2 at P2 awaiting LOAD. -/
def crossed : State :=
  (standing (standing working .h1 .load) .h2 (.platen .p2)).modStation .load fun k => { k with wait := [.h2] }

theorem witness_StationRequests :
    (crossed.acquire .h1 .load).2 = .alreadyHeld ∧ (closing.acquire .h1 .load).2 = .forward ∧
      ((travelling .halted .running).acquire .h1 .load).2 = .forward ∧
      (closing.acquire .h1 (.platen .p1)).2 = .reversed ∧ (closing.acquire .h1 .rinse).2 = .inTransit ∧
      (closed.modCarrier .h1 (fun c => { c with position := .stands .load }) |>.acquire .h1 (.platen .p1)).2 =
        .unavailable ∧
      (crossed.closedTo .rinse = false ∧ (crossed.station .rinse).holder = none ∧
        (crossed.acquire .h1 .rinse).2 = .granted) ∧
      ((crossed.modPad .p1 fun k => { k with owed := 1 }).acquire .h1 (.platen .p1)).2 = .unavailable ∧
      (crossed.closedTo (.platen .p2) = false ∧ (crossed.station (.platen .p2)).holder = some (.head .h2) ∧
        crossed.awaited .h2 = some .load ∧ (crossed.station .load).holder = some (.head .h1) ∧
        (crossed.acquire .h1 (.platen .p2)).2 = .cycle) ∧
      (crossed.awaited .h1 = none ∧ (crossed.acquire .h2 .load).2 = .queued ∧
        ((standing crossed .h3 .rinse).acquire .h3 .load).2 = .queued) ∧
      ((standing (crossed.modStation .load fun k => { k with wait := [.h2, .h3, .h4] }) .h3 .rinse).acquire .h3
        .load).2 = .unavailable ∧
      ((conditioning 200).station (.platen .p1)).holder = some .conditioner := by decide +kernel

theorem witness_StationRequests_lines :
    (let ask (s : State) (resuming : Bool) := (s.acquireLine .l1 .p1 .h1 100 resuming).2
     let with1 (x : LineState) (w : List NozzleId) := working.setLine .l1 ⟨.slurry, x, 5000, true, w⟩
     ask (with1 (.bound .p1 .h1 7) []) false = .bound ∧ ask (with1 .disabled []) true = .unavailable ∧
       ask (with1 .idle []) false = .bound ∧ ask (tripped (with1 .idle [])) false = .queued ∧
       ask (with1 .idle [.p2]) false = .queued ∧ ask (with1 (.bound .p2 .h2 7) []) false = .queued ∧
       ask (with1 (.faulted none) []) true = .faulted ∧ ask (with1 (.faulted (some 3)) [.p3]) false = .queued) := by
  decide +kernel

/-- H1 at LOAD, H2 at P2 awaiting RINSE, H3 at RINSE awaiting LOAD. -/
def ringed : State :=
  ((standing (standing (standing working .h1 .load) .h2 (.platen .p2)) .h3 .rinse).modStation .rinse fun k =>
    { k with wait := [.h2] }).modStation .load fun k => { k with wait := [.h3] }

theorem witness_StationRequests_chain :
    (ringed.station (.platen .p2)).holder = some (.head .h2) ∧ ringed.awaited .h2 = some .rinse ∧
      (ringed.station .rinse).holder = some (.head .h3) ∧ ringed.awaited .h3 = some .load ∧
      (ringed.station .load).holder = some (.head .h1) ∧ ringed.closedTo (.platen .p2) = false ∧
      (ringed.station .rinse).holder ≠ some (.head .h1) ∧ ringed.closesCycle .h1 1 (.platen .p2) = false ∧
      (ringed.acquire .h1 (.platen .p2)).2 = .cycle := by decide +kernel

theorem witness_SpeedSetpoints :
    (∀ s ∈ [pressing recipe .gap 0, conditioning 3000, (tripped working).settle, recovering.settle, parking.settle,
        dwelling.settle, working.settle], s.settle = s) ∧
      ((pressing recipe .gap 0).base .p1).speed = 60 ∧ (pressing recipe .gap 0).isDown .h1 = true ∧
      ((conditioning 3000).base .p1).speed = 60 ∧ ((tripped working).settle.base .p1).speed = 0 ∧
      recovering.settle.headOn .p1 = some .h1 ∧ (recovering.settle.base .p1).speed = 60 ∧
      parking.settle.headOn .p1 = some .h1 ∧ (parking.settle.base .p1).speed = 0 ∧
      dwelling.settle.headOn .p1 = some .h1 ∧ (dwelling.settle.base .p1).speed = 0 ∧
      working.settle.headOn .p1 = none ∧ (waitingForArm 20001).settle = waitingForArm 20001 ∧
      (waitingForArm 20001).isDown .h1 = false ∧ ((waitingForArm 20001).cond .p1).outer = .keepOut ∧
      dwelling.settle.isDown .h1 = false ∧ (dwelling.settle.cond .p1).outer = .outer ∧
      ((pressing recipe .gap 0).cond .p1).outer = .keepOut ∧ (working.settle.cond .p1).outer = .outer := by
  decide +kernel

/-! ## What every step keeps -/

theorem witness_SettledIsKept :
    (pressing recipe .polish 3).settle = pressing recipe .polish 3 ∧ (pressing recipe .polish 3).pending = [] := by
  decide +kernel

theorem witness_TripIsKept : working.TripHolds ∧ working.ClearIsSafe ∧ (tripped working).TripHolds ∧
    (tripped working).ClearIsSafe := by
  refine ⟨fun h => absurd h (by decide +kernel), fun _ => by decide +kernel, fun _ => ⟨fun h => ?_, fun h => ?_, fun l => ?_⟩,
    fun h => absurd h (by decide +kernel)⟩
  · cases h <;> decide +kernel
  · cases h <;> decide +kernel
  · cases l <;> decide +kernel

theorem witness_ListsAndRangesAreKept :
    leaving.NoticesCanonical ∧ leaving.WaitsNodup ∧ leaving.StoresInRange ∧ leaving.ConfigsValid ∧
      leaving.AnglesInRange ∧ leaving.ArmsInRange ∧ leaving.ArmsDriven := by
  refine ⟨fun q => ?_, ⟨fun d => ?_, fun l => ?_⟩, ⟨fun h => ?_, fun d => ?_⟩, fun p => ?_, fun p => ?_, fun p => ?_,
    fun p => ?_⟩
  · unfold PortUnit.canonical
    cases q <;> decide +kernel
  · rcases d with _ | p | _
    · decide +kernel
    · cases p <;> decide +kernel
    · decide +kernel
  · cases l <;> decide +kernel
  · cases h <;> decide +kernel
  · rcases d with _ | p | _
    · decide +kernel
    · cases p <;> decide +kernel
    · decide +kernel
  · cases p <;> decide +kernel
  · cases p <;> decide +kernel
  · cases p <;> decide +kernel
  · cases p <;> exact ⟨rfl, rfl⟩

theorem witness_OnlyItsOwnCommandWrites :
    ∃ t, step { pressing recipe .polish 3 with pending := [.platenCount .p1 .forward] } = .next t ∧
      t.pending = [] ∧ (t.base .p1).position = 1 ∧ (t.base .p2).position = 0 ∧
      (t.zone .h1).inBand = PerZone.all true ∧ (t.seq .h1).steps = [polishStep recipe] :=
  ⟨_, rfl, by decide +kernel⟩

theorem witness_CountersDoNotDecrease :
    ∃ t, step { restarting with pending := [.beat] } = .next t ∧ restarting.beat.counter < t.beat.counter :=
  ⟨_, rfl, by decide +kernel⟩

/-- Every port opens windows in the states of the witnesses. -/
theorem witness_opens :
    ∀ s ∈ [working, State.reset, loaded [], pressing recipe .polish 3, pressing recipe .gap 0, deep, lifted, turnedDown,
        closing, closed, closedOwing, owing, claimed 0 false, tripped working, watched (.watch .h1 0),
        intervened .rinse [.lineFault .l2] none [], intervened .trip [.interlock] none [], full, dry, lostStep,
        atPlaten [] 0, leaving],
      ∀ q ∈ [Port.recipe, .endpoint, .transfer], (s.port q).selectHeld = false := by decide +kernel

end Sys2Proof.Tests
end

section
/-!
PROOFS. LIST_CLEAR (R21), FLAG_SET (R22) and PLACE_HEAD (R15): each is brought to the work it asks of the state once its port,
its length and its names are in order; what is left of the statement is the one condition that work checks.
-/
namespace Sys2Proof.Machine

/-- A request of the Recipe Port, come in on it with a body of its length, is answered as its fields and its state decide. -/
theorem State.takeRequest_recipe {s : State} {b : List Byte} {n : Nat} (o : s.opens .recipe) (len : b.length = n)
    (r : Reply) : s.takeRequest .recipe (Port.isRecipe .recipe) (requireLength b n r) = s.reply .recipe r := by
  rw [Port.isRecipe_recipe, State.takeRequest_of o, requireLength_of len]

/-- A state check that holds, before accepted work. -/
theorem State.reply_require_accept {s t : State} {c : Bool} (h : c = true) (q : Port) (e : Status) :
    s.reply q (require c e (accept t)) = t.accepted q := by
  rw [require_of h, State.reply_accept]

/-- A state check that fails. -/
theorem State.reply_require_not {s : State} {c : Bool} (h : c = false) (q : Port) (e : Status) (r : Reply) :
    s.reply q (require c e r) = s.refusal q e := by
  rw [require_not h, State.reply_error]

/-! ## Conditions and codes -/

theorem HeadState.listOpen_iff {x : HeadState} : x.listOpen = true ↔ x = .unplaced ∨ x = .idle := by
  cases x <;> simp [HeadState.listOpen]

theorem HeadState.listOpen_eq_false_iff {x : HeadState} : x.listOpen = false ↔ x ≠ .unplaced ∧ x ≠ .idle := by
  rw [← Bool.not_eq_true, HeadState.listOpen_iff, not_or]

theorem State.placeable_iff {s : State} {h : HeadId} {d : StationId} :
    s.placeable h d = true ↔ (s.carrier h).position = .unplaced ∧ (s.station d).holder = none ∧
      (s.station d).inService = true ∧ (s.station d).wait = [] := by
  simp [State.placeable, and_assoc]

theorem State.placeable_eq_false_iff {s : State} {h : HeadId} {d : StationId} :
    s.placeable h d = false ↔ (s.carrier h).position ≠ .unplaced ∨ (s.station d).holder ≠ none ∨
      (s.station d).inService = false ∨ (s.station d).wait ≠ [] := by
  rw [← Bool.not_eq_true, State.placeable_iff, not_and_or, not_and_or, not_and_or, Bool.not_eq_true]

theorem boolOf_toNat (v : Bool) : boolOf v.toNat = some v := by
  cases v <;> rfl

/-! ## The three requests past their form checks -/

theorem exec_listClear {s : State} {b : List Byte} {h : HeadId} (o : s.opens .recipe) (len : b.length = 1)
    (head : headOf (le8 b 0) = some h) :
    exec (.listClear .recipe b) s = .next (s.reply .recipe (s.listClear h)) := by
  have arm : exec (.listClear .recipe b) s = execListClear .recipe b s := rfl
  rw [arm, execListClear, State.takeRequest_recipe o len, requireField_of head]

/-- FLAG_SET has no condition of its own: it is accepted in every head state (R22). -/
theorem exec_flagSet {s : State} {b : List Byte} {h : HeadId} {f : UserFlag} {v : Bool} (o : s.opens .recipe)
    (len : b.length = 3) (head : headOf (le8 b 0) = some h) (flag : userFlagOf (le8 b 1) = some f)
    (value : le8 b 2 = v.toNat) :
    exec (.flagSet .recipe b) s = .next ((s.modSeq h fun q => q.setUser f v).accepted .recipe) := by
  have arm : exec (.flagSet .recipe b) s = execFlagSet .recipe b s := rfl
  have val : boolOf (le8 b 2) = some v := by rw [value, boolOf_toNat]
  rw [arm, execFlagSet, State.takeRequest_recipe o len, requireField_of head, requireField_of flag, requireField_of val,
    State.flagSet, State.reply_accept]

theorem exec_placeHead {s : State} {b : List Byte} {h : HeadId} {d : StationId} (o : s.opens .recipe)
    (len : b.length = 2) (head : headOf (le8 b 0) = some h) (station : stationOfCode (le8 b 1) = some d) :
    exec (.placeHead .recipe b) s = .next (s.reply .recipe (s.placeHead h d)) := by
  have arm : exec (.placeHead .recipe b) s = execPlaceHead .recipe b s := rfl
  rw [arm, execPlaceHead, State.takeRequest_recipe o len, requireField_of head, requireField_of station]

/-! ## The statement -/

/-- Settles O8: past the form checks LIST_CLEAR checks that the head's list is open (R21), FLAG_SET nothing (R22), and
PLACE_HEAD the four conditions of R15, which read neither the pad, nor an owed run, nor the trip. -/
theorem listClearFlagSetPlaceHead : Obligations.ListClearFlagSetPlaceHead := by
  refine ⟨fun s b h o head => ⟨fun len unstarted => ?clears, fun len placed busy => ?clearRefused,
      fun v len flag value => ?setsU1, fun v len flag value => ?setsU2⟩,
    fun s b h d o len head station => ⟨fun unplaced free service queue => ?places, fun unfit => ?placeRefused⟩⟩
  case clears =>
    rw [exec_listClear o len head, State.listClear, State.reply_require_accept (HeadState.listOpen_iff.2 unstarted)]
  case clearRefused =>
    rw [exec_listClear o len head, State.listClear,
      State.reply_require_not (HeadState.listOpen_eq_false_iff.2 ⟨placed, busy⟩)]
  case setsU1 => exact exec_flagSet (f := .u1) o len head (by rw [flag]; rfl) value
  case setsU2 => exact exec_flagSet (f := .u2) o len head (by rw [flag]; rfl) value
  case places =>
    rw [exec_placeHead o len head station, State.placeHead,
      State.reply_require_accept (State.placeable_iff.2 ⟨unplaced, free, service, queue⟩), State.setHead]
  case placeRefused =>
    rw [exec_placeHead o len head station, State.placeHead,
      State.reply_require_not (State.placeable_eq_false_iff.2 unfit)]

end Sys2Proof.Machine
end

section
/-!
PROOFS. PLACED and REMOVED (R45): both are one exchange, which asks for a claim and then compares the vacuum sense with the
wafer the report speaks of; the exchange is settled once, for either report and either sense.
-/
namespace Sys2Proof.Machine

/-- A request of the Transfer Port, come in on it with a body of its length, is answered as its fields and its state
decide. -/
theorem State.takeRequest_transfer {s : State} {b : List Byte} {n : Nat} (o : s.opens .transfer) (len : b.length = n)
    (r : Reply) : s.takeRequest .transfer (Port.isTransfer .transfer) (requireLength b n r) = s.reply .transfer r := by
  rw [Port.isTransfer_transfer, State.takeRequest_of o, requireLength_of len]

/-! ## The three answers of an exchange -/

theorem State.reply_exchange_unclaimed {s : State} {h : HeadId} (free : (s.seq h).claim = none) (q : Port)
    (x : ExchangeReport) (wafer : Bool) : s.reply q (s.exchange h x wafer) = s.refusal q .notClaimed := by
  have unheld : (s.seq h).claim.isSome = false := by rw [free]; rfl
  rw [State.exchange, State.reply_require_not unheld]

/-- The new claim record is the same whatever the old one held: its timer restarts even where it had stopped. -/
theorem State.reply_exchange_sensed {s : State} {h : HeadId} {wafer : Bool} (held : (s.seq h).claim ≠ none)
    (sensed : (s.seq h).vacuum = wafer) (q : Port) (x : ExchangeReport) :
    s.reply q (s.exchange h x wafer) =
      (s.modSeq h fun k => { k with claim := some ⟨0, false, x⟩ }).accepted q := by
  rw [State.exchange, require_of (Option.isSome_iff_ne_none.2 held), State.reply_require_accept (decide_eq_true sensed)]

theorem State.reply_exchange_contradicted {s : State} {h : HeadId} {wafer : Bool} (held : (s.seq h).claim ≠ none)
    (contradicted : (s.seq h).vacuum ≠ wafer) (q : Port) (x : ExchangeReport) :
    s.reply q (s.exchange h x wafer) = s.refusal q .wrongState := by
  rw [State.exchange, require_of (Option.isSome_iff_ne_none.2 held),
    State.reply_require_not (decide_eq_false contradicted)]

/-! ## The two requests past their form checks -/

/-- PLACED says that a wafer is there. -/
theorem exec_placed {s : State} {b : List Byte} {h : HeadId} (o : s.opens .transfer) (len : b.length = 1)
    (head : headOf (le8 b 0) = some h) :
    exec (.placed .transfer b) s = .next (s.reply .transfer (s.exchange h .placed true)) := by
  have arm : exec (.placed .transfer b) s = execPlaced .transfer b s := rfl
  rw [arm, execPlaced, State.takeRequest_transfer o len, requireField_of head]

/-- REMOVED says that none is. -/
theorem exec_removed {s : State} {b : List Byte} {h : HeadId} (o : s.opens .transfer) (len : b.length = 1)
    (head : headOf (le8 b 0) = some h) :
    exec (.removed .transfer b) s = .next (s.reply .transfer (s.exchange h .removed false)) := by
  have arm : exec (.removed .transfer b) s = execRemoved .transfer b s := rfl
  rw [arm, execRemoved, State.takeRequest_transfer o len, requireField_of head]

/-! ## The statement -/

/-- Settles O32: without a claim both exchanges are refused; with one, the vacuum sense agrees with exactly one of the two
reports, which is stored, and contradicts the other (R45). -/
theorem placedAndRemoved : Obligations.PlacedAndRemoved := by
  intro s b h o len head
  rw [exec_placed o len head, exec_removed o len head]
  refine ⟨fun free => ?unclaimed, fun held wafer => ?waferSensed, fun held noWafer => ?noneSensed⟩
  case unclaimed =>
    rw [State.reply_exchange_unclaimed free, State.reply_exchange_unclaimed free]
    exact ⟨rfl, rfl⟩
  case waferSensed =>
    rw [State.reply_exchange_sensed held wafer, State.reply_exchange_contradicted held (by rw [wafer]; decide)]
    exact ⟨rfl, rfl⟩
  case noneSensed =>
    rw [State.reply_exchange_sensed held noWafer, State.reply_exchange_contradicted held (by rw [noWafer]; decide)]
    exact ⟨rfl, rfl⟩

end Sys2Proof.Machine
end

section
/-!
PROOFS. The classification of a mark (R102) and what a mark taken by its state counts (R103, R104): one lemma per case of the
two rules, the cases of each rule then put together in its order.
-/
namespace Sys2Proof.Machine

/-! ## The classification, case by case -/

section
variable {q : Qualifier} {counter : Rev} {rev : Byte} {h : HeadId} {start : Rev}

/-- The revolution that a mark names (R101), the delta taken as a number. -/
def markRevolution (counter : Rev) (rev : Byte) : Rev := counter - BitVec.ofNat 32 (markDelta counter rev).toNat

theorem sub_markDelta (counter : Rev) (rev : Byte) :
    counter - (markDelta counter rev).setWidth 32 = markRevolution counter rev := by
  rw [markRevolution, BitVec.ofNat_toNat]

/-- IDLE comes first, whatever the delta. -/
theorem Qualifier.mark_idle (idle : q.state = .idle) (k : MarkKind) (number : Nat) :
    q.mark counter rev k number = ⟨{ q with unexpected := satSucc 65535 q.unexpected }, .unexpected, false⟩ := by
  simp only [Qualifier.mark, idle, Config.max16]

/-- A delta of 2 or more is late in each of the three states out of IDLE, whose own cases are not asked. -/
theorem Qualifier.mark_late (busy : q.state ≠ .idle) (old : 2 ≤ (markDelta counter rev).toNat) (k : MarkKind)
    (number : Nat) : q.mark counter rev k number = ⟨{ q with late := satSucc 65535 q.late }, .late, false⟩ := by
  cases state : q.state with
  | idle => exact absurd state busy
  | settling h n => simp only [Qualifier.mark, state, if_pos old, Config.max16]
  | watch h start => simp only [Qualifier.mark, state, if_pos old, Config.max16]
  | confirm h start n => simp only [Qualifier.mark, state, if_pos old, Config.max16]

theorem Qualifier.mark_settling {n : Nat} (settling : q.state = .settling h n)
    (recent : (markDelta counter rev).toNat < 2) (k : MarkKind) (number : Nat) :
    q.mark counter rev k number = ⟨{ q with ignored := satSucc 65535 q.ignored }, .ignored, false⟩ := by
  simp only [Qualifier.mark, settling, if_neg (Nat.not_le.2 recent), Config.max16]

/-- A mark that is not late, at a qualifier in WATCH: its revolution is compared with the watch's first. -/
theorem Qualifier.mark_watch (watch : q.state = .watch h start) (recent : (markDelta counter rev).toNat < 2)
    (k : MarkKind) (number : Nat) :
    q.mark counter rev k number =
      if revNotBefore (markRevolution counter rev) start then
        q.markInWatch h start (markRevolution counter rev) k number
      else ⟨{ q with ignored := satSucc 65535 q.ignored }, .ignored, false⟩ := by
  simp only [Qualifier.mark, watch, if_neg (Nat.not_le.2 recent), sub_markDelta, Config.max16]

/-- The same in CONFIRM, where the mark is then compared with the last counted revolution. -/
theorem Qualifier.mark_confirm {n : Nat} (confirm : q.state = .confirm h start n)
    (recent : (markDelta counter rev).toNat < 2) (k : MarkKind) (number : Nat) :
    q.mark counter rev k number =
      if revNotBefore (markRevolution counter rev) start then
        q.markInConfirm h start n (q.lastCounted.getD (markRevolution counter rev - 1)) (markRevolution counter rev) k
          number
      else ⟨{ q with ignored := satSucc 65535 q.ignored }, .ignored, false⟩ := by
  simp only [Qualifier.mark, confirm, if_neg (Nat.not_le.2 recent), sub_markDelta, Config.max16]

end

/-- Settles O34: IDLE, then late, then settling, then the mark's revolution against the start of the watch; a mark that
passes them all is the state's own (R102). -/
theorem marksAreClassified : Obligations.MarksAreClassified := by
  intro q counter rev k number delta taken
  refine ⟨fun idle => ?idle, fun busy old => ?late, fun h n settling recent => ?settling,
    fun h start counting recent early => ?beforeTheWatch, fun h start watch recent inTime => ?takenInWatch,
    fun h start n l confirm last recent inTime => ?takenInConfirm⟩
  case idle => exact Qualifier.mark_idle idle k number
  case late => exact Qualifier.mark_late busy old k number
  case settling => exact Qualifier.mark_settling settling recent k number
  case beforeTheWatch =>
    obtain watch | ⟨n, confirm⟩ := counting
    · exact (Qualifier.mark_watch watch recent k number).trans (if_neg (ne_true_of_eq_false early))
    · exact (Qualifier.mark_confirm confirm recent k number).trans (if_neg (ne_true_of_eq_false early))
  case takenInWatch => exact (Qualifier.mark_watch watch recent k number).trans (if_pos inTime)
  case takenInConfirm =>
    have taken_eq := (Qualifier.mark_confirm confirm recent k number).trans (if_pos inTime)
    rwa [last, Option.getD_some] at taken_eq

/-! ## A mark taken by its state -/

/-- The revolution after l counts as later than l at every l, the counter's wrap included. -/
theorem revNotBefore_succ (l : Rev) : revNotBefore (l + 1) l = true := by
  have one : l + 1 - l = 1 := by rw [add_sub_cancel_left]
  rw [revNotBefore, one]
  rfl

section
variable {k : MarkKind}

/-- CLEARING and CLEARED count alike in WATCH (R103). -/
theorem Qualifier.markInWatch_clearing (clearing : k ≠ .film) (q : Qualifier) (h : HeadId) (start m : Rev)
    (number : Nat) : q.markInWatch h start m k number = q.count h start 1 m k number := by
  cases k with
  | film => exact absurd rfl clearing
  | clearing => rfl
  | cleared => rfl

/-- CLEARING and CLEARED count alike in CONFIRM (R104). -/
theorem Qualifier.markInConfirm_clearing (clearing : k ≠ .film) (q : Qualifier) (h : HeadId) (start : Rev) (n : Nat)
    (l m : Rev) (number : Nat) :
    q.markInConfirm h start n l m k number =
      if m = l ∨ revNotBefore m l = false then q.duplicated
      else if m = l + 1 then q.count h start (n + 1) m k number
      else q.count h start 1 m k number := by
  cases k with
  | film => exact absurd rfl clearing
  | clearing => rfl
  | cleared => rfl

end

theorem Qualifier.markInConfirm_film (q : Qualifier) (h : HeadId) (start : Rev) (n : Nat) (l m : Rev) (number : Nat) :
    q.markInConfirm h start n l m .film number =
      if revNotBefore m l then q.relocked h start else q.duplicated := rfl

/-- Settles O35: a clearing mark in WATCH begins a run; in CONFIRM it is a duplicate, the next of the run or the first of a
new one, as its revolution is l or earlier, the one after l, or a later one; FILM ends the run unless it is older than l
(R103, R104). -/
theorem marksCountRevolutions : Obligations.MarksCountRevolutions := by
  intro q h start m l n number
  refine ⟨rfl, fun k clearing => ⟨?begins, fun notLater => ?duplicate, fun next => ?next, fun other gap later => ?again⟩,
    fun later => ?relock, fun earlier => ?staleFilm⟩
  case begins => exact Qualifier.markInWatch_clearing clearing q h start m number
  case duplicate => exact (Qualifier.markInConfirm_clearing clearing ..).trans (if_pos notLater)
  case next =>
    subst next
    have later : ¬(l + 1 = l ∨ revNotBefore (l + 1) l = false) :=
      not_or.2 ⟨add_ne_left.2 (by decide), ne_false_of_eq_true (revNotBefore_succ l)⟩
    rw [Qualifier.markInConfirm_clearing clearing, if_neg later, if_pos rfl, Qualifier.count]
  case again =>
    have beyond : ¬(m = l ∨ revNotBefore m l = false) := not_or.2 ⟨other, ne_false_of_eq_true later⟩
    rw [Qualifier.markInConfirm_clearing clearing, if_neg beyond, if_neg gap, Qualifier.count]
  case relock => exact (Qualifier.markInConfirm_film ..).trans (if_pos later)
  case staleFilm => exact (Qualifier.markInConfirm_film ..).trans (if_neg (ne_true_of_eq_false earlier))

end Sys2Proof.Machine
end

section
/-!
PROOFS. PAD_INSTALL (R158), PAD_RESTORE (R159) and DISK_INSTALL (R160): each form check is reduced to the bounds that a body
can miss, since the bytes of a field bound it from above; past its form each of the three asks only that the platen is OUT of
service.
-/
namespace Sys2Proof.Machine

/-! ## The range checks of the three requests -/

theorem inRange_iff {lo hi n : Nat} : inRange lo hi n = true ↔ lo ≤ n ∧ n ≤ hi := by
  simp only [inRange, Bool.and_eq_true, decide_eq_true_eq]

section
variable (b : List Byte) (i : Nat)

theorem le8_lt : le8 b i < 256 := (b.getD i 0).isLt

theorem le16_lt : le16 b i < 65536 := by
  have low := le8_lt b i
  have high := le8_lt b (i + 1)
  unfold le16
  omega

theorem le32_lt : le32 b i < 4294967296 := by
  have low := le16_lt b i
  have high := le16_lt b (i + 2)
  unfold le32
  omega

end

section
variable {b : List Byte} {i j : Nat}

/-- A byte with the range 1 to 255 is refused at 0 alone. -/
theorem inRange_le8_iff : inRange 1 255 (le8 b i) = true ↔ 1 ≤ le8 b i := by
  have below := le8_lt b i
  rw [inRange_iff]
  omega

/-- The bounds that R153 gives the two limits from above follow from their order and their four bytes. -/
theorem limitsValid_le32_iff :
    limitsValid (le32 b i) (le32 b j) = true ↔ 1 ≤ le32 b i ∧ le32 b i < le32 b j := by
  have below := le32_lt b j
  simp only [limitsValid, Bool.and_eq_true, inRange_iff, decide_eq_true_eq]
  omega

end

/-- The form of a PAD_INSTALL body (R158). -/
theorem installValid_iff {b : List Byte} :
    (limitsValid (le32 b 5) (le32 b 9) && inRange 1 255 (le8 b 14)) = true ↔
      1 ≤ le32 b 5 ∧ le32 b 5 < le32 b 9 ∧ 1 ≤ le8 b 14 := by
  rw [Bool.and_eq_true, limitsValid_le32_iff, inRange_le8_iff, and_assoc]

/-- The form of a PAD_RESTORE body whose state is named (R159). -/
theorem restoreValid_iff {g : PadState} {b : List Byte} :
    restoreValid g b = true ↔
      1 ≤ le32 b 10 ∧ le32 b 10 < le32 b 14 ∧ 1 ≤ le8 b 25 ∧ (g = .breakIn → 1 ≤ le8 b 27) := by
  have owed : (!decide (g = .breakIn) || decide (0 < le8 b 27)) = true ↔ (g = .breakIn → 1 ≤ le8 b 27) := by
    rw [Bool.or_eq_true, Bool.not_eq_true', decide_eq_false_iff_not, decide_eq_true_eq, ← imp_iff_not_or]
    rfl
  rw [restoreValid, Bool.and_eq_true, Bool.and_eq_true, limitsValid_le32_iff, inRange_le8_iff, owed, and_assoc, and_assoc]

/-! ## The state of a restored pad -/

theorem padStateOf_eq_none_iff {n : Nat} : padStateOf n = none ↔ n = 0 ∨ 5 ≤ n := by
  match n with
  | 0 | 1 | 2 | 3 | 4 | n + 5 => simp [padStateOf]

/-- Between the two limits a restore changes IN_SERVICE to WARN and keeps every other state (R159). -/
theorem restoredState_eq (g : PadState) (life warn retire : Nat) :
    restoredState g life warn retire =
      if retire ≤ life then .retired else if warn ≤ life ∧ g = .inService then .warn else g := by
  by_cases worn : warn ≤ life
  · cases g <;> simp [restoredState, worn]
  · simp only [restoredState, worn, false_and, if_false]

/-! ## A record replaced while its platen is OUT of service -/

/-- Past its form, a request that replaces a record of a platen is accepted or refused by the platen's service alone. -/
theorem exec_replace {i : Instr} {q : Port} {s t : State} {p : PlatenId} {c : Bool}
    (asks : exec i s = .next (s.reply q
      (require c .outOfRange (require (!(s.station (.platen p)).inService) .wrongState (accept t)))))
    (form : c = true) :
    ((s.station (.platen p)).inService = false → exec i s = .next (t.accepted q)) ∧
      ((s.station (.platen p)).inService = true → exec i s = .next (s.refusal q .wrongState)) := by
  rw [asks, require_of form]
  refine ⟨fun out => ?accepted, fun inn => ?refused⟩
  case accepted => rw [State.reply_require_accept (by rw [out]; rfl)]
  case refused => rw [State.reply_require_not (by rw [inn]; rfl)]

/-! ## The three requests past their length and their platen -/

section
variable {s : State} {b : List Byte} {p : PlatenId}

theorem exec_padInstall (o : s.opens .recipe) (len : b.length = 16) (platen : platenOfCode (le8 b 0) = some p) :
    exec (.padInstall .recipe b) s = .next (s.reply .recipe
      (require (limitsValid (le32 b 5) (le32 b 9) && inRange 1 255 (le8 b 14)) .outOfRange
        (s.padInstall p (installedPad b)))) := by
  have arm : exec (.padInstall .recipe b) s = execPadInstall .recipe b s := rfl
  rw [arm, execPadInstall, State.takeRequest_recipe o len, requireField_of platen]

theorem exec_padRestore {g : PadState} (o : s.opens .recipe) (len : b.length = 28)
    (platen : platenOfCode (le8 b 0) = some p) (named : padStateOf (le8 b 5) = some g) :
    exec (.padRestore .recipe b) s = .next (s.reply .recipe
      (require (restoreValid g b) .outOfRange (s.padRestore p (restoredPad g b)))) := by
  have arm : exec (.padRestore .recipe b) s = execPadRestore .recipe b s := rfl
  rw [arm, execPadRestore, State.takeRequest_recipe o len, requireField_of platen, requireField_of named]

theorem exec_padRestore_unnamed (o : s.opens .recipe) (len : b.length = 28)
    (platen : platenOfCode (le8 b 0) = some p) (unnamed : padStateOf (le8 b 5) = none) :
    exec (.padRestore .recipe b) s = .next (s.refusal .recipe .outOfRange) := by
  have arm : exec (.padRestore .recipe b) s = execPadRestore .recipe b s := rfl
  rw [arm, execPadRestore, State.takeRequest_recipe o len, requireField_of platen, requireField_not unnamed,
    State.reply_error]

theorem exec_diskInstall (o : s.opens .recipe) (len : b.length = 9) (platen : platenOfCode (le8 b 0) = some p) :
    exec (.diskInstall .recipe b) s = .next (s.reply .recipe
      (require (inRange 1 4000000 (le32 b 5)) .outOfRange (s.diskInstall p (le32 b 1) (le32 b 5)))) := by
  have arm : exec (.diskInstall .recipe b) s = execDiskInstall .recipe b s := rfl
  rw [arm, execDiskInstall, State.takeRequest_recipe o len, requireField_of platen]

/-- A PAD_RESTORE outside its ranges is refused, by the first check where its state code names no state and by the second
where it names one. -/
theorem exec_padRestore_outOfRange (o : s.opens .recipe) (len : b.length = 28)
    (platen : platenOfCode (le8 b 0) = some p)
    (bad : le8 b 5 = 0 ∨ 5 ≤ le8 b 5 ∨ le32 b 10 = 0 ∨ le32 b 14 ≤ le32 b 10 ∨ le8 b 25 = 0 ∨
      (le8 b 5 = 1 ∧ le8 b 27 = 0)) :
    exec (.padRestore .recipe b) s = .next (s.refusal .recipe .outOfRange) := by
  cases named : padStateOf (le8 b 5) with
  | none => exact exec_padRestore_unnamed o len platen named
  | some g =>
    have code : ¬(le8 b 5 = 0 ∨ 5 ≤ le8 b 5) := by
      rw [← padStateOf_eq_none_iff, named]
      exact Option.some_ne_none g
    have invalid : restoreValid g b = false := by
      refine Bool.eq_false_iff.2 fun valid => ?_
      obtain ⟨warn, retire, sweeps, owed⟩ := restoreValid_iff.1 valid
      obtain ⟨one, none_owed⟩ : le8 b 5 = 1 ∧ le8 b 27 = 0 := by omega
      have breakIn : g = .breakIn := by
        rw [one] at named
        exact (Option.some.inj named).symm
      exact Nat.ne_of_gt (owed breakIn) none_owed
    rw [exec_padRestore o len platen named, State.reply_require_not invalid]

end

/-! ## The statement -/

/-- Settles O21: each request is refused for its form first, then for a platen IN service; otherwise it replaces the one
record of its platen (R158, R159, R160). -/
theorem padAndDiskRecords : Obligations.PadAndDiskRecords := by
  refine fun s b p o platen => ⟨fun len => ⟨fun warn retire sweeps => ?install, fun bad => ?installRefused⟩,
    fun len => ⟨fun g named warn retire sweeps owed => ?restore, exec_padRestore_outOfRange o len platen⟩,
    fun len => ⟨fun low high => ?disk, fun bad => ?diskRefused⟩⟩
  case install => exact exec_replace (exec_padInstall o len platen) (installValid_iff.2 ⟨warn, retire, sweeps⟩)
  case installRefused =>
    have invalid : (limitsValid (le32 b 5) (le32 b 9) && inRange 1 255 (le8 b 14)) = false := by
      rw [Bool.eq_false_iff, Ne, installValid_iff]
      omega
    rw [exec_padInstall o len platen, State.reply_require_not invalid]
  case restore =>
    rw [← restoredState_eq]
    exact exec_replace (exec_padRestore o len platen named) (restoreValid_iff.2 ⟨warn, retire, sweeps, owed⟩)
  case disk => exact exec_replace (exec_diskInstall o len platen) (inRange_iff.2 ⟨low, high⟩)
  case diskRefused =>
    have invalid : inRange 1 4000000 (le32 b 5) = false := by
      rw [Bool.eq_false_iff, Ne, inRange_iff]
      omega
    rw [exec_diskInstall o len platen, State.reply_require_not invalid]

end Sys2Proof.Machine
end

section
/-!
PROOFS. NOTICE_READ (R170): the catalogue of each port ascends by the codes of its notices, and a canonical pending set is a
sublist of it, so it ascends and is no longer; the body has one count byte and two bytes for each notice.
-/
namespace Sys2Proof.Machine

/-! ## The catalogue and the pending sets -/

/-- Kind code and object code, the two numbers of a notice's pair (R170). -/
def Notice.codes (q : Port) (n : Notice) : Nat × Nat := ((n.kind q).getD 0, n.object)

/-- Each notice of the catalogue comes before the next one by kind code, or by object code within a kind; the order of the
pairs is transitive, so this says it of any two. -/
theorem catalogue_codes_ascend (q : Port) :
    ((catalogue q).map (Notice.codes q)).Pairwise (Prod.Lex (· < ·) (· < ·)) := by
  have neighbours : ((catalogue q).map (Notice.codes q)).IsChain (Prod.Lex (· < ·) (· < ·)) := by
    cases q <;> decide
  exact neighbours.pairwise

theorem catalogue_recipe_length : (catalogue .recipe).length = 51 := rfl

/-- The Recipe Port has the longest catalogue. -/
theorem catalogue_length_le (q : Port) : (catalogue q).length ≤ 51 := by
  cases q <;> decide

theorem PortUnit.canonical.sublist {q : Port} {u : PortUnit} (c : u.canonical q) : u.notices.Sublist (catalogue q) :=
  calc
    u.notices = (catalogue q).filter fun n => u.notices.contains n := c
    List.Sublist _ (catalogue q) := List.filter_sublist

theorem PortUnit.canonical.codes_ascend {q : Port} {u : PortUnit} (c : u.canonical q) :
    (u.notices.map (Notice.codes q)).Pairwise (Prod.Lex (· < ·) (· < ·)) :=
  (catalogue_codes_ascend q).sublist (c.sublist.map _)

/-! ## The body -/

theorem flatten_putNotice_length (q : Port) (ns : List Notice) :
    (ns.map (putNotice q)).flatten.length = 2 * ns.length := by
  induction ns with
  | nil => rfl
  | cons n rest ih =>
    have pair : (putNotice q n).length = 2 := rfl
    rw [List.map_cons, List.flatten_cons, List.length_append, pair, ih, List.length_cons]
    omega

theorem PortUnit.noticeRead_length (u : PortUnit) (q : Port) : (u.noticeRead q).length = 1 + 2 * u.notices.length := by
  have count : (put8 (u.notices.map (putNotice q)).length).length = 1 := rfl
  rw [PortUnit.noticeRead, putList, List.length_append, count, flatten_putNotice_length]

theorem PortUnit.canonical.noticeRead_length_le {q : Port} {u : PortUnit} (c : u.canonical q) :
    (u.noticeRead q).length ≤ 103 := by
  have pending := c.sublist.length_le
  have notices := catalogue_length_le q
  rw [PortUnit.noticeRead_length]
  omega

/-- NOTICE_READ is permitted on every port and has no condition of its own (R170). -/
theorem exec_noticeRead {s : State} {q : Port} (o : s.opens q) :
    exec (.noticeRead q []) s = .next (s.respond q .ok ((s.port q).noticeRead q)) := by
  have arm : exec (.noticeRead q []) s = execNoticeRead q [] s := rfl
  rw [arm, execNoticeRead, State.takeRequest_of o, requireLength_of List.length_nil, State.reply_answer]

/-! ## The statement -/

/-- Settles O23: the answer is the port's pending set with its count, the order is that of the catalogue, and the Recipe
Port's 51 notices make the longest body (R170). -/
theorem noticeRead : Obligations.NoticeRead := by
  refine fun s q o => ⟨?answers, fun c => ⟨?ascends, c.noticeRead_length_le⟩, fun u full => ?longest⟩
  case answers =>
    rw [exec_noticeRead o, PortUnit.noticeRead, putList, List.length_map]
    rfl
  case ascends => exact c.codes_ascend.imp Prod.lex_iff.1
  case longest => rw [PortUnit.noticeRead_length, full, catalogue_recipe_length]

end Sys2Proof.Machine
end

section
/-!
PROOFS. What a step keeps, said once over Laws/Reach.lean: a relation that holds of every command's own writes, of every cascade,
of a response and of a change of the queue holds from the state before a step to the state after it. The frame of the commands,
the counters and the invariants of the part are instances.
-/
namespace Sys2Proof.Machine

/-- The commands whose own writes a step may make: the command at the front of the queue, or, in an idle millisecond, what
the row of a line's recovery and the row of a beat write. -/
def State.Acts (s : State) (c : Instr) : Prop :=
  s.pending.head? = some c ∨ s.pending = [] ∧ (c = .beat ∨ ∃ l, c = .lineRecovery l)

/-- A relation that a step's parts all lie in. -/
structure StepClosed (acts : Instr → Prop) (R : State → State → Prop) : Prop where
  trans : ∀ {s t u}, R s t → R t u → R s u
  cascade : ∀ {s t}, Cascade s t → R s t
  answered : ∀ {s t}, Answered s t → R s t
  queue : ∀ s rest, R s { s with pending := rest }
  interval : ∀ s n, R s (s.setBeat { s.beat with interval := n })
  own : ∀ {c}, acts c → ∀ {s v}, c.Own s v → R s v

theorem StepClosed.drift {acts : Instr → Prop} {R : State → State → Prop} (k : StepClosed acts R)
    (lines : ∀ l, acts (.lineRecovery l)) {s t : State} (d : Drift s t) : R s t := by
  induction d with
  | cascade c => exact k.cascade c
  | line fed ready => exact k.own (lines _) (.inr ⟨_, fed, ready, rfl⟩)
  | trans _ _ first second => exact k.trans first second

/-- The two ways of a step: one millisecond, or the command at the front of the queue. -/
theorem step_cases {s t : State} (h : step s = .next t) :
    (s.pending = [] ∧ t = s.tick) ∨
      ∃ c rest, s.pending = c :: rest ∧ exec c { s with pending := rest } = .next t := by
  unfold step at h
  split at h
  · next idle => injection h with e; exact .inl ⟨idle, e.symm⟩
  · next c rest front => exact .inr ⟨c, rest, front, h⟩

/-- A step lies in every relation that its parts lie in. -/
theorem StepClosed.step {s t : State} {R : State → State → Prop} (k : StepClosed s.Acts R) (h : step s = .next t) :
    R s t := by
  obtain ⟨idle, rfl⟩ | ⟨c, rest, front, run⟩ := step_cases h
  · obtain ⟨u, v, w, drift, rfl, beat, last⟩ := s.tick_reaches
    have timers : R s u := k.drift (fun l => .inr ⟨idle, .inr ⟨l, rfl⟩⟩) drift
    exact k.trans (k.trans (k.trans timers (k.interval u _)) (k.own (.inr ⟨idle, .inl rfl⟩) beat)) (k.cascade last)
  · obtain ⟨v, u, own, inner, response⟩ := Instr.exec_reaches c _ t run
    have acts : s.Acts c := .inl (by rw [front]; rfl)
    exact k.trans (k.trans (k.trans (k.queue s rest) (k.own acts own)) (k.cascade inner)) (k.answered response)

end Sys2Proof.Machine
end

section
/-!
PROOFS. What the trip holds (R128) is kept: cascades start nothing while the module is tripped, the trip check makes a trip where
one is due and leaves the module at rest, and no command's own write lifts, moves or binds anything.
-/
namespace Sys2Proof.Machine

theorem State.isDown_eq_false_iff {s : State} {h : HeadId} : s.isDown h = false ↔ (s.zone h).lift = .up := by
  unfold State.isDown
  split <;> simp_all

/-- What the trip holds, and that a module at the trip level is tripped. -/
def State.TripSafe (s : State) : Prop := s.TripHolds ∧ s.ClearIsSafe

/-- A state that starts nothing of its own stays safe. -/
theorem State.TripSafe.of {s t : State} (safe : s.TripSafe) (tripped : t.trip.tripped = s.trip.tripped := by rfl)
    (level : t.trip.atLevel = s.trip.atLevel := by rfl)
    (down : s.trip.tripped = true → ∀ h, s.isDown h = false → t.isDown h = false := by exact fun _ _ => id)
    (still : s.trip.tripped = true → ∀ h, (s.carrier h).position.isMoving = false →
      (t.carrier h).position.isMoving = false := by exact fun _ _ => id)
    (unbound : s.trip.tripped = true → ∀ l, (s.line l).pumpOn = false → (t.line l).pumpOn = false := by
      exact fun _ _ => id) : t.TripSafe := by
  obtain ⟨holds, clear⟩ := safe
  refine ⟨fun trip => ?_, fun trip => ?_⟩
  · rw [tripped] at trip
    obtain ⟨up, rest, dry⟩ := holds trip
    exact ⟨fun h => down trip h (up h), fun h => still trip h (rest h), fun l => unbound trip l (dry l)⟩
  · rw [tripped] at trip
    rw [level]
    exact clear trip

theorem State.TripSafe.cascade {s t : State} (c : Cascade s t) (safe : s.TripSafe) : t.TripSafe :=
  .of safe (by rw [c.trip]) (by rw [c.trip])
    (fun trip h up => State.isDown_eq_false_iff.2 ((c.zone h).up trip (State.isDown_eq_false_iff.1 up)))
    (fun trip h => (c.carrier h).still trip) (fun trip l => (c.line l).unbound trip)

/-- The trip check leaves a module safe whose trip state alone may not be due (R129). -/
theorem State.TripSafe.checkTrip {s : State} (holds : s.TripHolds) : s.checkTrip.TripSafe := by
  refine ⟨?_, fun clear => ?_⟩
  · unfold State.checkTrip
    split
    · exact s.tripHolds_tripModule
    · exact holds
  · rw [State.trip_checkTrip] at clear ⊢
    exact (Bool.or_eq_false_iff.1 clear).2

theorem State.TripSafe.answered {s t : State} (a : Answered s t) (safe : s.TripSafe) : t.TripSafe := by
  rw [a.same]
  exact .of safe

theorem Line.pumpOn_configure (k : Line) (c : LineClass) (n : Nat) (free : k.busy = false) :
    (k.configure c n).pumpOn = false := by
  have dry : k.pumpOn = false := (Bool.or_eq_false_iff.1 free).1
  unfold Line.configure Line.pumpOn
  cases e : k.state with
  | bound m g f => simp [Line.pumpOn, e] at dry
  | disabled => cases c <;> cases k.supplyReady <;> rfl
  | idle => cases c <;> rfl
  | faulted t => cases c <;> rfl

theorem State.carrier_warmRestart (s : State) (h : HeadId) : s.warmRestart.carrier h = (s.carrier h).restart := by
  cases h <;> rfl

theorem State.zone_warmRestart (s : State) (h : HeadId) : s.warmRestart.zone h = { s.zone h with lift := .up } := by
  cases h <;> rfl

theorem State.line_warmRestart (s : State) (l : LineId) : s.warmRestart.line l = (s.line l).restart := by
  cases l <;> rfl

theorem Carrier.restart_still (c : Carrier) : c.restart.position.isMoving = false := by
  unfold Carrier.restart
  split
  · rfl
  · next e =>
    cases p : c.position with
    | inTransit o d st => exact absurd p (e o d st)
    | unplaced => rfl
    | stands d => rfl

theorem Line.pumpOn_restart (k : Line) : k.restart.pumpOn = false := by
  unfold Line.restart Line.pumpOn
  cases k.state <;> rfl

/-- A module that has restarted is at rest (R183). -/
theorem State.tripSafe_warmRestart (s : State) : s.warmRestart.TripSafe := by
  refine ⟨fun _ => ⟨fun h => ?_, fun h => ?_, fun l => ?_⟩, fun clear => (Bool.false_ne_true clear.symm).elim⟩
  · rw [State.isDown_eq_false_iff, State.zone_warmRestart]
  · rw [State.carrier_warmRestart, Carrier.restart_still]
  · rw [State.line_warmRestart, Line.pumpOn_restart]

theorem State.tripSafe_coldReset (s : State) (x : List Port) : (s.coldReset x).TripSafe := by
  refine ⟨fun _ => ⟨fun h => ?_, fun h => ?_, fun l => ?_⟩, fun clear => (Bool.false_ne_true clear.symm).elim⟩
  · cases h <;> rfl
  · cases h <;> rfl
  · cases l <;> rfl

theorem State.TripSafe.setLine {s : State} {l : LineId} {k : Line} (fed : k.pumpOn = true → (s.line l).pumpOn = true)
    (safe : s.TripSafe) : (s.setLine l k).TripSafe := by
  refine .of safe (unbound := fun _ m dry => ?_)
  rw [State.line_setLine]
  split
  · next e => subst e; exact Bool.eq_false_iff.2 fun on => Bool.eq_false_iff.1 dry (fed on)
  · exact dry

theorem State.TripSafe.setZone {s : State} {h : HeadId} {z : ZoneMonitor}
    (up : (s.zone h).lift = .up → z.lift = .up) (safe : s.TripSafe) : (s.setZone h z).TripSafe := by
  refine .of safe (down := fun _ g => ?_)
  simp only [State.isDown_eq_false_iff, State.zone_setZone]
  split
  · next e => subst e; exact up
  · exact id

theorem State.TripSafe.setCarrier {s : State} {h : HeadId} {c : Carrier} (same : c.position = (s.carrier h).position)
    (safe : s.TripSafe) : (s.setCarrier h c).TripSafe := by
  refine .of safe (still := fun _ g => ?_)
  rw [State.carrier_setCarrier]
  split
  · next e => subst e; rw [same]; exact id
  · exact id

theorem ZoneMonitor.inBandChange_up {z : ZoneMonitor} (i : ZoneId) (v : Bool) (up : z.lift = .up) :
    (z.inBandChange i v).lift = .up := by
  simp [ZoneMonitor.inBandChange, up]

theorem State.TripHolds.setTrip {s : State} (x : TripUnit) (tripped : x.tripped = s.trip.tripped) (holds : s.TripHolds) :
    (s.setTrip x).TripHolds := fun trip => holds (tripped.symm.trans trip)

theorem State.TripSafe.own {c : Instr} {s v : State} (o : c.Own s v) (safe : s.TripSafe) : v.TripSafe := by
  cases c
  case listWrite => obtain rfl | ⟨h, r, -, -, rfl⟩ := o; exacts [safe, .of safe]
  case listClear | start => obtain rfl | ⟨h, rfl⟩ := o; exacts [safe, .of safe]
  case revokeClaim | claim | placed | removed | release | claimOverdue =>
    obtain rfl | ⟨h, x, rfl⟩ := o; exacts [safe, .of safe]
  case vacuumChange => obtain rfl := o; exact .of safe
  case headConfig =>
    obtain rfl | ⟨h, x, y, z, rfl⟩ := o
    exacts [safe, .setCarrier rfl (.setZone id safe)]
  case inBandChange => obtain rfl := o; exact .setZone (ZoneMonitor.inBandChange_up _ _) safe
  case platenConfig => obtain rfl | ⟨p, -, rfl⟩ := o; exacts [safe, .of safe]
  case lineConfig =>
    obtain rfl | ⟨l, x, n, free, rfl⟩ := o
    · exact safe
    · refine .setLine (fun on => ?_) safe
      rw [Line.pumpOn_configure _ _ _ free] at on
      exact absurd on (by decide)
  case moduleConfig =>
    obtain rfl | ⟨x, p, n, rfl⟩ := o
    exacts [safe, .checkTrip safe.1]
  case interlockChange =>
    obtain rfl | rfl := o
    exacts [safe, .checkTrip (safe.1.setTrip _ rfl)]
  case resumeModule =>
    obtain rfl | ⟨level, rfl⟩ := o
    · exact safe
    · exact ⟨fun trip => (Bool.false_ne_true trip).elim, fun _ => level⟩
  case serviceSet => obtain rfl | ⟨p, i, rfl⟩ := o; exacts [safe, .of safe]
  case padInstall | padRestore | diskInstall => obtain rfl | ⟨p, k, rfl⟩ := o; exacts [safe, .of safe]
  case restart | beatRead => obtain rfl | rfl := o; exacts [safe, .of safe]
  case headRead => obtain rfl | ⟨n, rfl⟩ := o; exacts [safe, .of safe]
  case noticeAck | noticeMask => obtain rfl | ⟨n, rfl⟩ := o; exacts [safe, .of safe]
  case platenCount | indexPulse => obtain ⟨k, -, rfl⟩ := o; exact .of safe
  case armCount => obtain rfl := o; exact .of safe
  case supplyReadyChange | lineRecovery =>
    obtain rfl | ⟨k, fed, -, rfl⟩ := o
    exacts [safe, .setLine fed.pump safe]
  case coldReset => obtain rfl := o; exact s.tripSafe_coldReset _
  case padWarn | padRetired => obtain rfl | ⟨k, -, rfl⟩ := o; exacts [safe, .of safe]
  case beat | warmRestart =>
    obtain rfl | told | rfl := o
    · exact safe
    · rw [told.same]; exact .of safe
    · exact State.tripSafe_warmRestart _
  all_goals
    obtain rfl := o
    exact safe

/-- Settles O57: what the trip holds and what a clear trip state says of the input are kept by each part of a step (R128). -/
theorem tripIsKept : Obligations.TripIsKept := by
  have closed (acts : Instr → Prop) : StepClosed acts fun s t => s.TripSafe → t.TripSafe :=
    { trans := fun first second safe => second (first safe)
      cascade := .cascade
      answered := .answered
      queue := fun _ _ safe => .of safe
      interval := fun _ _ safe => .of safe
      own := fun _ _ _ => .own }
  exact fun s t holds clear run => (closed s.Acts).step run ⟨holds, clear⟩

end Sys2Proof.Machine
end

section
/-!
PROOFS. The lists, sets and ranges of the part are kept: pending sets canonical, wait lists without repetition, every store within
its size (R3, R19, R78, R116, R169); configurations, angles, arm positions and arm outputs in their ranges (R49, R64, R135, R136).
-/
namespace Sys2Proof.Machine

/-! ## What the own writes do to one record -/

theorem PortUnit.canonical.congr {q : Port} {u v : PortUnit} (c : u.canonical q) (same : v.notices = u.notices) :
    v.canonical q := by
  unfold PortUnit.canonical
  rw [same]
  exact c

theorem PortUnit.canonical_empty {q : Port} {u : PortUnit} (empty : u.notices = []) : u.canonical q := by
  unfold PortUnit.canonical
  rw [empty]
  exact (List.filter_eq_nil_iff.2 fun n _ => by simp).symm

/-- What is left of a canonical set is in the order of the catalogue (R171). -/
theorem PortUnit.canonical.acknowledge {q : Port} {u : PortUnit} (c : u.canonical q) (ns : List Notice) :
    (u.acknowledge ns).canonical q := by
  have left : (u.acknowledge ns).notices = ((catalogue q).filter fun n => u.notices.contains n).filter fun n => !ns.contains n :=
    congrArg (List.filter fun n => !ns.contains n) c
  refine left.trans ((List.filter_filter ..).trans (List.filter_congr fun n _ => ?_))
  rw [Bool.eq_iff_iff]
  simp [PortUnit.acknowledge, and_comm]

theorem length_writeAt_le {steps : List StepRecord} {i : Nat} {r : StepRecord} (room : i < Config.listCapacity)
    (short : steps.length ≤ Config.listCapacity) : (writeAt steps i r).length ≤ Config.listCapacity := by
  unfold writeAt
  split
  · next e => rw [List.length_append, ← e]; exact room
  · rwa [List.length_set]

/-! ## Pending sets, wait lists and stores -/

/-- The pending sets, the wait lists and the stores are as R3, R19, R78, R116 and R169 have them. -/
def State.ListsKept (s : State) : Prop := s.NoticesCanonical ∧ s.WaitsNodup ∧ s.StoresInRange

theorem State.ListsKept.of {s t : State} (k : s.ListsKept)
    (notices : ∀ q, (s.port q).canonical q → (t.port q).canonical q := by exact fun _ => id)
    (station : ∀ d, (s.station d).wait.Nodup → (s.station d).wait.length ≤ Config.stationWaiters →
      (t.station d).wait.Nodup ∧ (t.station d).wait.length ≤ Config.stationWaiters := by exact fun _ => And.intro)
    (line : ∀ l, (s.line l).wait.Nodup → (t.line l).wait.Nodup := by exact fun _ => id)
    (seq : ∀ h, (s.seq h).steps.length ≤ Config.listCapacity → (s.seq h).stack.length ≤ Config.stackDepth →
      (t.seq h).steps.length ≤ Config.listCapacity ∧ (t.seq h).stack.length ≤ Config.stackDepth := by
      exact fun _ => And.intro) :
    t.ListsKept := by
  obtain ⟨canonical, ⟨stations, lines⟩, stores, waits⟩ := k
  exact ⟨fun q => notices q (canonical q),
    ⟨fun d => (station d (stations d) (waits d)).1, fun l => line l (lines l)⟩,
    fun h => seq h (stores h).1 (stores h).2, fun d => (station d (stations d) (waits d)).2⟩

theorem State.ListsKept.cascade {s t : State} (c : Cascade s t) (k : s.ListsKept) : t.ListsKept :=
  .of k (fun q => (c.port q).canonical) (fun d once short => ⟨(c.station d).nodup once, (c.station d).short short⟩)
    (fun l => (c.line l).nodup) fun h list stack => ⟨by rwa [(c.seq h).steps], (c.seq h).stack stack⟩

theorem State.ListsKept.answered {s t : State} (a : Answered s t) (k : s.ListsKept) : t.ListsKept := by
  have notices := a.notices
  rw [a.same] at notices ⊢
  exact .of k fun q c => c.congr (notices q)

theorem State.ListsKept.setSeq {s : State} {h : HeadId} {x : Sequencer} (k : s.ListsKept)
    (list : (s.seq h).steps.length ≤ Config.listCapacity → x.steps.length ≤ Config.listCapacity := by exact id)
    (stack : (s.seq h).stack.length ≤ Config.stackDepth → x.stack.length ≤ Config.stackDepth := by exact id) :
    (s.setSeq h x).ListsKept := by
  refine .of k (seq := fun g l n => ?_)
  rw [State.seq_setSeq]
  split
  · next e => subst e; exact ⟨list l, stack n⟩
  · exact ⟨l, n⟩

theorem State.ListsKept.setLine {s : State} {l : LineId} {x : Line} (k : s.ListsKept) (wait : x.wait = (s.line l).wait) :
    (s.setLine l x).ListsKept := by
  refine .of k (line := fun m once => ?_)
  rw [State.line_setLine]
  split
  · next e => subst e; rwa [wait]
  · exact once

theorem State.ListsKept.setPort {s : State} {q : Port} {u : PortUnit} (k : s.ListsKept)
    (c : (s.port q).canonical q → u.canonical q) : (s.setPort q u).ListsKept := by
  refine .of k (notices := fun p once => ?_)
  rw [State.port_setPort]
  split
  · next e => subst e; exact c once
  · exact once

theorem State.ListsKept.setStation {s : State} {d : StationId} {r : Station} (k : s.ListsKept)
    (wait : r.wait = (s.station d).wait) : (s.setStation d r).ListsKept := by
  refine .of k (station := fun e once short => ?_)
  rw [State.station_setStation]
  split
  · next eq => subst eq; rw [wait]; exact ⟨once, short⟩
  · exact ⟨once, short⟩

theorem State.ListsKept.checkTrip {s : State} (k : s.ListsKept) : s.checkTrip.ListsKept :=
  .cascade (.checkTrip s) (.of k)

/-- The pending sets that a restart leaves are cleared ones with notices raised (R177). -/
theorem State.canonical_restartPorts (s : State) (q : Port) : (s.restartPorts.port q).canonical q := by
  have raised (t u : State) (empty : ∀ p, (t.port p).notices = []) (c : Cascade t u) : (u.port q).canonical q :=
    (c.port q).canonical (PortUnit.canonical_empty (empty q))
  refine raised (((s.modPort .recipe fun u => { u with notices := [] }).modPort .endpoint fun u =>
    { u with notices := [] }).modPort .transfer fun u => { u with notices := [] }) _ (fun p => ?_) ?_
  · cases p <;> rfl
  · refine (((Cascade.raise ..).trans (.raise ..)).trans (.raise ..)).trans (.foldl (fun t p => ?_) _ _)
    split
    exacts [.refl t, .raise ..]

theorem State.seq_warmRestart (s : State) (h : HeadId) :
    s.warmRestart.seq h = (s.seq h).restart (s.stands? h).isSome := by
  cases h <;> rfl

theorem State.station_warmRestart (s : State) (d : StationId) :
    s.warmRestart.station d = s.restartStation d (s.station d) := by
  rcases d with _ | p | _
  · rfl
  · cases p <;> rfl
  · rfl

theorem State.ListsKept.warmRestart {s : State} (k : s.ListsKept) : s.warmRestart.ListsKept := by
  refine .of k (fun q _ => s.canonical_restartPorts q) (fun d _ _ => ?_) (fun l _ => ?_) fun h list _ => ?_
  · rw [State.station_warmRestart]; exact ⟨.nil, Nat.zero_le _⟩
  · rw [State.line_warmRestart]; exact .nil
  · rw [State.seq_warmRestart]; exact ⟨list, Nat.zero_le _⟩

theorem State.listsKept_coldReset (s : State) (x : List Port) : (s.coldReset x).ListsKept := by
  refine ⟨fun q => ?_, ⟨fun d => ?_, fun l => ?_⟩, fun h => ?_, fun d => ?_⟩
  · cases q <;> exact PortUnit.canonical_empty rfl
  · rcases d with _ | p | _
    · exact .nil
    · cases p <;> exact .nil
    · exact .nil
  · cases l <;> exact .nil
  · cases h <;> exact ⟨Nat.zero_le _, Nat.zero_le _⟩
  · rcases d with _ | p | _
    · exact Nat.zero_le _
    · cases p <;> exact Nat.zero_le _
    · exact Nat.zero_le _

theorem Line.wait_configure (k : Line) (c : LineClass) (n : Nat) : (k.configure c n).wait = k.wait := rfl

theorem PerHead.get_map {α : Type} (t : PerHead α) (f : α → α) (h : HeadId) : (t.map f).get h = f (t.get h) := by
  cases h <;> rfl

/-- The sequencers under a new claim limit (R180): a timer may run again, and nothing else changes. -/
theorem State.seq_newLimit (s : State) (c : Prop) [Decidable c] (h : HeadId) :
    (if c then s.seqs else s.seqs.map Sequencer.newLimit).get h = s.seq h ∨
      (if c then s.seqs else s.seqs.map Sequencer.newLimit).get h = (s.seq h).newLimit := by
  split
  · exact .inl rfl
  · exact .inr (PerHead.get_map ..)

theorem State.ListsKept.own {c : Instr} {s v : State} (o : c.Own s v) (k : s.ListsKept) : v.ListsKept := by
  cases c
  case listWrite => obtain rfl | ⟨h, r, room, -, rfl⟩ := o; exacts [k, .setSeq k (length_writeAt_le room)]
  case listClear => obtain rfl | ⟨h, rfl⟩ := o; exacts [k, .setSeq k fun _ => Nat.zero_le _]
  case start => obtain rfl | ⟨h, rfl⟩ := o; exacts [k, .setSeq k (stack := fun _ => Nat.zero_le _)]
  case revokeClaim | claim | placed | removed | release | claimOverdue =>
    obtain rfl | ⟨h, x, rfl⟩ := o; exacts [k, .setSeq k]
  case vacuumChange => obtain rfl := o; exact .setSeq k
  case headConfig => obtain rfl | ⟨h, x, y, z, rfl⟩ := o; exacts [k, .of k]
  case inBandChange => obtain rfl := o; exact .of k
  case platenConfig => obtain rfl | ⟨p, -, rfl⟩ := o; exacts [k, .of k]
  case lineConfig => obtain rfl | ⟨l, x, n, -, rfl⟩ := o; exacts [k, .setLine k rfl]
  case moduleConfig =>
    obtain rfl | ⟨x, p, n, rfl⟩ := o
    · exact k
    · refine .checkTrip (.of k (seq := fun h list stack => ?_))
      obtain same | same := s.seq_newLimit (n = s.beat.claimLimit) h <;> rw [State.seq, same] <;> exact ⟨list, stack⟩
  case interlockChange => obtain rfl | rfl := o; exacts [k, .checkTrip (.of k)]
  case resumeModule => obtain rfl | ⟨-, rfl⟩ := o; exacts [k, .of k]
  case serviceSet => obtain rfl | ⟨p, i, rfl⟩ := o; exacts [k, .setStation k rfl]
  case padInstall | padRestore | diskInstall => obtain rfl | ⟨p, x, rfl⟩ := o; exacts [k, .of k]
  case restart | beatRead => obtain rfl | rfl := o; exacts [k, .of k]
  case headRead => obtain rfl | ⟨n, rfl⟩ := o; exacts [k, .of k]
  case noticeAck => obtain rfl | ⟨ns, rfl⟩ := o; exacts [k, .setPort k fun c => c.acknowledge ns]
  case noticeMask => obtain rfl | ⟨m, rfl⟩ := o; exacts [k, .setPort k fun c => c.congr rfl]
  case platenCount | indexPulse => obtain ⟨x, -, rfl⟩ := o; exact .of k
  case armCount => obtain rfl := o; exact .of k
  case supplyReadyChange | lineRecovery => obtain rfl | ⟨x, fed, -, rfl⟩ := o; exacts [k, .setLine k fed.wait]
  case coldReset => obtain rfl := o; exact s.listsKept_coldReset _
  case padWarn | padRetired => obtain rfl | ⟨x, -, rfl⟩ := o; exacts [k, .of k]
  case beat | warmRestart =>
    obtain rfl | told | rfl := o
    · exact k
    · have seq := told.seq
      have port := told.port
      rw [told.same] at seq port ⊢
      exact .of k (fun q => (port q).canonical) (seq := fun h list stack => by rw [seq h]; exact ⟨list, stack⟩)
    · exact .warmRestart (.of k)
  all_goals
    obtain rfl := o
    exact k

/-! ## Configurations, angles and arms -/

/-- The configurations, the angles, the arm positions and the arm outputs are as R49, R64, R135 and R136 have them. -/
def State.RangesKept (s : State) : Prop := s.ConfigsValid ∧ s.AnglesInRange ∧ s.ArmsInRange ∧ s.ArmsDriven

/-- A timebase with its configuration and its angle in their ranges. -/
def Timebase.sound (b : Timebase) : Prop := b.config.valid = true ∧ b.position < b.config.cpr

theorem State.RangesKept.of {s t : State} (k : s.RangesKept)
    (base : ∀ p, (s.base p).sound → (t.base p).sound := by exact fun _ => id)
    (arm : ∀ p, (s.cond p).position ≤ 65535 → (s.cond p).driven →
      (t.cond p).position ≤ 65535 ∧ (t.cond p).driven := by exact fun _ => And.intro) :
    t.RangesKept := by
  obtain ⟨valid, angle, reach, driven⟩ := k
  exact ⟨fun p => (base p ⟨valid p, angle p⟩).1, fun p => (base p ⟨valid p, angle p⟩).2,
    fun p => (arm p (reach p) (driven p)).1, fun p => (arm p (reach p) (driven p)).2⟩

theorem State.RangesKept.cascade {s t : State} (c : Cascade s t) (k : s.RangesKept) : t.RangesKept :=
  .of k (fun p sound => by
      obtain ⟨config, position, -, -⟩ := c.base p
      unfold Timebase.sound
      rwa [config, position])
    fun p reach driven => ⟨by rwa [(c.arm p).position], (c.arm p).driven driven⟩

theorem State.RangesKept.answered {s t : State} (a : Answered s t) (k : s.RangesKept) : t.RangesKept := by
  rw [a.same]
  exact .of k

theorem State.RangesKept.setBase {s : State} {p : PlatenId} {b : Timebase} (k : s.RangesKept)
    (sound : (s.base p).sound → b.sound) : (s.setBase p b).RangesKept := by
  refine .of k (base := fun j had => ?_)
  rw [State.base_setBase]
  split
  · next e => subst e; exact sound had
  · exact had

theorem State.RangesKept.setCond {s : State} {p : PlatenId} {c : Conditioner} (k : s.RangesKept)
    (reach : (s.cond p).position ≤ 65535 → c.position ≤ 65535) (driven : (s.cond p).driven → c.driven) :
    (s.setCond p c).RangesKept := by
  refine .of k (arm := fun j r d => ?_)
  rw [State.cond_setCond]
  split
  · next e => subst e; exact ⟨reach r, driven d⟩
  · exact ⟨r, d⟩

theorem PlatenConfig.cpr_pos_of_valid {c : PlatenConfig} (v : c.valid = true) : 0 < c.cpr := by
  simp only [PlatenConfig.valid, inRange, Bool.and_eq_true, Bool.or_eq_true, decide_eq_true_eq] at v
  obtain ⟨⟨⟨⟨⟨⟨⟨⟨⟨⟨⟨⟨⟨lines, fold⟩, -⟩, -⟩, -⟩, -⟩, -⟩, -⟩, -⟩, -⟩, -⟩, -⟩, -⟩, -⟩ := v
  exact Nat.mul_pos (by omega) (by omega)

/-- A new configuration keeps the angle where it keeps CPR, and else sets it to 0 (R64). -/
theorem Timebase.sound.configure {b : Timebase} (k : b.sound) {c : PlatenConfig} (v : c.valid = true) :
    (b.configure c).sound := by
  refine ⟨v, ?_⟩
  show (if c.cpr = b.config.cpr then b.position else 0) < c.cpr
  split
  · next e => rw [e]; exact k.2
  · exact PlatenConfig.cpr_pos_of_valid v

theorem Timebase.sound.countForward {b : Timebase} (k : b.sound) : b.countForward.1.sound := by
  obtain ⟨valid, angle⟩ := k
  unfold Timebase.countForward
  split
  · exact ⟨valid, Nat.zero_lt_of_lt angle⟩
  · next room => exact ⟨valid, Nat.lt_of_not_le room⟩

theorem Timebase.sound.countReverse {b : Timebase} (k : b.sound) : b.countReverse.sound := by
  obtain ⟨valid, angle⟩ := k
  unfold Timebase.countReverse
  split
  · exact ⟨valid, Nat.sub_lt (Nat.zero_lt_of_lt angle) Nat.one_pos⟩
  · exact ⟨valid, Nat.lt_of_le_of_lt (Nat.sub_le ..) angle⟩

theorem Timebase.sound.index {b : Timebase} (k : b.sound) : b.index.1.sound := by
  obtain ⟨valid, angle⟩ := k
  unfold Timebase.index
  split
  · exact ⟨valid, angle⟩
  · split <;> exact ⟨valid, Nat.zero_lt_of_lt angle⟩

theorem Conditioner.moveArm_position_le {c : Conditioner} (d : Travel) (r : c.position ≤ 65535) :
    (c.moveArm d).position ≤ 65535 := by
  cases d
  · show satSucc 65535 c.position ≤ 65535
    unfold satSucc
    split <;> omega
  · exact Nat.le_trans (Nat.sub_le ..) r

theorem Conditioner.position_stow (c : Conditioner) (g : PlatenConfig) : (c.stow g).position = c.position :=
  (ArmKept.stow c g).position

/-- An arm at a restart keeps its position and is stowed, with its outputs as R136 has them (R152). -/
theorem Conditioner.restart_kept (c : Conditioner) (g : PlatenConfig) : ArmKept c (c.restart g) := by
  have rest : ∀ d : Conditioner, ArmKept c d →
      ArmKept c { d with direction := .inward, outer := .outer, runHeld := false, sweepsDone := 0 } :=
    fun d k => ⟨k.position, k.driven⟩
  unfold Conditioner.restart
  split
  · exact rest _ (.refl c)
  · exact rest _ (.stow c g)

theorem State.cond_warmRestart (s : State) (p : PlatenId) :
    s.warmRestart.cond p = (s.cond p).restart (s.base p).config := by
  cases p <;> rfl

theorem State.base_warmRestart (s : State) (p : PlatenId) : s.warmRestart.base p = (s.base p).restart := by
  cases p <;> rfl

theorem State.RangesKept.warmRestart {s : State} (k : s.RangesKept) : s.warmRestart.RangesKept := by
  refine .of k (fun p sound => ?_) fun p reach driven => ?_
  · rw [State.base_warmRestart]; exact sound
  · have kept := Conditioner.restart_kept (s.cond p) (s.base p).config
    rw [State.cond_warmRestart]
    exact ⟨by rwa [kept.position], kept.driven driven⟩

theorem State.rangesKept_coldReset (s : State) (x : List Port) : (s.coldReset x).RangesKept := by
  refine ⟨fun p => ?_, fun p => ?_, fun p => ?_, fun p => ?_⟩
  · cases p <;> exact (by decide : PlatenConfig.reset.valid = true)
  · cases p <;> exact (by decide : 0 < PlatenConfig.reset.cpr)
  · cases p <;> exact Nat.zero_le _
  · cases p <;> exact ⟨rfl, rfl⟩

theorem State.RangesKept.own {c : Instr} {s v : State} (o : c.Own s v) (k : s.RangesKept) : v.RangesKept := by
  cases c
  case listWrite => obtain rfl | ⟨h, r, -, -, rfl⟩ := o; exacts [k, .of k]
  case listClear | start => obtain rfl | ⟨h, rfl⟩ := o; exacts [k, .of k]
  case revokeClaim | claim | placed | removed | release | claimOverdue =>
    obtain rfl | ⟨h, x, rfl⟩ := o; exacts [k, .of k]
  case vacuumChange | inBandChange => obtain rfl := o; exact .of k
  case headConfig => obtain rfl | ⟨h, x, y, z, rfl⟩ := o; exacts [k, .of k]
  case platenConfig => obtain rfl | ⟨p, valid, rfl⟩ := o; exacts [k, .setBase k fun sound => sound.configure valid]
  case lineConfig => obtain rfl | ⟨l, x, n, -, rfl⟩ := o; exacts [k, .of k]
  case moduleConfig => obtain rfl | ⟨x, p, n, rfl⟩ := o; exacts [k, .cascade (.checkTrip _) (.of k)]
  case interlockChange => obtain rfl | rfl := o; exacts [k, .cascade (.checkTrip _) (.of k)]
  case resumeModule => obtain rfl | ⟨-, rfl⟩ := o; exacts [k, .of k]
  case serviceSet => obtain rfl | ⟨p, i, rfl⟩ := o; exacts [k, .of k]
  case padInstall | padRestore | diskInstall => obtain rfl | ⟨p, x, rfl⟩ := o; exacts [k, .of k]
  case restart | beatRead => obtain rfl | rfl := o; exacts [k, .of k]
  case headRead | noticeAck | noticeMask => obtain rfl | ⟨n, rfl⟩ := o; exacts [k, .of k]
  case platenCount p d =>
    obtain ⟨x, -, rfl⟩ := o
    refine .of (s := s.setBase p _) (.setBase k fun sound => ?_)
    cases d
    exacts [sound.countForward, sound.countReverse]
  case indexPulse p =>
    obtain ⟨x, -, rfl⟩ := o
    exact .of (s := s.setBase p _) (.setBase k fun sound => sound.index)
  case armCount p d =>
    obtain rfl := o
    refine .setCond k (Conditioner.moveArm_position_le d) fun driven => ?_
    cases d <;> exact driven
  case supplyReadyChange | lineRecovery => obtain rfl | ⟨x, -, -, rfl⟩ := o; exacts [k, .of k]
  case coldReset => obtain rfl := o; exact s.rangesKept_coldReset _
  case padWarn | padRetired => obtain rfl | ⟨x, -, rfl⟩ := o; exacts [k, .of k]
  case beat | warmRestart =>
    obtain rfl | told | rfl := o
    · exact k
    · rw [told.same]; exact .of k
    · exact .warmRestart (.of k)
  all_goals
    obtain rfl := o
    exact k

/-! ## The statement -/

/-- Settles O58: the lists and the ranges are kept, each half on its own, by each part of a step. -/
theorem listsAndRangesAreKept : Obligations.ListsAndRangesAreKept := by
  have lists (acts : Instr → Prop) : StepClosed acts fun s t => s.ListsKept → t.ListsKept :=
    { trans := fun first second k => second (first k)
      cascade := .cascade
      answered := .answered
      queue := fun _ _ k => .of k
      interval := fun _ _ k => .of k
      own := fun _ _ _ => .own }
  have ranges (acts : Instr → Prop) : StepClosed acts fun s t => s.RangesKept → t.RangesKept :=
    { trans := fun first second k => second (first k)
      cascade := .cascade
      answered := .answered
      queue := fun _ _ k => .of k
      interval := fun _ _ k => .of k
      own := fun _ _ _ => .own }
  exact ⟨fun s t notices waits stores run => (lists s.Acts).step run ⟨notices, waits, stores⟩,
    fun s t configs angles arms driven run => (ranges s.Acts).step run ⟨configs, angles, arms, driven⟩⟩

end Sys2Proof.Machine
end

section
/-!
PROOFS. The frame of a step: what is configured, the field inputs and the positions are written by their own commands alone. A
command's own write is followed table by table; a cascade, a response and the idle timers write none of it.
-/
namespace Sys2Proof.Machine

/-! ## The frame as a relation -/

/-- What a step with `front` at the front of its queue leaves as it was, each piece but for the commands that write it. -/
structure State.Framed (front : Option Instr) (s t : State) : Prop where
  steps : (∀ q b, front ≠ some (.listWrite q b)) → (∀ q b, front ≠ some (.listClear q b)) →
    ∀ h, (t.seq h).steps = (s.seq h).steps := by intros; rfl
  head : (∀ q b, front ≠ some (.headConfig q b)) → ∀ h, (t.zone h).rinsePressure = (s.zone h).rinsePressure ∧
    (t.zone h).bandTimeout = (s.zone h).bandTimeout ∧ (t.carrier h).moveLimit = (s.carrier h).moveLimit := by
    intros; exact ⟨rfl, rfl, rfl⟩
  platen : (∀ q b, front ≠ some (.platenConfig q b)) → ∀ p, (t.base p).config = (s.base p).config := by intros; rfl
  line : (∀ q b, front ≠ some (.lineConfig q b)) → ∀ l, (t.line l).cls = (s.line l).cls ∧
    (t.line l).recoveryTime = (s.line l).recoveryTime := by intros; exact ⟨rfl, rfl⟩
  module : (∀ q b, front ≠ some (.moduleConfig q b)) → t.trip.sense = s.trip.sense ∧ t.beat.period = s.beat.period ∧
    t.beat.claimLimit = s.beat.claimLimit := by intros; exact ⟨rfl, rfl, rfl⟩
  service : (∀ q b, front ≠ some (.serviceSet q b)) → ∀ d, (t.station d).inService = (s.station d).inService := by
    intros; rfl
  pad : (∀ q b, front ≠ some (.padInstall q b)) → (∀ q b, front ≠ some (.padRestore q b)) →
    ∀ p, (t.pad p).padId = (s.pad p).padId ∧ (t.pad p).warnLimit = (s.pad p).warnLimit ∧
      (t.pad p).retireLimit = (s.pad p).retireLimit ∧ (t.pad p).interval = (s.pad p).interval ∧
      (t.pad p).exSituSweeps = (s.pad p).exSituSweeps ∧ (t.pad p).breakInSweeps = (s.pad p).breakInSweeps := by
    intros; exact ⟨rfl, rfl, rfl, rfl, rfl, rfl⟩
  disk : (∀ q b, front ≠ some (.diskInstall q b)) →
    ∀ p, (t.disk p).diskId = (s.disk p).diskId ∧ (t.disk p).limit = (s.disk p).limit := by intros; exact ⟨rfl, rfl⟩
  mask : (∀ q b, front ≠ some (.noticeMask q b)) → ∀ q, (t.port q).mask = (s.port q).mask := by intros; rfl
  angle : (∀ p d, front ≠ some (.platenCount p d)) → (∀ p, front ≠ some (.indexPulse p)) →
    (∀ q b, front ≠ some (.platenConfig q b)) →
    ∀ p, (t.base p).position = (s.base p).position ∧ (t.base p).revolution = (s.base p).revolution ∧
      (t.base p).direction = (s.base p).direction := by intros; exact ⟨rfl, rfl, rfl⟩
  arm : (∀ p d, front ≠ some (.armCount p d)) → ∀ p, (t.cond p).position = (s.cond p).position := by intros; rfl
  inBand : (∀ h z v, front ≠ some (.inBandChange h z v)) → ∀ h, (t.zone h).inBand = (s.zone h).inBand := by intros; rfl
  ready : (∀ l v, front ≠ some (.supplyReadyChange l v)) → ∀ l, (t.line l).supplyReady = (s.line l).supplyReady := by
    intros; rfl
  input : (∀ v, front ≠ some (.interlockChange v)) → t.trip.input = s.trip.input := by intros; rfl
  window : ∀ q, (t.port q).window = (s.port q).window := by intros; rfl
  vacuum : (∀ h v, front ≠ some (.vacuumChange h v)) → ∀ h, (t.seq h).vacuum = (s.seq h).vacuum := by intros; rfl

section
variable {front : Option Instr} {s t u : State}

theorem State.Framed.refl (s : State) : s.Framed front s := {}

theorem State.Framed.trans (a : s.Framed front t) (b : t.Framed front u) : s.Framed front u where
  steps i j h := (b.steps i j h).trans (a.steps i j h)
  head i h := by
    obtain ⟨a₁, a₂, a₃⟩ := a.head i h
    obtain ⟨b₁, b₂, b₃⟩ := b.head i h
    exact ⟨b₁.trans a₁, b₂.trans a₂, b₃.trans a₃⟩
  platen i p := (b.platen i p).trans (a.platen i p)
  line i l := by
    obtain ⟨a₁, a₂⟩ := a.line i l
    obtain ⟨b₁, b₂⟩ := b.line i l
    exact ⟨b₁.trans a₁, b₂.trans a₂⟩
  module i := by
    obtain ⟨a₁, a₂, a₃⟩ := a.module i
    obtain ⟨b₁, b₂, b₃⟩ := b.module i
    exact ⟨b₁.trans a₁, b₂.trans a₂, b₃.trans a₃⟩
  service i d := (b.service i d).trans (a.service i d)
  pad i j p := by
    obtain ⟨a₁, a₂, a₃, a₄, a₅, a₆⟩ := a.pad i j p
    obtain ⟨b₁, b₂, b₃, b₄, b₅, b₆⟩ := b.pad i j p
    exact ⟨b₁.trans a₁, b₂.trans a₂, b₃.trans a₃, b₄.trans a₄, b₅.trans a₅, b₆.trans a₆⟩
  disk i p := by
    obtain ⟨a₁, a₂⟩ := a.disk i p
    obtain ⟨b₁, b₂⟩ := b.disk i p
    exact ⟨b₁.trans a₁, b₂.trans a₂⟩
  mask i q := (b.mask i q).trans (a.mask i q)
  angle i j k p := by
    obtain ⟨a₁, a₂, a₃⟩ := a.angle i j k p
    obtain ⟨b₁, b₂, b₃⟩ := b.angle i j k p
    exact ⟨b₁.trans a₁, b₂.trans a₂, b₃.trans a₃⟩
  arm i p := (b.arm i p).trans (a.arm i p)
  inBand i h := (b.inBand i h).trans (a.inBand i h)
  ready i l := (b.ready i l).trans (a.ready i l)
  input i := (b.input i).trans (a.input i)
  window q := (b.window q).trans (a.window q)
  vacuum i h := (b.vacuum i h).trans (a.vacuum i h)

theorem State.Framed.cascade (c : Cascade s t) : s.Framed front t where
  steps _ _ h := (c.seq h).steps
  head _ h := ⟨(c.zone h).rinse, (c.zone h).timeout, (c.carrier h).limit⟩
  platen _ p := (c.base p).config
  line _ l := ⟨(c.line l).cls, (c.line l).time⟩
  module _ := by rw [c.trip, c.beat]; exact ⟨rfl, rfl, rfl⟩
  service _ d := (c.station d).inService
  pad _ _ p := ⟨(c.pad p).padId, (c.pad p).warnLimit, (c.pad p).retireLimit, (c.pad p).interval, (c.pad p).exSitu,
    (c.pad p).breakIn⟩
  disk _ p := ⟨(c.disk p).diskId, (c.disk p).limit⟩
  mask _ q := (c.port q).mask
  angle _ _ _ p := ⟨(c.base p).position, (c.base p).revolution, (c.base p).direction⟩
  arm _ p := (c.arm p).position
  inBand _ h := (c.zone h).inBand
  ready _ l := (c.line l).ready
  input _ := by rw [c.trip]
  window q := (c.port q).window
  vacuum _ h := (c.seq h).vacuum

theorem State.Framed.answered (a : Answered s t) : s.Framed front t := by
  obtain ⟨same, -, mask, window⟩ := a
  rw [same] at mask window ⊢
  exact { mask := fun _ => mask, window := window }

/-! ## One table written -/

theorem State.Framed.setSeq {h : HeadId} {x : Sequencer}
    (steps : (∀ q b, front ≠ some (.listWrite q b)) → (∀ q b, front ≠ some (.listClear q b)) →
      x.steps = (s.seq h).steps := by intros; rfl)
    (vacuum : (∀ h v, front ≠ some (.vacuumChange h v)) → x.vacuum = (s.seq h).vacuum := by intros; rfl) :
    s.Framed front (s.setSeq h x) where
  steps i j g := by
    rw [State.seq_setSeq]
    split
    · next e => subst e; exact steps i j
    · rfl
  vacuum i g := by
    rw [State.seq_setSeq]
    split
    · next e => subst e; exact vacuum i
    · rfl

theorem State.Framed.setLine {l : LineId} {x : Line}
    (conf : (∀ q b, front ≠ some (.lineConfig q b)) → x.cls = (s.line l).cls ∧ x.recoveryTime = (s.line l).recoveryTime)
    (ready : (∀ l v, front ≠ some (.supplyReadyChange l v)) → x.supplyReady = (s.line l).supplyReady) :
    s.Framed front (s.setLine l x) where
  line i m := by
    rw [State.line_setLine]
    split
    · next e => subst e; exact conf i
    · exact ⟨rfl, rfl⟩
  ready i m := by
    rw [State.line_setLine]
    split
    · next e => subst e; exact ready i
    · rfl

theorem State.Framed.setBase {p : PlatenId} {x : Timebase}
    (conf : (∀ q b, front ≠ some (.platenConfig q b)) → x.config = (s.base p).config)
    (angle : (∀ p d, front ≠ some (.platenCount p d)) → (∀ p, front ≠ some (.indexPulse p)) →
      (∀ q b, front ≠ some (.platenConfig q b)) → x.position = (s.base p).position ∧
        x.revolution = (s.base p).revolution ∧ x.direction = (s.base p).direction) :
    s.Framed front (s.setBase p x) where
  platen i j := by
    rw [State.base_setBase]
    split
    · next e => subst e; exact conf i
    · rfl
  angle i k l j := by
    rw [State.base_setBase]
    split
    · next e => subst e; exact angle i k l
    · exact ⟨rfl, rfl, rfl⟩

theorem State.Framed.setPad {p : PlatenId} {x : Pad} (aged : PadAged (s.pad p) x) : s.Framed front (s.setPad p x) where
  pad _ _ j := by
    rw [State.pad_setPad]
    split
    · next e => subst e; exact ⟨aged.padId, aged.warnLimit, aged.retireLimit, aged.interval, aged.exSitu, aged.breakIn⟩
    · exact ⟨rfl, rfl, rfl, rfl, rfl, rfl⟩

theorem State.Framed.setPort {q : Port} {x : PortUnit}
    (mask : (∀ q b, front ≠ some (.noticeMask q b)) → x.mask = (s.port q).mask) (window : x.window = (s.port q).window) :
    s.Framed front (s.setPort q x) where
  mask i r := by
    rw [State.port_setPort]
    split
    · next e => subst e; exact mask i
    · rfl
  window r := by
    rw [State.port_setPort]
    split
    · next e => subst e; exact window
    · rfl

end

/-! ## The restart and the beat -/

theorem Carrier.moveLimit_restart (c : Carrier) : c.restart.moveLimit = c.moveLimit := by
  unfold Carrier.restart
  split
  · exact (CarrierKept.halt false c).limit
  · rfl

/-- The ports after a restart: notices alone have changed (R177). -/
theorem State.port_restartPorts (s : State) (q : Port) : (s.restartPorts.port q).mask = (s.port q).mask ∧
    (s.restartPorts.port q).window = (s.port q).window ∧ (s.restartPorts.port q).response = (s.port q).response ∧
    (s.restartPorts.port q).selectHeld = (s.port q).selectHeld := by
  have raised (t u : State) (same : (t.port q).mask = (s.port q).mask ∧ (t.port q).window = (s.port q).window ∧
      (t.port q).response = (s.port q).response ∧ (t.port q).selectHeld = (s.port q).selectHeld) (c : Cascade t u) :
      (u.port q).mask = (s.port q).mask ∧ (u.port q).window = (s.port q).window ∧
        (u.port q).response = (s.port q).response ∧ (u.port q).selectHeld = (s.port q).selectHeld := by
    rw [(c.port q).mask, (c.port q).window, (c.port q).response, (c.port q).selectHeld]
    exact same
  refine raised (((s.modPort .recipe fun u => { u with notices := [] }).modPort .endpoint fun u =>
    { u with notices := [] }).modPort .transfer fun u => { u with notices := [] }) _ ?_ ?_
  · cases q <;> exact ⟨rfl, rfl, rfl, rfl⟩
  · refine (((Cascade.raise ..).trans (.raise ..)).trans (.raise ..)).trans (.foldl (fun t p => ?_) _ _)
    split
    exacts [.refl t, .raise ..]

theorem State.pad_warmRestart (s : State) (p : PlatenId) : s.warmRestart.pad p = (s.pad p).restart (s.cond p) := by
  cases p <;> rfl

theorem State.disk_restartPorts (s : State) (p : PlatenId) : s.restartPorts.disk p = s.disk p := by
  have fold : ∀ (ps : List PlatenId) (t : State), (ps.foldl (fun x p =>
      if (s.qual p).state = .idle then x else x.raise .endpoint (.watchClosed p)) t).disk p = t.disk p := by
    intro ps
    induction ps with
    | nil => exact fun _ => rfl
    | cons q ps ih =>
      intro t
      rw [List.foldl_cons, ih]
      split
      · rfl
      · simp only [State.raise, State.modPort_eq, State.disk_setPort]
  unfold State.restartPorts
  dsimp only
  rw [fold]
  simp only [State.raise, State.modPort_eq, State.disk_setPort]

theorem State.disk_warmRestart (s : State) (p : PlatenId) : s.warmRestart.disk p = s.disk p := s.disk_restartPorts p

theorem State.Framed.warmRestart {front : Option Instr} (s : State) : s.Framed front s.warmRestart where
  steps _ _ h := by rw [State.seq_warmRestart]; rfl
  head _ h := by rw [State.zone_warmRestart, State.carrier_warmRestart, Carrier.moveLimit_restart]; exact ⟨rfl, rfl, rfl⟩
  platen _ p := by rw [State.base_warmRestart]; rfl
  line _ l := by rw [State.line_warmRestart]; exact ⟨rfl, rfl⟩
  service _ d := by rw [State.station_warmRestart]; rfl
  pad _ _ p := by rw [State.pad_warmRestart]; exact ⟨rfl, rfl, rfl, rfl, rfl, rfl⟩
  disk _ p := by rw [State.disk_warmRestart]; exact ⟨rfl, rfl⟩
  mask _ q := (s.port_restartPorts q).1
  angle _ _ _ p := by rw [State.base_warmRestart]; exact ⟨rfl, rfl, rfl⟩
  arm _ p := by rw [State.cond_warmRestart]; exact (Conditioner.restart_kept ..).position
  inBand _ h := by rw [State.zone_warmRestart]
  ready _ l := by rw [State.line_warmRestart]; rfl
  window q := (s.port_restartPorts q).2.1
  vacuum _ h := by rw [State.seq_warmRestart]; rfl

theorem State.Framed.beatTold {front : Option Instr} {s v : State} (told : BeatTold s v) : s.Framed front v := by
  have period : v.beat.period = s.beat.period ∧ v.beat.claimLimit = s.beat.claimLimit := by
    rw [told.beat]; exact ⟨rfl, rfl⟩
  obtain ⟨same, seq, -, port⟩ := told
  rw [same] at seq port period ⊢
  exact
    { steps := fun _ _ h => by rw [seq h]
      module := fun _ => ⟨rfl, period⟩
      mask := fun _ q => (port q).mask
      window := fun q => (port q).window
      vacuum := fun _ h => by rw [seq h] }

/-! ## The own writes -/

theorem State.Framed.beat {front : Option Instr} {s v : State} (o : Instr.Own .beat s v) : s.Framed front v := by
  obtain rfl | told | rfl := o
  · exact .refl _
  · exact .beatTold told
  · exact (State.Framed.trans (t := s.setBeat s.beat.expire) {} (.warmRestart _))

theorem State.Framed.lineRecovery {front : Option Instr} {s v : State} {l : LineId}
    (o : Instr.Own (.lineRecovery l) s v) : s.Framed front v := by
  obtain rfl | ⟨k, fed, ready, rfl⟩ := o
  · exact .refl _
  · exact .setLine (fun _ => ⟨fed.cls, fed.time⟩) fun _ => ready

theorem State.Framed.own {c : Instr} {s v : State} (o : c.Own s v) (cold : ∀ x, c ≠ .coldReset x) :
    s.Framed (some c) v := by
  cases c
  case listWrite q b =>
    obtain rfl | ⟨h, r, -, -, rfl⟩ := o
    exacts [.refl _, .setSeq (fun other _ => (other q b rfl).elim)]
  case listClear q b =>
    obtain rfl | ⟨h, rfl⟩ := o
    exacts [.refl _, .setSeq (fun _ other => (other q b rfl).elim)]
  case start => obtain rfl | ⟨h, rfl⟩ := o; exacts [.refl _, .setSeq]
  case revokeClaim | claim | placed | removed | release | claimOverdue =>
    obtain rfl | ⟨h, x, rfl⟩ := o; exacts [.refl _, .setSeq]
  case vacuumChange h x => obtain rfl := o; exact .setSeq (vacuum := fun other => (other h x rfl).elim)
  case headConfig q b =>
    obtain rfl | ⟨h, x, y, z, rfl⟩ := o
    · exact .refl _
    · refine { head := fun other => (other q b rfl).elim, inBand := fun _ g => ?_ }
      show ((s.setZone h _).zone g).inBand = _
      rw [State.zone_setZone]
      split
      · next e => subst e; rfl
      · rfl
  case inBandChange h z x =>
    obtain rfl := o
    refine { head := fun _ g => ?_, inBand := fun other => (other h z x rfl).elim }
    show ((s.setZone h _).zone g).rinsePressure = _ ∧ ((s.setZone h _).zone g).bandTimeout = _ ∧ _
    rw [State.zone_setZone]
    obtain ⟨rinse, band⟩ := ZoneKept.inBandChange_rest (s.zone h) z x
    split
    · next e => subst e; exact ⟨rinse, band, rfl⟩
    · exact ⟨rfl, rfl, rfl⟩
  case platenConfig q b =>
    obtain rfl | ⟨p, -, rfl⟩ := o
    exacts [.refl _, .setBase (fun other => (other q b rfl).elim) fun _ _ other => (other q b rfl).elim]
  case lineConfig q b =>
    obtain rfl | ⟨l, x, n, -, rfl⟩ := o
    exacts [.refl _, .setLine (fun other => (other q b rfl).elim) fun _ => rfl]
  case moduleConfig q b =>
    obtain rfl | ⟨x, p, n, rfl⟩ := o
    · exact .refl _
    · refine .trans ?_ (.cascade (.checkTrip _))
      have same (h : HeadId) := s.seq_newLimit (n = s.beat.claimLimit) h
      exact
        { steps := fun _ _ h => by obtain e | e := same h <;> exact (congrArg Sequencer.steps e).trans rfl
          vacuum := fun _ h => by obtain e | e := same h <;> exact (congrArg Sequencer.vacuum e).trans rfl
          module := fun other => (other q b rfl).elim }
  case interlockChange x =>
    obtain rfl | rfl := o
    · exact .refl _
    · refine .trans ?_ (.cascade (.checkTrip _))
      exact { input := fun other => (other x rfl).elim }
  case resumeModule => obtain rfl | ⟨-, rfl⟩ := o; exacts [.refl _, {}]
  case serviceSet q b =>
    obtain rfl | ⟨p, i, rfl⟩ := o
    exacts [.refl _, { service := fun other => (other q b rfl).elim }]
  case padInstall q b =>
    obtain rfl | ⟨p, x, rfl⟩ := o
    exacts [.refl _, { pad := fun other _ => (other q b rfl).elim }]
  case padRestore q b =>
    obtain rfl | ⟨p, x, rfl⟩ := o
    exacts [.refl _, { pad := fun _ other => (other q b rfl).elim }]
  case diskInstall q b =>
    obtain rfl | ⟨p, x, rfl⟩ := o
    exacts [.refl _, { disk := fun other => (other q b rfl).elim }]
  case restart | beatRead => obtain rfl | rfl := o; exacts [.refl _, {}]
  case headRead => obtain rfl | ⟨n, rfl⟩ := o; exacts [.refl _, {}]
  case noticeAck => obtain rfl | ⟨ns, rfl⟩ := o; exacts [.refl _, .setPort (fun _ => rfl) rfl]
  case noticeMask q b =>
    obtain rfl | ⟨m, rfl⟩ := o
    exacts [.refl _, .setPort (fun other => (other q b rfl).elim) rfl]
  case platenCount p d =>
    obtain ⟨x, aged, rfl⟩ := o
    refine .trans (.setBase (fun _ => ?_) fun other => (other p d rfl).elim) (.setPad aged)
    cases d
    · show (s.base p).countForward.1.config = _
      unfold Timebase.countForward
      split <;> rfl
    · show (s.base p).countReverse.config = _
      unfold Timebase.countReverse
      split <;> rfl
  case indexPulse p =>
    obtain ⟨x, aged, rfl⟩ := o
    refine .trans (.setBase (fun _ => ?_) fun _ other => (other p rfl).elim) (.setPad aged)
    unfold Timebase.index
    split
    · rfl
    · split <;> rfl
  case armCount p d => obtain rfl := o; exact { arm := fun other => (other p d rfl).elim }
  case supplyReadyChange l x =>
    obtain rfl | ⟨k, fed, -, rfl⟩ := o
    exacts [.refl _, .setLine (fun _ => ⟨fed.cls, fed.time⟩) fun other => (other l x rfl).elim]
  case lineRecovery => exact .lineRecovery o
  case coldReset x => exact (cold x rfl).elim
  case padWarn | padRetired => obtain rfl | ⟨x, aged, rfl⟩ := o; exacts [.refl _, .setPad aged]
  case beat => exact .beat o
  case warmRestart => exact .beat o
  all_goals
    obtain rfl := o
    exact .refl _

/-- Settles O59: the frame is a relation that each part of a step lies in. -/
theorem onlyItsOwnCommandWrites : Obligations.OnlyItsOwnCommandWrites := by
  intro s t front hfront run cold
  have closed : StepClosed s.Acts (State.Framed front) :=
    { trans := .trans
      cascade := .cascade
      answered := .answered
      queue := fun _ _ => {}
      interval := fun _ _ => {}
      own := by
        rintro c (atFront | ⟨-, rfl | ⟨l, rfl⟩⟩) u v o
        · rw [← hfront] at atFront
          subst atFront
          exact .own o fun x e => cold x (by rw [e])
        · exact .beat o
        · exact .lineRecovery o }
  have f : s.Framed front t := closed.step run
  exact ⟨f.steps, f.head, f.platen, f.line, f.module, f.service, f.pad, f.disk, f.mask, f.angle, f.arm, f.inBand,
    f.ready, f.input, f.window, f.vacuum⟩

end Sys2Proof.Machine
end

section
/-!
PROOFS. The counters that do not decrease (R153, R178): a beat advances the beat counter and a boundary the life of a pad; a
cascade may count a wafer; no other write but a record written or a cold reset touches them.
-/
namespace Sys2Proof.Machine

/-- The beat counter, and the life and the wafers of every pad, do not decrease but where R158, R159 and R185 say so. -/
structure State.Counted (front : Option Instr) (s t : State) : Prop where
  beat : (∀ x, front ≠ some (.coldReset x)) → s.beat.counter ≤ t.beat.counter := by exact fun _ => Nat.le_refl _
  pad : (∀ x, front ≠ some (.coldReset x)) → (∀ q b, front ≠ some (.padInstall q b)) →
    (∀ q b, front ≠ some (.padRestore q b)) →
    ∀ p, (s.pad p).life ≤ (t.pad p).life ∧ (s.pad p).wafers ≤ (t.pad p).wafers := by
    exact fun _ _ _ _ => ⟨Nat.le_refl _, Nat.le_refl _⟩

section
variable {front : Option Instr} {s t u : State}

theorem State.Counted.refl (s : State) : s.Counted front s := {}

theorem State.Counted.trans (a : s.Counted front t) (b : t.Counted front u) : s.Counted front u where
  beat i := Nat.le_trans (a.beat i) (b.beat i)
  pad i j k p := ⟨Nat.le_trans (a.pad i j k p).1 (b.pad i j k p).1, Nat.le_trans (a.pad i j k p).2 (b.pad i j k p).2⟩

theorem State.Counted.cascade (c : Cascade s t) : s.Counted front t where
  beat _ := by rw [c.beat]
  pad _ _ _ p := ⟨Nat.le_of_eq (c.pad p).life.symm, (c.pad p).wafers⟩

theorem State.Counted.answered (a : Answered s t) : s.Counted front t := by
  rw [a.same]
  exact {}

theorem State.Counted.setPad {p : PlatenId} {x : Pad} (aged : PadAged (s.pad p) x) : s.Counted front (s.setPad p x) where
  pad _ _ _ j := by
    rw [State.pad_setPad]
    split
    · next e => subst e; exact ⟨aged.life, Nat.le_of_eq aged.wafers.symm⟩
    · exact ⟨Nat.le_refl _, Nat.le_refl _⟩

theorem State.Counted.beatOwn (o : Instr.Own .beat s t) : s.Counted front t := by
  have counts : s.beat.counter ≤ s.beat.expire.counter := le_satSucc ..
  obtain rfl | told | rfl := o
  · exact .refl _
  · have beat := told.beat
    rw [told.same] at beat ⊢
    exact { beat := fun _ => by rw [beat]; exact counts }
  · exact
      { beat := fun _ => counts
        pad := fun _ _ _ p => by rw [State.pad_warmRestart]; exact ⟨Nat.le_refl _, Nat.le_refl _⟩ }

theorem State.Counted.own {c : Instr} (o : c.Own s t) : s.Counted (some c) t := by
  cases c
  case listWrite => obtain rfl | ⟨h, r, -, -, rfl⟩ := o; exacts [.refl _, {}]
  case listClear | start => obtain rfl | ⟨h, rfl⟩ := o; exacts [.refl _, {}]
  case revokeClaim | claim | placed | removed | release | claimOverdue =>
    obtain rfl | ⟨h, x, rfl⟩ := o; exacts [.refl _, {}]
  case headConfig => obtain rfl | ⟨h, x, y, z, rfl⟩ := o; exacts [.refl _, {}]
  case vacuumChange | inBandChange | armCount => obtain rfl := o; exact {}
  case platenConfig => obtain rfl | ⟨p, -, rfl⟩ := o; exacts [.refl _, {}]
  case lineConfig => obtain rfl | ⟨l, x, n, -, rfl⟩ := o; exacts [.refl _, {}]
  case moduleConfig =>
    obtain rfl | ⟨x, p, n, rfl⟩ := o
    exacts [.refl _, .trans {} (.cascade (.checkTrip _))]
  case interlockChange => obtain rfl | rfl := o; exacts [.refl _, .trans {} (.cascade (.checkTrip _))]
  case resumeModule => obtain rfl | ⟨-, rfl⟩ := o; exacts [.refl _, {}]
  case serviceSet => obtain rfl | ⟨p, i, rfl⟩ := o; exacts [.refl _, {}]
  case padInstall q b =>
    obtain rfl | ⟨p, x, rfl⟩ := o
    exacts [.refl _, { pad := fun _ other => (other q b rfl).elim }]
  case padRestore q b =>
    obtain rfl | ⟨p, x, rfl⟩ := o
    exacts [.refl _, { pad := fun _ _ other => (other q b rfl).elim }]
  case diskInstall => obtain rfl | ⟨p, x, rfl⟩ := o; exacts [.refl _, {}]
  case restart | beatRead => obtain rfl | rfl := o; exacts [.refl _, {}]
  case headRead | noticeAck | noticeMask => obtain rfl | ⟨n, rfl⟩ := o; exacts [.refl _, {}]
  case platenCount p d => obtain ⟨x, aged, rfl⟩ := o; exact .trans (t := s.setBase p _) {} (.setPad aged)
  case indexPulse p => obtain ⟨x, aged, rfl⟩ := o; exact .trans (t := s.setBase p _) {} (.setPad aged)
  case supplyReadyChange | lineRecovery => obtain rfl | ⟨k, -, -, rfl⟩ := o; exacts [.refl _, {}]
  case coldReset x => exact { beat := fun other => (other x rfl).elim, pad := fun other => (other x rfl).elim }
  case padWarn | padRetired => obtain rfl | ⟨x, aged, rfl⟩ := o; exacts [.refl _, .setPad aged]
  case beat | warmRestart => exact .beatOwn o
  all_goals
    obtain rfl := o
    exact .refl _

end

/-- Settles O60: the counters are followed through each part of a step, as the frame is. -/
theorem countersDoNotDecrease : Obligations.CountersDoNotDecrease := by
  intro s t run
  have closed : StepClosed s.Acts (State.Counted s.pending.head?) :=
    { trans := .trans
      cascade := .cascade
      answered := .answered
      queue := fun _ _ => {}
      interval := fun _ _ => {}
      own := by
        rintro c (atFront | ⟨-, rfl | ⟨l, rfl⟩⟩) u v o
        · rw [atFront]
          exact .own o
        · exact .beatOwn o
        · obtain rfl | ⟨k, -, -, rfl⟩ := o
          exacts [.refl _, {}] }
  have counted : s.Counted s.pending.head? t := closed.step run
  have front {c : Instr} (none : ∀ rest, s.pending ≠ c :: rest) : s.pending.head? ≠ some c := by
    intro e
    obtain ⟨rest, pending⟩ := List.head?_eq_some_iff.1 e
    exact none rest pending
  exact ⟨fun cold => counted.beat fun x => front (cold x), fun cold install restore =>
    counted.pad (fun x => front (cold x)) (fun q b => front (install q b)) fun q b => front (restore q b)⟩

end Sys2Proof.Machine
end

section
/-!
PROOFS. How every request is taken (R165), said once: its port decides its permission, its body its length and the names in it, and
what its work answers is either a status other than OK or a state that is settled where the state before it was. From it come the
two outcomes of a request, and that every step keeps the part settled (R54, R55, R138).
-/
namespace Sys2Proof.Machine

/-! ## Settled states -/

/-- A state that differs in nothing the two decisions read or set stays settled. -/
theorem State.Settled.of {s t : State} (k : s.Settled) (stations : t.stations = s.stations := by rfl)
    (quick : ∀ g, (t.seq g).state = (s.seq g).state ∧ (t.seq g).activity = (s.seq g).activity ∧
      (t.seq g).stack = (s.seq g).stack := by exact fun _ => ⟨rfl, rfl, rfl⟩)
    (down : ∀ g, t.isDown g = s.isDown g := by exact fun _ => rfl)
    (trip : t.trip.tripped = s.trip.tripped := by rfl)
    (cond : ∀ p, (t.cond p).outer = (s.cond p).outer ∧ (t.cond p).runHeld = (s.cond p).runHeld := by
      exact fun _ => ⟨rfl, rfl⟩)
    (base : ∀ p, (t.base p).config.conditioningSpeed = (s.base p).config.conditioningSpeed ∧
      (t.base p).speed = (s.base p).speed ∧ (t.base p).stallTimer = (s.base p).stallTimer ∧
      (t.base p).stalled = (s.base p).stalled := by exact fun _ => ⟨rfl, rfl, rfl, rfl⟩) : t.Settled :=
  k.congr stations quick down trip cond base

theorem State.Settled.setSeq {s : State} {h : HeadId} {x : Sequencer} (k : s.Settled)
    (same : x.state = (s.seq h).state ∧ x.activity = (s.seq h).activity ∧ x.stack = (s.seq h).stack) :
    (s.setSeq h x).Settled := by
  refine .of k (quick := fun g => ?_)
  rw [State.seq_setSeq]
  split
  · next e => subst e; exact same
  · exact ⟨rfl, rfl, rfl⟩

theorem State.settled_coldReset (s : State) (x : List Port) : (s.coldReset x).Settled := by
  rw [State.settled_iff]
  intro p
  cases p <;> exact ⟨rfl, rfl⟩

/-! ## The answer of a request -/

/-- A refusal never has the status OK, and what is accepted is settled where the state before it was. -/
structure Reply.Sound (s : State) (r : Reply) : Prop where
  refused : ∀ e, r = .error e → e ≠ .ok
  settled : ∀ t b, r = .ok (t, b) → s.Settled → t.Settled

theorem Reply.Sound.error {s : State} {e : Status} (bad : e ≠ .ok := by decide) : Reply.Sound s (.error e) where
  refused _ h := by injection h with h; exact h ▸ bad
  settled _ _ h := nomatch h

theorem Reply.Sound.ok {s t : State} {b : List Byte} (k : s.Settled → t.Settled) : Reply.Sound s (.ok (t, b)) where
  refused _ h := nomatch h
  settled _ _ h := by injection h with h; injection h with h; exact h ▸ k

theorem Reply.Sound.accept {s t : State} : Reply.Sound s (Machine.accept t) := .ok fun _ => t.settled_settle
theorem Reply.Sound.answer {s : State} {b : List Byte} : Reply.Sound s (Machine.answer s b) := .ok id

theorem Reply.Sound.require {s : State} {c : Bool} {e : Status} {r : Reply} (k : Reply.Sound s r)
    (bad : e ≠ .ok := by decide) : Reply.Sound s (Machine.require c e r) := by
  cases c
  · exact .error bad
  · exact k

theorem Reply.Sound.requireLength {s : State} {b : List Byte} {n : Nat} {r : Reply} (k : Reply.Sound s r) :
    Reply.Sound s (Machine.requireLength b n r) := .require k

theorem Reply.Sound.requireField {s : State} {α : Type} {x : Option α} {r : α → Reply} (k : ∀ a, Reply.Sound s (r a)) :
    Reply.Sound s (Machine.requireField x r) := by
  cases x with
  | none => exact .error
  | some a => exact k a

end Sys2Proof.Machine

namespace Sys2Proof
open Sys2Proof.Machine

/-- The port permits the request (R167). -/
def Instr.permits (c : Instr) (q : Port) : Bool :=
  match c.onlyPort? with
  | some p => decide (q = p)
  | none => true

/-- The reply of a request checks the length of a body of fixed length, and then the name in its first byte. -/
def Instr.Formed (c : Instr) (r : Reply) : Prop :=
  ∀ b n, c.fixedBody? = some (b, n) → ∃ rest, r = requireLength b n rest ∧
    ∀ k, c.named? = some k → k ≤ le8 b 0 → rest = .error .outOfRange

/-- The code of an unknown request is the code of no request; a command that breaks this faults. -/
def Instr.Runnable (c : Instr) : Prop :=
  ∀ p code b, c = .unknownRequest p code b → requestCodes.contains code.toNat = false

end Sys2Proof

namespace Sys2Proof.Machine

theorem headOf_eq_none {n : Nat} (h : 4 ≤ n) : headOf n = none := by
  unfold headOf
  split <;> first | omega | rfl

theorem platenOfCode_eq_none {n : Nat} (h : 3 ≤ n) : platenOfCode n = none := by
  unfold platenOfCode
  split <;> first | omega | rfl

theorem lineOf_eq_none {n : Nat} (h : 6 ≤ n) : lineOf n = none := by
  unfold lineOf
  split <;> first | omega | rfl

section
variable {c : Instr} {b : List Byte} {n : Nat} {r : Reply}

theorem formed_of_free (free : c.fixedBody? = none) : c.Formed r := fun _ _ h => by rw [free] at h; cases h

theorem formed_of_unnamed (body : c.fixedBody? = some (b, n)) (unnamed : c.named? = none) :
    c.Formed (requireLength b n r) := by
  intro b' n' h
  rw [body] at h
  obtain ⟨rfl, rfl⟩ := Prod.mk.inj (Option.some.inj h)
  exact ⟨r, rfl, fun _ k => by rw [unnamed] at k; cases k⟩

theorem formed_of_named {α : Type} {x : Option α} {r : α → Reply} {m : Nat} (body : c.fixedBody? = some (b, n))
    (named : c.named? = some m) (bound : m ≤ le8 b 0 → x = none) : c.Formed (requireLength b n (requireField x r)) := by
  intro b' n' h
  rw [body] at h
  obtain ⟨rfl, rfl⟩ := Prod.mk.inj (Option.some.inj h)
  refine ⟨_, rfl, fun k hk le => ?_⟩
  rw [named] at hk
  exact requireField_not (bound (Option.some.inj hk ▸ le)) r

end

theorem Instr.runnable_of_wellFormed {c : Instr} (formed : c.wellFormed = true) : c.Runnable := by
  rintro p code b rfl
  have both : (bodyFits b && codeUnknown code) = true := formed
  simpa [codeUnknown] using (Bool.and_eq_true_iff.1 both).2

theorem Instr.runnable_of_run {c : Instr} {s t : State} (run : exec c s = .next t) : c.Runnable := by
  rintro p code b rfl
  by_contra known
  rw [Bool.not_eq_false] at known
  have arm : exec (.unknownRequest p code b) s = execUnknownRequest p code b s := rfl
  rw [arm, execUnknownRequest, if_pos known] at run
  exact nomatch run

/-- A request is taken as its port, its form and its state decide (R165). -/
structure Instr.Taken (c : Instr) (q : Port) (s : State) (r : Reply) : Prop where
  runs : exec c s = .next (s.takeRequest q (c.permits q) r)
  formed : c.Formed r
  sound : Reply.Sound s r

/-! ## Replies with a case split of their own -/

theorem Reply.Sound.resume (s : State) (h : HeadId) : Reply.Sound s (s.resume h) := by
  unfold State.resume
  split
  exacts [.require .accept, .error, .require .accept, .error, .error, .error]

theorem Reply.Sound.amend (s : State) (h : HeadId) (f : AmendField) (v : Nat) : Reply.Sound s (s.amend h f v) := by
  refine .require ?_
  split
  exacts [.accept, .error]

theorem Reply.Sound.serviceSet (s : State) (p : PlatenId) (inn : Bool) : Reply.Sound s (s.serviceSet p inn) := by
  unfold State.serviceSet
  dsimp only
  split
  · exact .accept
  · split
    exacts [.accept, .require .accept]

theorem Reply.Sound.headRead (s : State) (h : HeadId) : Reply.Sound s (s.headReadReply h) := by
  refine .ok fun k => ?_
  split
  exacts [.of k, k]

theorem State.settled_respond {s : State} (k : s.Settled) (q : Port) (e : Status) (b : List Byte) :
    (s.respond q e b).Settled := .of k

/-! ## Every request -/

theorem Instr.exec_request {c : Instr} {q : Port} (port : c.port? = some q) (runnable : c.Runnable) (s : State) :
    ∃ r, Instr.Taken c q s r := by
  cases c
  case unknownRequest p code b =>
    obtain rfl : p = q := Option.some.inj port
    have unknown : requestCodes.contains code.toNat = false := runnable p code b rfl
    refine ⟨.error .unknownRequest, ?_, formed_of_free rfl, .error⟩
    show (if requestCodes.contains code.toNat then _ else _) = _
    rw [unknown]
    rfl
  all_goals first | (cases port; done) | skip
  all_goals obtain rfl := Option.some.inj port
  case listWrite b =>
    exact ⟨_, rfl, formed_of_free rfl, .require (.requireField fun _ => .requireLength (.requireField fun _ => .require
      (.requireField fun _ => .require (.require .accept))))⟩
  case listClear b => exact ⟨_, rfl, formed_of_named rfl rfl headOf_eq_none, .requireLength (.requireField fun _ => .require .accept)⟩
  case listRead b =>
    exact ⟨_, rfl, formed_of_named rfl rfl headOf_eq_none,
      .requireLength (.requireField fun _ => .requireField fun _ => .answer)⟩
  case start b =>
    exact ⟨_, rfl, formed_of_named rfl rfl headOf_eq_none,
      .requireLength (.requireField fun _ => .require (.require (.require (.require .accept))))⟩
  case hold b =>
    exact ⟨_, rfl, formed_of_named rfl rfl headOf_eq_none, .requireLength (.requireField fun _ => .requireField fun _ =>
      .require (.require (.require .accept)))⟩
  case resume b =>
    exact ⟨_, rfl, formed_of_named rfl rfl headOf_eq_none, .requireLength (.requireField fun _ => .resume ..)⟩
  case abort b =>
    exact ⟨_, rfl, formed_of_named rfl rfl headOf_eq_none, .requireLength (.requireField fun _ => .require .accept)⟩
  case amend b =>
    exact ⟨_, rfl, formed_of_named rfl rfl headOf_eq_none, .requireLength (.requireField fun _ => .requireField fun _ =>
      .require (.amend ..))⟩
  case flagSet b =>
    exact ⟨_, rfl, formed_of_named rfl rfl headOf_eq_none, .requireLength (.requireField fun _ => .requireField fun _ =>
      .requireField fun _ => .accept)⟩
  case placeHead b =>
    exact ⟨_, rfl, formed_of_named rfl rfl headOf_eq_none, .requireLength (.requireField fun _ => .requireField fun _ =>
      .require .accept)⟩
  case headConfig b =>
    exact ⟨_, rfl, formed_of_named rfl rfl headOf_eq_none, .requireLength (.requireField fun _ => .require
      (.require .accept))⟩
  case platenConfig b =>
    exact ⟨_, rfl, formed_of_named rfl rfl platenOfCode_eq_none, .requireLength (.requireField fun _ => .require
      (.require .accept))⟩
  case lineConfig b =>
    exact ⟨_, rfl, formed_of_named rfl rfl lineOf_eq_none, .requireLength (.requireField fun _ => .requireField fun _ =>
      .require (.require .accept))⟩
  case moduleConfig b =>
    exact ⟨_, rfl, formed_of_unnamed rfl rfl, .requireLength (.requireField fun _ => .requireField fun _ =>
      .require .accept)⟩
  case serviceSet b =>
    exact ⟨_, rfl, formed_of_unnamed rfl rfl, .requireLength (.requireField fun _ => .requireField fun _ =>
      .serviceSet ..)⟩
  case padInstall b =>
    exact ⟨_, rfl, formed_of_named rfl rfl platenOfCode_eq_none, .requireLength (.requireField fun _ => .require
      (.require .accept))⟩
  case padRestore b =>
    exact ⟨_, rfl, formed_of_named rfl rfl platenOfCode_eq_none, .requireLength (.requireField fun _ => .requireField
      fun _ => .require (.require .accept))⟩
  case diskInstall b =>
    exact ⟨_, rfl, formed_of_named rfl rfl platenOfCode_eq_none, .requireLength (.requireField fun _ => .require
      (.require .accept))⟩
  case conditionNow b =>
    exact ⟨_, rfl, formed_of_named rfl rfl platenOfCode_eq_none, .requireLength (.requireField fun _ => .require
      (.require .accept))⟩
  case resumeModule b => exact ⟨_, rfl, formed_of_unnamed rfl rfl, .requireLength (.require .accept)⟩
  case restart b => exact ⟨_, rfl, formed_of_unnamed rfl rfl, .requireLength .accept⟩
  case beatRead b => exact ⟨_, rfl, formed_of_unnamed rfl rfl, .requireLength (.ok fun k => .of k)⟩
  case revokeClaim b | release b | claim b =>
    refine ⟨_, rfl, formed_of_named rfl rfl headOf_eq_none, .requireLength (.requireField fun _ => .require ?_)⟩
    first | exact .accept | exact .require (.require .accept)
  case mark b =>
    exact ⟨_, rfl, formed_of_named rfl rfl platenOfCode_eq_none, .requireLength (.requireField fun _ => .requireField
      fun _ => .ok fun _ => State.settled_settle _)⟩
  case qualRead b | padRead b =>
    exact ⟨_, rfl, formed_of_named rfl rfl platenOfCode_eq_none, .requireLength (.requireField fun _ => .answer)⟩
  case placed b | removed b =>
    exact ⟨_, rfl, formed_of_named rfl rfl headOf_eq_none, .requireLength (.requireField fun _ => .require
      (.require .accept))⟩
  case headRead b =>
    exact ⟨_, rfl, formed_of_named rfl rfl headOf_eq_none, .requireLength (.requireField fun _ => .headRead ..)⟩
  case stationRead b | lineRead b | noticeRead b =>
    exact ⟨_, rfl, formed_of_unnamed rfl rfl, .requireLength .answer⟩
  case resultRead b =>
    exact ⟨_, rfl, formed_of_named rfl rfl headOf_eq_none, .requireLength (.requireField fun _ => .require .answer)⟩
  case noticeAck b => exact ⟨_, rfl, formed_of_free rfl, .require (.requireField fun _ => .ok fun k => .of k)⟩
  case noticeMask b => exact ⟨_, rfl, formed_of_unnamed rfl rfl, .requireLength (.require (.ok fun k => .of k))⟩

theorem State.settled_takeRequest {s : State} (k : s.Settled) (q : Port) (permitted : Bool) {r : Reply}
    (sound : Reply.Sound s r) : (s.takeRequest q permitted r).Settled := by
  unfold State.takeRequest State.openWindow
  split
  · exact .of k
  · cases permitted
    · exact State.settled_respond k ..
    · cases r with
      | error e => exact State.settled_respond k ..
      | ok answer => exact State.settled_respond (sound.settled _ _ rfl k) ..

/-- Settles O5: a reply is an error or an acceptance, and no refusal has the status OK (R165). -/
theorem requestsAreRefusedOrAccepted : Obligations.RequestsAreRefusedOrAccepted := by
  intro c q s formed port o
  obtain ⟨r, runs, -, sound⟩ := Instr.exec_request port (Instr.runnable_of_wellFormed formed) s
  rw [runs]
  cases c.permits q with
  | false => exact .inl ⟨.notPermitted, by decide, by rw [State.takeRequest_forbidden o]⟩
  | true =>
    rw [State.takeRequest_of o]
    cases r with
    | error e => exact .inl ⟨e, sound.refused e rfl, rfl⟩
    | ok answer => exact .inr ⟨answer.1, answer.2, rfl⟩

/-! ## Every command -/

theorem ZoneMonitor.lift_inBandChange (z : ZoneMonitor) (i : ZoneId) (v : Bool) :
    (z.inBandChange i v).lift = .up ↔ z.lift = .up := by
  unfold ZoneMonitor.inBandChange
  cases e : z.lift <;> simp

theorem State.Settled.exec_input {c : Instr} {s t : State} (k : s.Settled) (port : c.port? = none)
    (run : exec c s = .next t) : t.Settled := by
  cases c
  all_goals first | (cases port; done) | skip
  all_goals (injection run with run; subst run)
  case windowClosedEarly => exact .of k
  case inBandChange h z v =>
    refine .of k (down := fun g => ?_)
    rw [Bool.eq_iff_iff, ← not_iff_not, Bool.not_eq_true, Bool.not_eq_true, State.isDown_eq_false_iff,
      State.isDown_eq_false_iff, State.modZone_eq, State.zone_setZone]
    split
    · next e => subst e; exact ZoneMonitor.lift_inBandChange ..
    · exact .rfl
  case supplyReadyChange =>
    split
    exacts [k, State.settled_settle _]
  case moveDone =>
    split
    exacts [State.settled_settle _, k]
  case moveFault =>
    split
    exacts [State.settled_settle _, k]
  case interlockChange =>
    split
    exacts [k, State.settled_settle _]
  case vacuumChange h wafer =>
    split
    · exact State.settled_settle _
    · exact k.setSeq ⟨rfl, rfl, rfl⟩
  case coldReset x => exact s.settled_coldReset x
  case settleEnd => exact .of k
  case diskSpent =>
    unfold State.spendDisk
    split
    exacts [.of k, k]
  case claimOverdue h =>
    unfold State.claimExpires
    split
    · exact k
    · next c _ =>
      split
      · exact k
      · have marked : (s.modSeq h fun q => { q with claim := some (c.overdue s.beat.claimLimit) }).Settled :=
          k.setSeq ⟨rfl, rfl, rfl⟩
        exact .of marked
  case warmRestart =>
    split
    exacts [State.settled_settle _, k]
  all_goals exact State.settled_settle _

theorem State.Settled.exec {c : Instr} {s t : State} (k : s.Settled) (run : exec c s = .next t) : t.Settled := by
  cases port : c.port? with
  | none => exact k.exec_input port run
  | some q =>
    obtain ⟨r, runs, -, sound⟩ := Instr.exec_request port (Instr.runnable_of_run run) s
    rw [runs] at run
    injection run with run
    exact run ▸ State.settled_takeRequest k _ _ sound

/-- Settles O56: a millisecond ends in settling, and so does every command that writes what the two rules read. -/
theorem settledIsKept : Obligations.SettledIsKept := by
  intro s t k run
  obtain ⟨-, rfl⟩ | ⟨c, rest, -, run⟩ := step_cases run
  · exact State.settled_settle _
  · have rested : State.Settled { s with pending := rest } := .of k
    exact rested.exec run

end Sys2Proof.Machine
end

section
/-!
PROOFS. The queue, the state after reset, RESTART and BEAT_READ (R181, R182), and the form checks of requests (R165, R168, R174),
which follow from the way in which every request is taken.
-/
namespace Sys2Proof.Machine

/-! ## The queue and reset -/

/-- Settles O1: that is what `step` says of a queue with a front. -/
theorem stepRunsTheFrontCommand : Obligations.StepRunsTheFrontCommand := by
  intro c rest s waiting
  rw [step, waiting]

/-- Settles O3: the tables of reset hold one value for all their objects, so each value is read off by the object. -/
theorem resetValues : Obligations.ResetValues := by
  refine ⟨fun d => ?stations, ⟨rfl, rfl, fun p => ?service⟩, fun h => ?carriers, fun h => ?seqs, fun h => ?zones,
    fun p => ?bases, fun p => ?quals, fun p => ?conds, fun p => ?pads, fun p => ?disks, fun l => ?lines, ⟨rfl, rfl⟩, rfl,
    fun q => ?ports, rfl⟩
  case stations =>
    cases d with
    | platen p => cases p <;> exact ⟨rfl, rfl⟩
    | load => exact ⟨rfl, rfl⟩
    | rinse => exact ⟨rfl, rfl⟩
  case service => cases p <;> rfl
  case carriers => cases h <;> exact ⟨rfl, rfl, rfl⟩
  case seqs => cases h <;> exact ⟨rfl, rfl, rfl, rfl, rfl, rfl, rfl, rfl, rfl, rfl, rfl⟩
  case zones => cases h <;> exact ⟨rfl, rfl, rfl⟩
  case bases => cases p <;> rfl
  case quals => cases p <;> rfl
  case conds => cases p <;> rfl
  case pads => cases p <;> rfl
  case disks => cases p <;> rfl
  case lines => cases l <;> exact ⟨rfl, rfl, rfl, rfl⟩
  case ports => cases q <;> exact ⟨rfl, rfl, rfl⟩

theorem State.reset_coldReset : State.reset.coldReset [] = State.reset := rfl

/-- Settles O4: the state after reset is a cold reset of itself, which every invariant survives. -/
theorem resetIsHealthy : Obligations.ResetIsHealthy := by
  have safe := State.tripSafe_coldReset State.reset []
  have kept := State.listsKept_coldReset State.reset []
  have ranges := State.rangesKept_coldReset State.reset []
  have settled := State.settled_coldReset State.reset []
  rw [State.reset_coldReset] at safe kept ranges settled
  obtain ⟨trip, clear⟩ := safe
  obtain ⟨notices, waits, stores⟩ := kept
  obtain ⟨configs, angles, arms, driven⟩ := ranges
  exact { notices, waits, trip, clear, settled, configs, angles, arms, driven, stores }

/-- Settles O30: COLD_RESET is reset with the levels of the field inputs as they are (log entry 28). -/
theorem coldReset : Obligations.ColdReset := by
  intro s selected
  refine ⟨s.coldReset selected, rfl, rfl, rfl, rfl, rfl, rfl, rfl, rfl, rfl, fun h => ?seqs, fun h => ?zones, fun l => ?lines,
    rfl, fun q => ?ports⟩
  case seqs => cases h <;> rfl
  case zones => cases h <;> rfl
  case lines => cases l <;> rfl
  case ports => cases q <;> exact ⟨rfl, rfl, rfl, List.contains_iff_mem⟩

/-! ## RESTART and BEAT_READ -/

/-- Settles O27: neither request has a condition of its own (R181, R182). -/
theorem restartAndBeatRead : Obligations.RestartAndBeatRead := by
  intro s o
  have restart : exec (.restart .recipe []) s = execRestart .recipe [] s := rfl
  have beatRead : exec (.beatRead .recipe []) s = execBeatRead .recipe [] s := rfl
  rw [restart, beatRead, execRestart, execBeatRead, State.takeRequest_recipe o List.length_nil,
    State.takeRequest_recipe o List.length_nil]
  exact ⟨rfl, rfl⟩

/-! ## The form checks that hold of every request -/

theorem Instr.permits_eq_true {c : Instr} {q : Port} (only : ∀ p, c.onlyPort? = some p → q = p) : c.permits q = true := by
  unfold Instr.permits
  cases port : c.onlyPort? with
  | none => rfl
  | some p => exact decide_eq_true (only p port)

theorem Instr.permits_eq_false {c : Instr} {q p : Port} (only : c.onlyPort? = some p) (other : q ≠ p) :
    c.permits q = false := by
  unfold Instr.permits
  rw [only]
  exact decide_eq_false other

theorem Instr.runnable_of_fixedBody {c : Instr} {b : List Byte} {n : Nat} (body : c.fixedBody? = some (b, n)) :
    c.Runnable := by
  rintro p code b rfl
  cases body

section
variable {c : Instr} {q : Port} {s : State} {b : List Byte} {n : Nat}

/-- A permitted request with a body of fixed length is answered by its reply, which begins with the length check. -/
theorem Instr.exec_fixed (port : c.port? = some q) (body : c.fixedBody? = some (b, n))
    (only : ∀ p, c.onlyPort? = some p → q = p) (o : s.opens q) :
    ∃ rest, exec c s = .next (s.reply q (requireLength b n rest)) ∧
      ∀ k, c.named? = some k → k ≤ le8 b 0 → rest = .error .outOfRange := by
  obtain ⟨r, runs, formed, -⟩ := Instr.exec_request port (Instr.runnable_of_fixedBody body) s
  obtain ⟨rest, rfl, named⟩ := formed b n body
  exact ⟨rest, by rw [runs, Instr.permits_eq_true only, State.takeRequest_of o], named⟩

theorem Instr.exec_notPermitted {p : Port} (formed : c.wellFormed = true) (port : c.port? = some q)
    (only : c.onlyPort? = some p) (other : q ≠ p) (o : s.opens q) : exec c s = .next (s.refusal q .notPermitted) := by
  obtain ⟨r, runs, -, -⟩ := Instr.exec_request port (Instr.runnable_of_wellFormed formed) s
  rw [runs, Instr.permits_eq_false only other, State.takeRequest_forbidden o]

theorem Instr.exec_badLength (port : c.port? = some q) (body : c.fixedBody? = some (b, n))
    (only : ∀ p, c.onlyPort? = some p → q = p) (o : s.opens q) (len : b.length ≠ n) :
    exec c s = .next (s.refusal q .badLength) := by
  obtain ⟨rest, runs, -⟩ := Instr.exec_fixed port body only o
  rw [runs, requireLength_not len, State.reply_error]

theorem Instr.exec_unnamed {k : Nat} (port : c.port? = some q) (body : c.fixedBody? = some (b, n))
    (only : ∀ p, c.onlyPort? = some p → q = p) (o : s.opens q) (len : b.length = n) (named : c.named? = some k)
    (out : k ≤ le8 b 0) : exec c s = .next (s.refusal q .outOfRange) := by
  obtain ⟨rest, runs, unnamed⟩ := Instr.exec_fixed port body only o
  rw [runs, requireLength_of len, unnamed k named out, State.reply_error]

end

/-! ## Codes outside their lists -/

theorem boolOf_eq_none {n : Nat} (h : 2 ≤ n) : boolOf n = none := by
  unfold boolOf
  split <;> first | omega | rfl

theorem userFlagOf_eq_none {n : Nat} (h : 2 ≤ n) : userFlagOf n = none := by
  unfold userFlagOf
  split <;> first | omega | rfl

theorem senseOf_eq_none {n : Nat} (h : 2 ≤ n) : senseOf n = none := by
  unfold senseOf
  split <;> first | omega | rfl

theorem holdOf_eq_none {n : Nat} (h : 3 ≤ n) : holdOf n = none := by
  unfold holdOf
  split <;> first | omega | rfl

theorem lineClassOf_eq_none {n : Nat} (h : 3 ≤ n) : lineClassOf n = none := by
  unfold lineClassOf
  split <;> first | omega | rfl

theorem periodOf_eq_none {n : Nat} (h : 3 ≤ n) : periodOf n = none := by
  unfold periodOf
  split <;> first | omega | rfl

theorem markKindOf_eq_none {n : Nat} (h : 3 ≤ n) : markKindOf n = none := by
  unfold markKindOf
  split <;> first | omega | rfl

theorem stationOfCode_eq_none {n : Nat} (h : 5 ≤ n) : stationOfCode n = none := by
  unfold stationOfCode
  split <;> first | omega | rfl

theorem recordLength_eq_none {n : Nat} (h : 3 ≤ n) : recordLength n = none := by
  unfold recordLength
  split <;> first | omega | rfl

theorem servicePlatenOf_eq_none {n : Nat} (h : n = 0 ∨ 4 ≤ n) : servicePlatenOf n = none := by
  match n, h with
  | 0, _ => rfl
  | 4, _ => rfl
  | n + 5, _ => rw [servicePlatenOf, stationOfCode_eq_none (by omega)]

/-! ## Fields refused -/

/-- A field refuses what it does not name, and what its work refuses for every name. -/
theorem requireField_refuses {α : Type} {x : Option α} {r : α → Reply} (k : ∀ a, r a = .error .outOfRange) :
    requireField x r = .error .outOfRange := by
  cases x with
  | none => rfl
  | some a => exact k a

section
variable {s : State} {b : List Byte} {n : Nat} {r : Reply}

theorem State.takeRequest_recipe_outOfRange (o : s.opens .recipe) (len : b.length = n)
    (refuses : r = .error .outOfRange) :
    s.takeRequest .recipe (Port.isRecipe .recipe) (requireLength b n r) = s.refusal .recipe .outOfRange := by
  rw [State.takeRequest_recipe o len, refuses, State.reply_error]

/-! ## Enumerated codes out of their lists, request by request -/

theorem exec_placeHead_outOfRange (o : s.opens .recipe) (len : b.length = 2) (out : 5 ≤ le8 b 1) :
    exec (.placeHead .recipe b) s = .next (s.refusal .recipe .outOfRange) :=
  congrArg _ (State.takeRequest_recipe_outOfRange o len
    (requireField_refuses fun _ => requireField_not (stationOfCode_eq_none out) _))

theorem exec_serviceSet_outOfRange (o : s.opens .recipe) (len : b.length = 2)
    (out : le8 b 0 = 0 ∨ 4 ≤ le8 b 0 ∨ 2 ≤ le8 b 1) :
    exec (.serviceSet .recipe b) s = .next (s.refusal .recipe .outOfRange) := by
  refine congrArg _ (State.takeRequest_recipe_outOfRange o len ?_)
  rcases or_assoc.2 out with station | code
  · exact requireField_not (servicePlatenOf_eq_none station) _
  · exact requireField_refuses fun _ => requireField_not (boolOf_eq_none code) _

theorem exec_hold_outOfRange (o : s.opens .recipe) (len : b.length = 2) (out : 3 ≤ le8 b 1) :
    exec (.hold .recipe b) s = .next (s.refusal .recipe .outOfRange) :=
  congrArg _ (State.takeRequest_recipe_outOfRange o len
    (requireField_refuses fun _ => requireField_not (holdOf_eq_none out) _))

theorem exec_flagSet_outOfRange (o : s.opens .recipe) (len : b.length = 3) (out : 2 ≤ le8 b 1 ∨ 2 ≤ le8 b 2) :
    exec (.flagSet .recipe b) s = .next (s.refusal .recipe .outOfRange) := by
  refine congrArg _ (State.takeRequest_recipe_outOfRange o len (requireField_refuses fun _ => ?_))
  rcases out with flag | value
  · exact requireField_not (userFlagOf_eq_none flag) _
  · exact requireField_refuses fun _ => requireField_not (boolOf_eq_none value) _

theorem exec_lineConfig_outOfRange (o : s.opens .recipe) (len : b.length = 4) (out : 3 ≤ le8 b 1) :
    exec (.lineConfig .recipe b) s = .next (s.refusal .recipe .outOfRange) :=
  congrArg _ (State.takeRequest_recipe_outOfRange o len
    (requireField_refuses fun _ => requireField_not (lineClassOf_eq_none out) _))

theorem exec_moduleConfig_outOfRange (o : s.opens .recipe) (len : b.length = 4) (out : 2 ≤ le8 b 0 ∨ 3 ≤ le8 b 1) :
    exec (.moduleConfig .recipe b) s = .next (s.refusal .recipe .outOfRange) := by
  refine congrArg _ (State.takeRequest_recipe_outOfRange o len ?_)
  rcases out with sense | period
  · exact requireField_not (senseOf_eq_none sense) _
  · exact requireField_refuses fun _ => requireField_not (periodOf_eq_none period) _

theorem exec_mark_outOfRange (o : s.opens .endpoint) (len : b.length = 3) (out : 3 ≤ le8 b 2) :
    exec (.mark .endpoint b) s = .next (s.refusal .endpoint .outOfRange) := by
  have arm : exec (.mark .endpoint b) s = execMark .endpoint b s := rfl
  rw [arm, execMark, Port.isEndpoint_endpoint, State.takeRequest_of o, requireLength_of len,
    requireField_refuses fun _ => requireField_not (markKindOf_eq_none out) _, State.reply_error]

theorem exec_resultRead_outOfRange {q : Port} (o : s.opens q) (len : b.length = 2) (out : 16 ≤ le8 b 1) :
    exec (.resultRead q b) s = .next (s.refusal q .outOfRange) := by
  have arm : exec (.resultRead q b) s = execResultRead q b s := rfl
  have beyond : decide (le8 b 1 < Config.listCapacity) = false := decide_eq_false (Nat.not_lt.2 out)
  rw [arm, execResultRead, State.takeRequest_of o, requireLength_of len,
    requireField_refuses fun _ => require_not beyond .., State.reply_error]

/-! ## LIST_WRITE and NOTICE_ACK, whose lengths vary -/

theorem exec_noticeAck_badLength {q : Port} (o : s.opens q) (bad : 60 < b.length ∨ b.length % 2 = 1) :
    exec (.noticeAck q b) s = .next (s.refusal q .badLength) := by
  have arm : exec (.noticeAck q b) s = execNoticeAck q b s := rfl
  have form : (decide (b.length % 2 = 0) && decide (b.length ≤ Config.maxRequestBody)) = false := by
    rw [Bool.and_eq_false_iff, decide_eq_false_iff_not, decide_eq_false_iff_not, Config.maxRequestBody]
    omega
  rw [arm, execNoticeAck, State.takeRequest_of o, require_not form, State.reply_error]

theorem exec_listWrite (o : s.opens .recipe) :
    exec (.listWrite .recipe b) s = .next (s.reply .recipe (s.listWriteForm b)) :=
  congrArg _ (State.takeRequest_of o _)

theorem recordLength_length {k n : Nat} (h : recordLength k = some n) : n = 9 ∨ n = 10 ∨ n = 37 := by
  unfold recordLength at h
  split at h <;> simp at h <;> omega

/-- The first of the form checks passes a length that some kind has. -/
theorem State.listWriteForm_length (len : b.length = 9 ∨ b.length = 10 ∨ b.length = 37) :
    s.listWriteForm b = requireField (recordLength (le8 b 2)) fun n => requireLength b n
      (requireField (headOf (le8 b 0)) fun h => require (decide (le8 b 1 < Config.listCapacity)) .outOfRange
        (requireField (recordOf b) fun r => s.listWrite h (le8 b 1) r)) :=
  require_of (by simpa only [Bool.or_eq_true, decide_eq_true_eq, or_assoc] using len) ..

theorem State.listWriteForm_noLength (h9 : b.length ≠ 9) (h10 : b.length ≠ 10) (h37 : b.length ≠ 37) :
    s.listWriteForm b = .error .badLength :=
  require_not (by simp only [h9, h10, h37, decide_false, Bool.or_self]) ..

theorem State.listWriteForm_badLength (kind : recordLength (le8 b 2) = some n) (len : b.length ≠ n) :
    s.listWriteForm b = .error .badLength := by
  by_cases some : b.length = 9 ∨ b.length = 10 ∨ b.length = 37
  · rw [State.listWriteForm_length some, requireField_of kind, requireLength_not len]
  · rw [not_or, not_or] at some
    exact State.listWriteForm_noLength some.1 some.2.1 some.2.2

/-- A body with the length of its kind is checked field by field. -/
theorem State.listWriteForm_of (kind : recordLength (le8 b 2) = some b.length) :
    s.listWriteForm b = requireField (headOf (le8 b 0)) fun h =>
      require (decide (le8 b 1 < Config.listCapacity)) .outOfRange
        (requireField (recordOf b) fun r => s.listWrite h (le8 b 1) r) := by
  rw [State.listWriteForm_length (recordLength_length kind), requireField_of kind, requireLength_of rfl]

theorem State.listWriteForm_outOfRange (kind : recordLength (le8 b 2) = some b.length)
    (out : 4 ≤ le8 b 0 ∨ 16 ≤ le8 b 1 ∨ recordOf b = none) : s.listWriteForm b = .error .outOfRange := by
  rw [State.listWriteForm_of kind]
  rcases out with head | index | record
  · exact requireField_not (headOf_eq_none head) _
  · exact requireField_refuses fun _ => require_not (decide_eq_false (Nat.not_lt.2 index)) ..
  · refine requireField_refuses fun _ => ?_
    rw [requireField_not record, require, ite_self]

end

/-! ## The statement -/

/-- Settles O6: the permission and the length checks of every request at once, LIST_WRITE by its kind byte, and the enumerated
codes request by request. -/
theorem portsAndLengthsAreChecked : Obligations.PortsAndLengthsAreChecked := by
  refine ⟨⟨fun c q p s formed port only other o => Instr.exec_notPermitted formed port only other o,
      fun c q b n s port body only o len => Instr.exec_badLength port body only o len,
      fun q b s o bad => exec_noticeAck_badLength o bad⟩,
    fun b s o => ⟨fun long => ?long, fun n kind len => ?badLength, fun kind => ⟨fun h9 h10 h37 => ?noLength, fun len => ?noKind⟩,
      fun kind out => ?badFields, rfl, rfl, rfl⟩,
    fun c q b n k s port body only o len => ?fields⟩
  case long =>
    rw [exec_listWrite o, State.listWriteForm_noLength (by omega) (by omega) (by omega), State.reply_error]
  case badLength => rw [exec_listWrite o, State.listWriteForm_badLength kind len, State.reply_error]
  case noLength => rw [exec_listWrite o, State.listWriteForm_noLength h9 h10 h37, State.reply_error]
  case noKind =>
    rw [exec_listWrite o, State.listWriteForm_length (by omega), requireField_not (recordLength_eq_none kind),
      State.reply_error]
  case badFields => rw [exec_listWrite o, State.listWriteForm_outOfRange kind out, State.reply_error]
  case fields =>
    refine ⟨fun named out => Instr.exec_unnamed port body only o len named out, ?placeHead, ?serviceSet, ?hold, ?flagSet,
      ?lineConfig, ?moduleConfig, ?mark, ?resultRead⟩
    all_goals
      rintro rfl
      cases body
      intro out
    case resultRead => exact exec_resultRead_outOfRange o len out
    all_goals obtain rfl := only _ rfl
    case placeHead => exact exec_placeHead_outOfRange o len out
    case serviceSet => exact exec_serviceSet_outOfRange o len out
    case hold => exact exec_hold_outOfRange o len out
    case flagSet => exact exec_flagSet_outOfRange o len out
    case lineConfig => exact exec_lineConfig_outOfRange o len out
    case moduleConfig => exact exec_moduleConfig_outOfRange o len out
    case mark => exact exec_mark_outOfRange o len out

end Sys2Proof.Machine
end

section
/-!
PROOFS. Step records (R19, R20, R174): what LIST_WRITE stores, and that the bytes of a record are read back as the record. Each
field of the layout is read at its place by one lemma of its width.
-/
namespace Sys2Proof.Machine

/-! ## LIST_WRITE -/

theorem State.lineListed_iff {s : State} {r : StepRecord} :
    s.lineListed r = true ↔ ∀ l, r.line = .line l → (s.line l).cls ≠ .none := by
  unfold State.lineListed
  cases line : r.line <;> simp

/-- A LIST_WRITE with the form of R174 checks the state. -/
theorem exec_listWrite_of {s : State} {b : List Byte} {h : HeadId} {r : StepRecord} (o : s.opens .recipe)
    (kind : recordLength (le8 b 2) = some b.length) (head : headOf (le8 b 0) = some h) (index : le8 b 1 < 16)
    (record : recordOf b = some r) :
    exec (.listWrite .recipe b) s = .next (s.reply .recipe (s.listWrite h (le8 b 1) r)) := by
  have below : decide (le8 b 1 < Config.listCapacity) = true := decide_eq_true index
  rw [exec_listWrite o, State.listWriteForm_of kind, requireField_of head, require_of below, requireField_of record]

/-- Settles O7: past its form LIST_WRITE asks for an open list, then for an index up to its length and a line that has a
class (R20). -/
theorem listWriteStoresTheRecord : Obligations.ListWriteStoresTheRecord := by
  intro s b h r o kind head index record
  rw [exec_listWrite_of o kind head index record, State.listWrite]
  refine ⟨fun unstarted within listed => ?stores, fun placed busy => ?notOpen, fun unstarted out => ?outOfRange⟩
  case stores =>
    have fits : (decide (le8 b 1 ≤ (s.seq h).steps.length) && s.lineListed r) = true := by
      rw [Bool.and_eq_true, decide_eq_true_eq, State.lineListed_iff]
      exact ⟨within, listed⟩
    rw [require_of (HeadState.listOpen_iff.2 unstarted), State.reply_require_accept fits]
    rfl
  case notOpen => rw [State.reply_require_not (HeadState.listOpen_eq_false_iff.2 ⟨placed, busy⟩)]
  case outOfRange =>
    have misfits : (decide (le8 b 1 ≤ (s.seq h).steps.length) && s.lineListed r) = false := by
      rw [Bool.eq_false_iff, Ne, Bool.and_eq_true, decide_eq_true_eq, State.lineListed_iff, not_and_or]
      refine out.imp Nat.not_le.2 ?_
      rintro ⟨l, line, unclassed⟩ listed
      exact listed l line unclassed
    rw [require_of (HeadState.listOpen_iff.2 unstarted), State.reply_require_not misfits]

/-! ## Numbers in bytes (R168) -/

theorem byte_toNat {n : Nat} (h : n < 256) : (BitVec.ofNat 8 n).toNat = n := by
  rw [BitVec.toNat_ofNat]
  omega

theorem bytes_toNat {n : Nat} (h : n < 65536) :
    (BitVec.ofNat 8 n).toNat + 256 * (BitVec.ofNat 8 (n / 256)).toNat = n := by
  rw [BitVec.toNat_ofNat, BitVec.toNat_ofNat]
  omega

section
variable {b xs ys : List Byte} {i n : Nat}

/-- The body has these bytes from byte i on. -/
def ReadsAt (b : List Byte) (i : Nat) (xs : List Byte) : Prop := b.drop i = xs

theorem ReadsAt.le8 (at_ : ReadsAt b i (put8 n ++ xs)) (h : n < 256) : Machine.le8 b i = n := by
  have byte : b.getD i 0 = BitVec.ofNat 8 n := by
    rw [List.getD_eq_getElem?_getD, ← Nat.add_zero i, ← List.getElem?_drop, show b.drop i = _ from at_]
    rfl
  rw [Machine.le8, byte, byte_toNat h]

theorem ReadsAt.append (at_ : ReadsAt b i (xs ++ ys)) : ReadsAt b (i + xs.length) ys := by
  rw [ReadsAt, ← List.drop_drop, show b.drop i = _ from at_, List.drop_left]

theorem ReadsAt.byte {x : Byte} (at_ : ReadsAt b i (x :: xs)) : Machine.le8 b i = x.toNat := by
  have byte : b.getD i 0 = x := by
    rw [List.getD_eq_getElem?_getD, ← Nat.add_zero i, ← List.getElem?_drop, show b.drop i = _ from at_]
    rfl
  rw [Machine.le8, byte]

theorem ReadsAt.tail {x : Byte} (at_ : ReadsAt b i (x :: xs)) : ReadsAt b (i + 1) xs := ReadsAt.append (xs := [x]) at_

theorem ReadsAt.le16 (at_ : ReadsAt b i (put16 n ++ xs)) (h : n < 65536) : Machine.le16 b i = n := by
  rw [Machine.le16, ReadsAt.byte at_, ReadsAt.byte (ReadsAt.tail at_), bytes_toNat h]

theorem ReadsAt.le32 (at_ : ReadsAt b i (put32 n ++ xs)) (h : n < 4294967296) : Machine.le32 b i = n := by
  rw [Machine.le32, Machine.le16, Machine.le16, ReadsAt.byte at_, ReadsAt.byte (ReadsAt.tail at_),
    ReadsAt.byte (ReadsAt.tail (ReadsAt.tail at_)), ReadsAt.byte (ReadsAt.tail (ReadsAt.tail (ReadsAt.tail at_)))]
  simp only [BitVec.toNat_ofNat]
  omega

end

/-! ## Codes are read back -/

theorem stationOfCode_code (d : StationId) : stationOfCode (StationId.code d) = some d := by
  cases d with
  | platen p => cases p <;> rfl
  | load => rfl
  | rinse => rfl

theorem StationId.code_lt (d : StationId) : StationId.code d < 256 := by
  cases d with
  | platen p => cases p <;> decide
  | load => decide
  | rinse => decide

theorem stepLineOf_code (l : StepLine) : stepLineOf l.code = some l := by
  cases l with
  | line l => cases l <;> rfl
  | rinse => rfl
  | none => rfl

theorem StepLine.code_lt (l : StepLine) : l.code < 256 := by
  cases l with
  | line l => cases l <;> decide
  | rinse => decide
  | none => decide

theorem clockOf_code (c : StepClock) : clockOf c.code = some c := by cases c <;> rfl
theorem StepClock.code_lt (c : StepClock) : c.code < 256 := by cases c <;> decide
theorem terminationOf_code (t : Termination) : terminationOf t.code = some t := by cases t <;> rfl
theorem Termination.code_lt (t : Termination) : t.code < 256 := by cases t <;> decide
theorem toNat_lt_256 (v : Bool) : v.toNat < 256 := by cases v <;> decide

/-! ## The record -/

section
variable {h i : Byte} {r : StepRecord}

theorem guardOf_putRecord : guardOf (h :: i :: putRecord r) = some r.guard := by
  obtain ⟨g, a, k⟩ := r
  match g with
  | none => rfl
  | some ⟨f, x⟩ => cases f <;> cases x <;> rfl

theorem actionOf_putRecord :
    optField (le8 (h :: i :: putRecord r) 6) (actionOf (le8 (h :: i :: putRecord r) 7)) = some r.action := by
  obtain ⟨g, a, k⟩ := r
  match g, a with
  | none, none | some _, none => rfl
  | none, some ⟨f, v⟩ | some _, some ⟨f, v⟩ => cases f <;> cases v <;> rfl

/-- The head bytes of a record, its kind, guard and action, are six: its fields begin at byte 8 of the body. -/
theorem fields_putRecord : ReadsAt (h :: i :: putRecord r) 8 (putFields r.kind) := by
  obtain ⟨g, a, k⟩ := r
  match g, a with
  | none, none | some _, none | none, some _ | some _, some _ => rfl

end

/-- The POLISH fields lie from byte 8 on, each after those before it. -/
theorem polishOf_fields {b : List Byte} {r : PolishRecord} (at_ : ReadsAt b 8 (putPolish r)) (ranges : r.inRange = true) :
    polishOf b = some r := by
  simp only [PolishRecord.inRange, Bool.and_eq_true, inRange_iff] at ranges
  obtain ⟨⟨⟨⟨⟨⟨⟨⟨⟨⟨⟨⟨limit, settle⟩, opFixed⟩, opPercent⟩, gap⟩, flow⟩, speed⟩, gapPressure⟩, z1⟩, z2⟩, z3⟩, z4⟩, ring⟩ :=
    ranges
  simp only [putPolish, List.append_assoc] at at_
  have clock : le8 b 8 = r.clock.code := at_.le8 r.clock.code_lt
  replace at_ := at_.append
  have limit_eq : le32 b 9 = r.limit := at_.le32 (by omega)
  replace at_ := at_.append
  have termination : le8 b 13 = r.termination.code := at_.le8 r.termination.code_lt
  replace at_ := at_.append
  have settle_eq : le8 b 14 = r.settle := at_.le8 (by omega)
  replace at_ := at_.append
  have opFixed_eq : le16 b 15 = r.opFixed := at_.le16 (by omega)
  replace at_ := at_.append
  have opPercent_eq : le8 b 17 = r.opPercent := at_.le8 (by omega)
  replace at_ := at_.append
  have gap_eq : le16 b 18 = r.gap := at_.le16 (by omega)
  replace at_ := at_.append
  have line : le8 b 20 = r.line.code := at_.le8 r.line.code_lt
  replace at_ := at_.append
  have flow_eq : le16 b 21 = r.flow := at_.le16 (by omega)
  replace at_ := at_.append
  have speed_eq : le8 b 23 = r.speed := at_.le8 (by omega)
  replace at_ := at_.append
  have gapPressure_eq : le16 b 24 = r.gapPressure := at_.le16 (by omega)
  replace at_ := at_.append
  have z1_eq : le16 b 26 = r.zones.z1 := at_.le16 (by omega)
  replace at_ := at_.append
  have z2_eq : le16 b 28 = r.zones.z2 := at_.le16 (by omega)
  replace at_ := at_.append
  have z3_eq : le16 b 30 = r.zones.z3 := at_.le16 (by omega)
  replace at_ := at_.append
  have z4_eq : le16 b 32 = r.zones.z4 := at_.le16 (by omega)
  replace at_ := at_.append
  have ring_eq : le16 b 34 = r.zones.ring := at_.le16 (by omega)
  replace at_ := at_.append
  have inSitu : le8 b 36 = r.inSitu.toNat := ReadsAt.le8 (xs := []) at_ (toNat_lt_256 r.inSitu)
  have valid : (inRange 1 4000000 (le32 b 9) && inRange 0 100 (le8 b 17) && inRange 0 500 (le16 b 21) &&
      inRange 10 150 (le8 b 23) && inRange 0 700 (le16 b 24) && inRange 0 700 (le16 b 26) &&
      inRange 0 700 (le16 b 28) && inRange 0 700 (le16 b 30) && inRange 0 700 (le16 b 32) &&
      inRange 0 700 (le16 b 34)) = true := by
    simp only [Bool.and_eq_true, inRange_iff]
    omega
  rw [polishOf, valid, guardOpt, if_pos rfl, clock, termination, line, inSitu, clockOf_code, terminationOf_code,
    stepLineOf_code, boolOf_toNat, limit_eq, settle_eq, opFixed_eq, opPercent_eq, gap_eq, flow_eq, speed_eq,
    gapPressure_eq, z1_eq, z2_eq, z3_eq, z4_eq, ring_eq]

theorem stepKindOf_putRecord {h i : Byte} {r : StepRecord} (ranges : r.inRange = true) :
    stepKindOf (h :: i :: putRecord r) = some r.kind := by
  have fields := fields_putRecord (h := h) (i := i) (r := r)
  unfold StepRecord.inRange at ranges
  cases kind : r.kind with
  | move d =>
    rw [kind] at fields
    have code : le8 (h :: i :: putRecord r) 2 = 0 := by rw [putRecord, kind]; rfl
    have station := ReadsAt.le8 (xs := []) fields (StationId.code_lt d)
    rw [stepKindOf, code, station, stationOfCode_code]
    rfl
  | polish p =>
    rw [kind] at fields ranges
    have code : le8 (h :: i :: putRecord r) 2 = 1 := by rw [putRecord, kind]; rfl
    rw [stepKindOf, code, polishOf_fields fields ranges]
    rfl
  | dwell n =>
    rw [kind] at fields ranges
    have code : le8 (h :: i :: putRecord r) 2 = 2 := by rw [putRecord, kind]; rfl
    obtain ⟨low, high⟩ := inRange_iff.1 ranges
    have duration := ReadsAt.le16 (xs := []) fields (show n < 65536 by omega)
    rw [stepKindOf, code, duration, guardOpt, decide_eq_true low, if_pos rfl]
    rfl

theorem putFields_length (k : StepKind) : recordLength k.kindCode = some (8 + (putFields k).length) := by
  have byte (n : Nat) : (put8 n).length = 1 := rfl
  have word (n : Nat) : (put16 n).length = 2 := rfl
  have long (n : Nat) : (put32 n).length = 4 := rfl
  have bit (v : Bool) : (putBool v).length = 1 := rfl
  cases k with
  | move d => rfl
  | polish p => simp only [putFields, putPolish, List.length_append, byte, word, long, bit, StepKind.kindCode, recordLength]
  | dwell n => rfl

/-- The kind decides the length of the fields, and they follow eight bytes. -/
theorem recordLength_putRecord {h i : Byte} {r : StepRecord} :
    recordLength (le8 (h :: i :: putRecord r) 2) = some (h :: i :: putRecord r).length := by
  obtain ⟨g, a, k⟩ := r
  have guard : (putGuard g).length = 3 := by cases g <;> rfl
  have action : (putOpt 1 (a.map fun x => put8 x.code)).length = 2 := by cases a <;> rfl
  have front : (h :: i :: putRecord ⟨g, a, k⟩).length = 8 + (putFields k).length := by
    rw [putRecord, List.length_cons, List.length_cons, List.length_append, List.length_append, List.length_append, guard,
      action, show (put8 _).length = 1 from rfl]
    dsimp only
    omega
  have code : le8 (h :: i :: putRecord ⟨g, a, k⟩) 2 = k.kindCode := by cases k <;> rfl
  rw [front, code, putFields_length]

theorem recordOf_putRecord {h i : Byte} {r : StepRecord} (ranges : r.inRange = true) :
    recordOf (h :: i :: putRecord r) = some r := by
  rw [recordOf, guardOf_putRecord, actionOf_putRecord, stepKindOf_putRecord ranges]

/-- Settles O9: guard, action and kind are read back one by one, and the kind byte gives the length. -/
theorem recordsReadBack : Obligations.RecordsReadBack := by
  intro h i r ranges
  exact ⟨recordOf_putRecord ranges, recordLength_putRecord, rfl, rfl⟩

end Sys2Proof.Machine
end

section
/-!
PROOFS. Reading a state after settling and after an answer: what neither changes, and where a notice raised is found (R54, R138,
R165, R169).
-/
namespace Sys2Proof.Machine

/-! ## Modifiers and notices

`simp` takes a modifier for the setter it is, and reads past a notice. -/

section
variable (s : State)

@[simp] theorem State.modStation_set (i : StationId) (f : Station → Station) : s.modStation i f = s.setStation i (f (s.station i)) := rfl
@[simp] theorem State.modCarrier_set (i : HeadId) (f : Carrier → Carrier) : s.modCarrier i f = s.setCarrier i (f (s.carrier i)) := rfl
@[simp] theorem State.modSeq_set (i : HeadId) (f : Sequencer → Sequencer) : s.modSeq i f = s.setSeq i (f (s.seq i)) := rfl
@[simp] theorem State.modZone_set (i : HeadId) (f : ZoneMonitor → ZoneMonitor) : s.modZone i f = s.setZone i (f (s.zone i)) := rfl
@[simp] theorem State.modBase_set (i : PlatenId) (f : Timebase → Timebase) : s.modBase i f = s.setBase i (f (s.base i)) := rfl
@[simp] theorem State.modQual_set (i : PlatenId) (f : Qualifier → Qualifier) : s.modQual i f = s.setQual i (f (s.qual i)) := rfl
@[simp] theorem State.modCond_set (i : PlatenId) (f : Conditioner → Conditioner) : s.modCond i f = s.setCond i (f (s.cond i)) := rfl
@[simp] theorem State.modPad_set (i : PlatenId) (f : Pad → Pad) : s.modPad i f = s.setPad i (f (s.pad i)) := rfl
@[simp] theorem State.modDisk_set (i : PlatenId) (f : Disk → Disk) : s.modDisk i f = s.setDisk i (f (s.disk i)) := rfl
@[simp] theorem State.modLine_set (i : LineId) (f : Line → Line) : s.modLine i f = s.setLine i (f (s.line i)) := rfl

variable (q : Port) (n : Notice)

@[simp] theorem State.station_raise (i : StationId) : (s.raise q n).station i = s.station i := rfl
@[simp] theorem State.carrier_raise (i : HeadId) : (s.raise q n).carrier i = s.carrier i := rfl
@[simp] theorem State.seq_raise (i : HeadId) : (s.raise q n).seq i = s.seq i := rfl
@[simp] theorem State.zone_raise (i : HeadId) : (s.raise q n).zone i = s.zone i := rfl
@[simp] theorem State.base_raise (i : PlatenId) : (s.raise q n).base i = s.base i := rfl
@[simp] theorem State.qual_raise (i : PlatenId) : (s.raise q n).qual i = s.qual i := rfl
@[simp] theorem State.cond_raise (i : PlatenId) : (s.raise q n).cond i = s.cond i := rfl
@[simp] theorem State.pad_raise (i : PlatenId) : (s.raise q n).pad i = s.pad i := rfl
@[simp] theorem State.disk_raise (i : PlatenId) : (s.raise q n).disk i = s.disk i := rfl
@[simp] theorem State.line_raise (i : LineId) : (s.raise q n).line i = s.line i := rfl
@[simp] theorem State.trip_raise : (s.raise q n).trip = s.trip := rfl
@[simp] theorem State.beat_raise : (s.raise q n).beat = s.beat := rfl

end

/-! ## Settling -/

section
variable (s : State)

@[simp] theorem State.station_settle (d : StationId) : s.settle.station d = s.station d :=
  congrArg (·.get d) (SettleKept.settle s).stations
@[simp] theorem State.carrier_settle (h : HeadId) : s.settle.carrier h = s.carrier h :=
  congrArg (·.get h) (SettleKept.settle s).carriers
@[simp] theorem State.seq_settle (h : HeadId) : s.settle.seq h = s.seq h :=
  congrArg (·.get h) (SettleKept.settle s).seqs
@[simp] theorem State.zone_settle (h : HeadId) : s.settle.zone h = s.zone h :=
  congrArg (·.get h) (SettleKept.settle s).zones
@[simp] theorem State.qual_settle (p : PlatenId) : s.settle.qual p = s.qual p :=
  congrArg (·.get p) (SettleKept.settle s).quals
@[simp] theorem State.pad_settle (p : PlatenId) : s.settle.pad p = s.pad p :=
  congrArg (·.get p) (SettleKept.settle s).pads
@[simp] theorem State.line_settle (l : LineId) : s.settle.line l = s.line l :=
  congrArg (·.get l) (SettleKept.settle s).lines
@[simp] theorem State.trip_settle : s.settle.trip = s.trip := (SettleKept.settle s).trip
@[simp] theorem State.beat_settle : s.settle.beat = s.beat := (SettleKept.settle s).beat
@[simp] theorem State.isDown_settle (h : HeadId) : s.settle.isDown h = s.isDown h := (SettleKept.settle s).isDown h
@[simp] theorem State.endpoint_settle : s.settle.port .endpoint = s.port .endpoint := (SettleKept.settle s).endpointPort
@[simp] theorem State.transfer_settle : s.settle.port .transfer = s.port .transfer := (SettleKept.settle s).transferPort

/-! ## Accepted requests -/

@[simp] theorem State.station_accepted (q : Port) (d : StationId) : (s.accepted q).station d = s.station d := s.station_settle d
@[simp] theorem State.carrier_accepted (q : Port) (h : HeadId) : (s.accepted q).carrier h = s.carrier h := s.carrier_settle h
@[simp] theorem State.seq_accepted (q : Port) (h : HeadId) : (s.accepted q).seq h = s.seq h := s.seq_settle h
@[simp] theorem State.zone_accepted (q : Port) (h : HeadId) : (s.accepted q).zone h = s.zone h := s.zone_settle h
@[simp] theorem State.qual_accepted (q : Port) (p : PlatenId) : (s.accepted q).qual p = s.qual p := s.qual_settle p
@[simp] theorem State.pad_accepted (q : Port) (p : PlatenId) : (s.accepted q).pad p = s.pad p := s.pad_settle p
@[simp] theorem State.line_accepted (q : Port) (l : LineId) : (s.accepted q).line l = s.line l := s.line_settle l
@[simp] theorem State.trip_accepted (q : Port) : (s.accepted q).trip = s.trip := s.trip_settle
@[simp] theorem State.beat_accepted (q : Port) : (s.accepted q).beat = s.beat := s.beat_settle
@[simp] theorem State.isDown_accepted (q : Port) (h : HeadId) : (s.accepted q).isDown h = s.isDown h := s.isDown_settle h
@[simp] theorem State.base_accepted (q : Port) (p : PlatenId) : (s.accepted q).base p = s.settle.base p := by
  rw [State.accepted, State.respond, State.modPort_eq, State.base_setPort]
@[simp] theorem State.cond_accepted (q : Port) (p : PlatenId) : (s.accepted q).cond p = s.settle.cond p := by
  rw [State.accepted, State.respond, State.modPort_eq, State.cond_setPort]

@[simp] theorem State.response_accepted (q : Port) : ((s.accepted q).port q).response = some ⟨.ok, []⟩ := by
  rw [State.accepted, State.respond, State.modPort_eq, State.port_setPort_self]

@[simp] theorem State.notices_respond (q r : Port) (e : Status) (b : List Byte) :
    ((s.respond q e b).port r).notices = (s.port r).notices := by
  rw [State.respond, State.modPort_eq, State.port_setPort]
  split
  · next same => rw [same]
  · rfl

@[simp] theorem State.notices_accepted (q r : Port) : ((s.accepted q).port r).notices = (s.settle.port r).notices :=
  State.notices_respond ..

end

/-! ## Notices -/

theorem mem_catalogue_iff {q : Port} {n : Notice} : n ∈ catalogue q ↔ (n.kind q).isSome = true := by
  cases n with
  | tripped | restarted => cases q <;> decide
  | listDone x | halted x | intervened x | contextLost x | lineWait x | moveCycle x | claimOverdue x | readyUnload x
  | readyLoad x | claimRevoked x => cases q <;> cases x <;> decide
  | lineFault x => cases q <;> cases x <;> decide
  | padWarn x | padRetired x | runDone x | diskSpent x | encoderSlip x | watchOpen x | watchClosed x | confirmed x =>
    cases q <;> cases x <;> decide

theorem Cascade.notice {s t : State} {q : Port} {n : Notice} (c : Cascade s t) (raised : n ∈ (s.port q).notices)
    (held : (n.kind q).isSome = true := by rfl) : n ∈ (t.port q).notices :=
  (c.port q).mono n raised (mem_catalogue_iff.2 held)

theorem State.notice_raise {s : State} {q : Port} {n : Notice} (held : (n.kind q).isSome = true := by rfl) :
    n ∈ ((s.raise q n).port q).notices := by
  rw [State.raise, State.modPort_eq, State.port_setPort_self]
  exact mem_addNotice.2 ⟨mem_catalogue_iff.2 held, .inl rfl⟩

/-- A notice that is pending before the last settling of a request is pending after it. -/
theorem State.notice_accepted {s : State} {q r : Port} {n : Notice} (raised : n ∈ (s.port r).notices)
    (held : (n.kind r).isSome = true := by rfl) : n ∈ ((s.accepted q).port r).notices := by
  rw [State.notices_accepted]
  exact (Cascade.settle s).notice raised held

/-- A notice raised is pending at the end of the cascade that raises it. -/
theorem Cascade.raised {s t : State} {q : Port} {n : Notice} (c : Cascade (s.raise q n) t)
    (held : (n.kind q).isSome = true := by rfl) : n ∈ (t.port q).notices :=
  c.notice (State.notice_raise held) held

/-! ## The two decisions of settling -/

theorem State.outer_settle (s : State) (p : PlatenId) : (s.settle.cond p).outer = s.outerWanted p :=
  (State.settledAt_settle s p).1.trans ((SettleKept.settle s).outerWanted p)

/-- One platen's turn of settling. -/
def State.settlePlaten (s : State) (p : PlatenId) : State := (s.refreshOuter p).refreshSpeed p

theorem State.settle_eq (s : State) : s.settle = ((s.settlePlaten .p1).settlePlaten .p2).settlePlaten .p3 := rfl

theorem SettleKept.settlePlaten (s : State) (p : PlatenId) : SettleKept s (s.settlePlaten p) :=
  (SettleKept.refreshOuter s p).trans (.refreshSpeed ..)

/-- What a platen's turn makes of that platen, where no other platen's turn has a part in it, is what settling makes of it. -/
theorem State.settle_turn {α : Type} {view made : State → PlatenId → α}
    (own : ∀ t p, view (State.settlePlaten t p) p = made t p)
    (other : ∀ t p j, j ≠ p → view (State.settlePlaten t p) j = view t j)
    (apart : ∀ t p j, j ≠ p → made (State.settlePlaten t p) j = made t j) (s : State) (p : PlatenId) :
    view s.settle p = made s p := by
  rw [State.settle_eq]
  cases p with
  | p1 => rw [other _ _ _ (by decide), other _ _ _ (by decide), own]
  | p2 => rw [other _ _ _ (by decide), own, apart _ _ _ (by decide)]
  | p3 => rw [own, apart _ _ _ (by decide), apart _ _ _ (by decide)]

theorem State.base_settlePlaten (s : State) (p j : PlatenId) :
    (s.settlePlaten p).base j = if j = p then (s.base p).setSpeed (s.speedWanted p) else s.base j :=
  (State.settleOne s p j).2

theorem State.base_settle (s : State) (p : PlatenId) : s.settle.base p = (s.base p).setSpeed (s.speedWanted p) :=
  State.settle_turn (view := State.base) (made := fun t p => (t.base p).setSpeed (t.speedWanted p))
    (fun t p => by rw [State.base_settlePlaten, if_pos rfl])
    (fun t p j ne => by rw [State.base_settlePlaten, if_neg ne])
    (fun t p j ne => by rw [State.base_settlePlaten, if_neg ne, (SettleKept.settlePlaten t p).speedWanted]) s p

theorem State.speed_settle (s : State) (p : PlatenId) : (s.settle.base p).speed = s.speedWanted p := by
  rw [State.base_settle, Timebase.setSpeed]
  grind

/-- The unit turns at once when K comes into force (R138). -/
def Conditioner.turnsAt (c : Conditioner) (g : PlatenConfig) (want : OuterLimit) : Bool :=
  decide (want = .keepOut) && decide (c.outer = .outer) && c.mustTurn g

/-- The unit with its outer limit decided (R138, R140). -/
def Conditioner.decided (c : Conditioner) (g : PlatenConfig) (want : OuterLimit) : Conditioner :=
  if c.turnsAt g want then { c.countSweep with outer := want, direction := .inward } else { c with outer := want }

theorem State.refreshOuter_eq (s : State) (p : PlatenId) :
    s.refreshOuter p =
      if (s.cond p).turnsAt (s.base p).config (s.outerWanted p) then
        (s.setCond p ((s.cond p).decided (s.base p).config (s.outerWanted p))).diskSweep p
      else s.setCond p ((s.cond p).decided (s.base p).config (s.outerWanted p)) := by
  unfold State.refreshOuter Conditioner.decided
  have turn : (s.outerWanted p = .keepOut ∧ (s.cond p).outer = .outer ∧
      (s.cond p).mustTurn (s.base p).config = true) ↔
      (s.cond p).turnsAt (s.base p).config (s.outerWanted p) = true := by
    simp [Conditioner.turnsAt, and_assoc]
  simp only [turn]
  split <;> rfl

theorem State.cond_refreshOuter (s : State) (p j : PlatenId) :
    (s.refreshOuter p).cond j =
      if j = p then (s.cond p).decided (s.base p).config (s.outerWanted p) else s.cond j := by
  rw [State.refreshOuter_eq]
  split
  · rw [State.cond_diskSweep, State.cond_setCond]
  · rw [State.cond_setCond]

theorem State.disk_diskSweep (s : State) (p j : PlatenId) :
    (s.diskSweep p).disk j = if j = p then (s.disk p).sweep.1 else s.disk j := by
  unfold State.diskSweep
  dsimp only
  split
  · rw [State.disk_raise, State.disk_setDisk]
  · rw [State.disk_setDisk]

theorem State.disk_refreshOuter (s : State) (p j : PlatenId) :
    (s.refreshOuter p).disk j =
      if j = p ∧ (s.cond p).turnsAt (s.base p).config (s.outerWanted p) = true then (s.disk p).sweep.1
      else s.disk j := by
  rw [State.refreshOuter_eq]
  split
  · next turns => simp only [State.disk_diskSweep, State.disk_setCond, turns, and_true]
  · next calm => rw [State.disk_setCond, if_neg fun h => calm h.2]

theorem State.cond_settlePlaten (s : State) (p j : PlatenId) :
    (s.settlePlaten p).cond j =
      if j = p then (s.cond p).decided (s.base p).config (s.outerWanted p) else s.cond j := by
  rw [State.settlePlaten, State.cond_refreshSpeed, State.cond_refreshOuter]

theorem State.cond_settle (s : State) (p : PlatenId) :
    s.settle.cond p = (s.cond p).decided (s.base p).config (s.outerWanted p) :=
  State.settle_turn (view := State.cond) (made := fun t p => (t.cond p).decided (t.base p).config (t.outerWanted p))
    (fun t p => by rw [State.cond_settlePlaten, if_pos rfl])
    (fun t p j ne => by rw [State.cond_settlePlaten, if_neg ne])
    (fun t p j ne => by
      have kept := SettleKept.settlePlaten t p
      rw [State.cond_settlePlaten, if_neg ne, kept.config, kept.outerWanted]) s p

theorem State.disk_settlePlaten (s : State) (p j : PlatenId) :
    (s.settlePlaten p).disk j =
      if j = p ∧ (s.cond p).turnsAt (s.base p).config (s.outerWanted p) = true then (s.disk p).sweep.1
      else s.disk j := by
  rw [← State.disk_refreshOuter]
  rfl

theorem State.disk_settle (s : State) (p : PlatenId) :
    s.settle.disk p =
      if (s.cond p).turnsAt (s.base p).config (s.outerWanted p) = true then (s.disk p).sweep.1 else s.disk p :=
  State.settle_turn (view := State.disk)
    (made := fun t p => if (t.cond p).turnsAt (t.base p).config (t.outerWanted p) = true then (t.disk p).sweep.1 else t.disk p)
    (fun t p => by simp only [State.disk_settlePlaten, true_and])
    (fun t p j ne => by rw [State.disk_settlePlaten, if_neg fun both => ne both.1])
    (fun t p j ne => by
      have kept := SettleKept.settlePlaten t p
      have still : (t.settlePlaten p).disk j = t.disk j := by rw [State.disk_settlePlaten, if_neg fun both => ne both.1]
      rw [State.cond_settlePlaten, if_neg ne, still, kept.config, kept.outerWanted]) s p

/-- A unit whose outer limit is O by its rule does not turn, and changes in nothing else. -/
theorem State.cond_settle_outer {s : State} {p : PlatenId} (outer : s.outerWanted p = .outer) :
    s.settle.cond p = { s.cond p with outer := .outer } := by
  have calm : (s.cond p).turnsAt (s.base p).config .outer = false := rfl
  rw [State.cond_settle, outer, Conditioner.decided, calm]
  rfl

end Sys2Proof.Machine
end

section
/-!
PROOFS. The configuration requests HEAD_CONFIG, PLATEN_CONFIG, MODULE_CONFIG and SERVICE_SET (R16, R64, R74, R129, R180), CONDITION_NOW
(R161) and the claim requests (R43, R46): each is brought to the work past its form checks, and what is left are the conditions
that its work checks.
-/
namespace Sys2Proof.Machine

/-! ## HEAD_CONFIG and PLATEN_CONFIG -/

theorem HeadState.configOpen_eq_false_iff {x : HeadState} :
    x.configOpen = false ↔ x = .running ∨ ∃ e, x = .closing e := by
  cases x <;> simp [HeadState.configOpen]

/-- The ranges of a HEAD_CONFIG body (R74). -/
theorem headConfigValid_iff {b : List Byte} :
    (inRange 0 700 (le16 b 1) && inRange 100 10000 (le16 b 3) && inRange 1000 60000 (le16 b 5)) = true ↔
      le16 b 1 ≤ 700 ∧ 100 ≤ le16 b 3 ∧ le16 b 3 ≤ 10000 ∧ 1000 ≤ le16 b 5 ∧ le16 b 5 ≤ 60000 := by
  simp only [Bool.and_eq_true, inRange_iff]
  omega

theorem PlatenConfig.valid_platenConfigOf_iff {b : List Byte} :
    (platenConfigOf b).valid = true ↔
      100 ≤ le16 b 1 ∧ le16 b 1 ≤ 4000 ∧ (le8 b 3 = 1 ∨ le8 b 3 = 4) ∧ 2 * le8 b 4 < le16 b 1 * le8 b 3 ∧
        50 ≤ le16 b 5 ∧ le16 b 5 ≤ 5000 ∧ le16 b 7 < le16 b 1 * le8 b 3 ∧ 1 ≤ le8 b 9 ∧ le8 b 9 ≤ 7 ∧
        10 ≤ le8 b 10 ∧ le8 b 10 ≤ 150 ∧ le16 b 11 < le16 b 13 ∧ le16 b 13 < le16 b 15 ∧ le16 b 15 ≤ le16 b 17 ∧
        100 ≤ le16 b 19 ∧ le16 b 19 ≤ 20000 ∧ le16 b 21 ≤ 400 := by
  have tolerance := le8_lt b 4
  have outer := le16_lt b 17
  have cpr : (platenConfigOf b).cpr = le16 b 1 * le8 b 3 := rfl
  simp only [PlatenConfig.valid, Bool.and_eq_true, Bool.or_eq_true, decide_eq_true_eq, inRange_iff, cpr]
  dsimp only [platenConfigOf]
  omega

section
variable {s : State} {b : List Byte} {h : HeadId} {p : PlatenId}

theorem exec_headConfig (o : s.opens .recipe) (len : b.length = 7) (head : headOf (le8 b 0) = some h) :
    exec (.headConfig .recipe b) s = .next (s.reply .recipe
      (require (inRange 0 700 (le16 b 1) && inRange 100 10000 (le16 b 3) && inRange 1000 60000 (le16 b 5)) .outOfRange
        (s.headConfig h (le16 b 1) (le16 b 3) (le16 b 5)))) := by
  have arm : exec (.headConfig .recipe b) s = execHeadConfig .recipe b s := rfl
  rw [arm, execHeadConfig, State.takeRequest_recipe o len, requireField_of head]

theorem exec_platenConfig (o : s.opens .recipe) (len : b.length = 23) (platen : platenOfCode (le8 b 0) = some p) :
    exec (.platenConfig .recipe b) s = .next (s.reply .recipe
      (require (platenConfigOf b).valid .outOfRange (s.platenConfig p (platenConfigOf b)))) := by
  have arm : exec (.platenConfig .recipe b) s = execPlatenConfig .recipe b s := rfl
  rw [arm, execPlatenConfig, State.takeRequest_recipe o len, requireField_of platen]

end

/-- Settles O17: HEAD_CONFIG asks for a head that runs no list (R74), PLATEN_CONFIG for a platen OUT of service (R64). -/
theorem headAndPlatenConfig : Obligations.HeadAndPlatenConfig := by
  refine ⟨fun s b h o len head => ⟨fun r1 r2 r3 r4 r5 => ⟨fun open_ => ?headSet, fun busy => ?headBusy⟩, fun bad => ?headRange⟩,
    fun s b p o len platen => ⟨fun valid out => ?platenSet, fun valid inn => ?platenIn, fun bad => ?platenRange⟩,
    fun b => ⟨rfl, PlatenConfig.valid_platenConfigOf_iff⟩⟩
  case headSet =>
    rw [exec_headConfig o len head, require_of (headConfigValid_iff.2 ⟨r1, r2, r3, r4, r5⟩), State.headConfig,
      State.reply_require_accept open_]
  case headBusy =>
    rw [exec_headConfig o len head, require_of (headConfigValid_iff.2 ⟨r1, r2, r3, r4, r5⟩), State.headConfig,
      State.reply_require_not (HeadState.configOpen_eq_false_iff.2 busy)]
  case headRange =>
    have invalid : (inRange 0 700 (le16 b 1) && inRange 100 10000 (le16 b 3) && inRange 1000 60000 (le16 b 5)) = false := by
      rw [Bool.eq_false_iff, Ne, headConfigValid_iff]
      omega
    rw [exec_headConfig o len head, State.reply_require_not invalid]
  case platenSet =>
    rw [exec_platenConfig o len platen, require_of valid, State.platenConfig, State.reply_require_accept (by rw [out]; rfl)]
    rfl
  case platenIn =>
    rw [exec_platenConfig o len platen, require_of valid, State.platenConfig, State.reply_require_not (by rw [inn]; rfl)]
  case platenRange => rw [exec_platenConfig o len platen, State.reply_require_not bad]

/-! ## MODULE_CONFIG -/

/-- The state in which a MODULE_CONFIG checks for a trip (R129, R180). -/
def State.moduleConfigured (s : State) (x : InterlockSense) (p : BeatPeriod) (limit : Nat) : State :=
  { s with
    seqs := if limit = s.beat.claimLimit then s.seqs else s.seqs.map Sequencer.newLimit
    beat := s.beat.configure p limit
    trip := { s.trip with sense := x } }

theorem State.moduleConfig_eq (s : State) (x : InterlockSense) (p : BeatPeriod) (limit : Nat) :
    s.moduleConfig x p limit = Machine.accept (s.moduleConfigured x p limit).checkTrip := by
  unfold State.moduleConfig State.moduleConfigured
  by_cases same : limit = s.beat.claimLimit
  · simp only [if_pos same]
    rfl
  · simp only [if_neg same]
    rfl

theorem exec_moduleConfig {s : State} {b : List Byte} {x : InterlockSense} {p : BeatPeriod} (o : s.opens .recipe)
    (len : b.length = 4) (sense : senseOf (le8 b 0) = some x) (period : periodOf (le8 b 1) = some p) :
    exec (.moduleConfig .recipe b) s = .next (s.reply .recipe
      (require (inRange 1 65535 (le16 b 2)) .outOfRange (s.moduleConfig x p (le16 b 2)))) := by
  have arm : exec (.moduleConfig .recipe b) s = execModuleConfig .recipe b s := rfl
  rw [arm, execModuleConfig, State.takeRequest_recipe o len, requireField_of sense, requireField_of period]

/-- A two-byte field with the range 1 to 65535 is refused at 0 alone. -/
theorem inRange_le16_iff {b : List Byte} {i : Nat} : inRange 1 65535 (le16 b i) = true ↔ 1 ≤ le16 b i := by
  have below := le16_lt b i
  rw [inRange_iff]
  omega

/-- No trip is made where the module is tripped or the input stands off the trip level. -/
theorem State.checkTrip_of_clear {s : State} (h : s.trip.tripped = true ∨ s.trip.sense.level ≠ s.trip.input) :
    s.checkTrip = s := by
  have off : (!s.trip.tripped && s.trip.atLevel) = false := by
    rw [Bool.and_eq_false_iff, Bool.not_eq_false', TripUnit.atLevel, decide_eq_false_iff_not]
    exact h.imp_right Ne.symm
  rw [State.checkTrip, off]
  rfl

theorem State.checkTrip_of_level {s : State} (clear : s.trip.tripped = false) (level : s.trip.sense.level = s.trip.input) :
    s.checkTrip = s.tripModule := by
  have on : (!s.trip.tripped && s.trip.atLevel) = true := by
    rw [clear, TripUnit.atLevel, decide_eq_true level.symm]
    rfl
  rw [State.checkTrip, on]
  rfl

theorem State.tripped_raised (s : State) :
    .tripped ∈ (s.tripModule.port .recipe).notices ∧ .tripped ∈ (s.tripModule.port .transfer).notices := by
  have rest : Cascade ((s.tripMade.raise .recipe .tripped).raise .transfer .tripped) s.tripModule :=
    ((((Cascade.foldl (fun _ _ => .haltMove ..) _ _).trans (.mapLines fun _ => .tripped _ _)).trans
      (.foldl (fun _ _ => .modCond (.suspend ..)) _ _)).trans (.foldl (fun _ _ => .takeCause ..) _ _)).trans
      (.foldl (fun _ _ => .liftUp ..) _ _)
  exact ⟨((Cascade.raise ..).trans rest).raised, rest.raised⟩

/-- Settles O19: the three values are written at once, and the trip check follows (R129, R180). -/
theorem moduleConfig : Obligations.ModuleConfig := by
  intro s b x p o len sense period
  rw [exec_moduleConfig o len sense period, State.moduleConfig_eq]
  refine ⟨fun limit clear => ?written, fun limit clear level => ?trips, fun limit => ?refused⟩
  case written =>
    have stays : (s.moduleConfigured x p (le16 b 2)).checkTrip = s.moduleConfigured x p (le16 b 2) :=
      State.checkTrip_of_clear clear
    rw [State.reply_require_accept (inRange_le16_iff.2 limit), stays]
    rfl
  case trips =>
    have made : (s.moduleConfigured x p (le16 b 2)).checkTrip = (s.moduleConfigured x p (le16 b 2)).tripModule :=
      State.checkTrip_of_level clear level
    have beat := (Cascade.tripModule (s.moduleConfigured x p (le16 b 2))).beat
    have notices := State.tripped_raised (s.moduleConfigured x p (le16 b 2))
    rw [State.reply_require_accept (inRange_le16_iff.2 limit), made]
    refine ⟨_, rfl, State.response_accepted .., ?_, ?_, ?_, State.notice_accepted notices.1, State.notice_accepted notices.2⟩
    · rw [State.trip_accepted, State.tripped_tripModule]
      rfl
    · rw [State.beat_accepted, beat]
      rfl
    · rw [State.beat_accepted, beat]
      rfl
  case refused =>
    have zero : inRange 1 65535 (le16 b 2) = false := by rw [limit]; rfl
    rw [State.reply_require_not zero]

/-! ## The owed run of a free platen (R7, R145, R146) -/

theorem State.mayClaim_iff {s : State} {p : PlatenId} :
    s.mayClaim p = true ↔ 0 < (s.pad p).owed ∧ (s.disk p).state = .active ∧ s.trip.tripped = false ∧
      (s.cond p).runHeld = false := by
  simp [State.mayClaim, and_assoc]

theorem State.tryClaim_of {s : State} {p : PlatenId} (claims : s.mayClaim p = true)
    (free : (s.station (.platen p)).holder = none) (inn : (s.station (.platen p)).inService = true) :
    s.tryClaim p = s.startRun p := if_pos ⟨claims, free, inn⟩

theorem State.tryClaim_not {s : State} {p : PlatenId}
    (h : (s.pad p).owed = 0 ∨ (s.disk p).state ≠ .active ∨ s.trip.tripped = true ∨ (s.cond p).runHeld = true ∨
      (s.station (.platen p)).holder ≠ none ∨ (s.station (.platen p)).inService = false) : s.tryClaim p = s := by
  refine if_neg ?_
  rintro ⟨claims, free, inn⟩
  obtain ⟨owed, active, clear, unheld⟩ := State.mayClaim_iff.1 claims
  rcases h with h | h | h | h | h | h
  · omega
  · exact h active
  · exact absurd clear (ne_false_of_eq_true h)
  · exact absurd unheld (ne_false_of_eq_true h)
  · exact h free
  · exact absurd inn (ne_true_of_eq_false h)

theorem Conditioner.beginSweep_stowed {c : Conditioner} (stowed : c.arm = .stowed) (g : PlatenConfig) (m : ArmMode) :
    c.beginSweep g m = c.enter g (.deploying m) := by
  rw [Conditioner.beginSweep, stowed]

/-- A run just started: the conditioner holds the station, its sweeps are at 0, and a STOWED arm deploys. -/
theorem State.startRun_effect (s : State) (p : PlatenId) :
    (s.startRun p).station (.platen p) = { s.station (.platen p) with holder := some .conditioner } ∧
      ((s.startRun p).cond p).runHeld = true ∧ ((s.startRun p).cond p).sweepsDone = 0 ∧
      ((s.cond p).arm = .stowed → ((s.startRun p).cond p).arm = .deploying .exSitu) := by
  refine ⟨?_, ?_, ?_, fun stowed => ?_⟩
  all_goals simp only [State.startRun, State.modStation_set, State.modCond_set, State.station_setCond,
    State.station_setStation_self, State.cond_setCond_self, State.cond_setStation]
  rw [Conditioner.beginSweep_stowed stowed]
  rfl

/-- While a run holds its station the platen turns at the conditioning speed (R54). -/
theorem State.speedWanted_run {s : State} {p : PlatenId} (clear : s.trip.tripped = false)
    (held : (s.station (.platen p)).holder = some .conditioner) (run : (s.cond p).runHeld = true) :
    s.speedWanted p = (s.base p).config.conditioningSpeed := by
  rw [State.speedWanted, clear, held, run]
  rfl

/-- No head holds the platen, so its outer limit is O (R138). -/
theorem State.outerWanted_noHead {s : State} {p : PlatenId} (none : s.headOn p = none) : s.outerWanted p = .outer := by
  rw [State.outerWanted, none]

theorem State.headOn_eq_none {s : State} {p : PlatenId} (h : ∀ g, (s.station (.platen p)).holder ≠ some (.head g)) :
    s.headOn p = none := by
  unfold State.headOn
  split
  · next g held => exact absurd held (h g)
  · rfl

/-- The accepted request that starts a run on a STOWED arm (R145, R146). -/
theorem State.startRun_accepted {s : State} {p : PlatenId} (clear : s.trip.tripped = false)
    (stowed : (s.cond p).arm = .stowed) (q : Port) :
    ((s.startRun p).accepted q).station (.platen p) = { s.station (.platen p) with holder := some .conditioner } ∧
      (((s.startRun p).accepted q).cond p).arm = .deploying .exSitu ∧
      (((s.startRun p).accepted q).cond p).runHeld = true ∧ (((s.startRun p).accepted q).cond p).sweepsDone = 0 ∧
      (((s.startRun p).accepted q).base p).speed = (s.base p).config.conditioningSpeed := by
  obtain ⟨station, held, sweeps, arm⟩ := s.startRun_effect p
  have holder : ((s.startRun p).station (.platen p)).holder = some .conditioner := by rw [station]
  have headless : (s.startRun p).headOn p = none := State.headOn_eq_none fun g h => by
    rw [holder] at h
    cases h
  have speed : (s.startRun p).speedWanted p = (s.base p).config.conditioningSpeed :=
    State.speedWanted_run clear holder held
  rw [State.station_accepted, State.cond_accepted, State.base_accepted, State.speed_settle,
    State.cond_settle_outer (State.outerWanted_noHead headless)]
  exact ⟨station, arm stowed, held, sweeps, speed⟩

/-! ## SERVICE_SET -/

theorem servicePlatenOf_of {n : Nat} {p : PlatenId} (h : stationOfCode n = some (.platen p)) :
    servicePlatenOf n = some p := by
  rw [servicePlatenOf, h]

/-- SERVICE_SET past its form: OUT is coded 1. -/
theorem exec_serviceSet {s : State} {b : List Byte} {p : PlatenId} {out : Bool} (o : s.opens .recipe)
    (len : b.length = 2) (platen : stationOfCode (le8 b 0) = some (.platen p)) (code : le8 b 1 = out.toNat) :
    exec (.serviceSet .recipe b) s = .next (s.reply .recipe (s.serviceSet p (!out))) := by
  have arm : exec (.serviceSet .recipe b) s = execServiceSet .recipe b s := rfl
  have value : boolOf (le8 b 1) = some out := by rw [code, boolOf_toNat]
  rw [arm, execServiceSet, State.takeRequest_recipe o len, requireField_of (servicePlatenOf_of platen),
    requireField_of value]

section
variable {s : State} {p : PlatenId}

theorem State.serviceSet_same {inn : Bool} (same : (s.station (.platen p)).inService = inn) :
    s.serviceSet p inn = Machine.accept s := if_pos same.symm

theorem State.serviceSet_in (out : (s.station (.platen p)).inService = false) :
    s.serviceSet p true =
      Machine.accept ((s.modStation (.platen p) fun k => { k with inService := true }).tryClaim p) := by
  rw [State.serviceSet, out]
  rfl

theorem State.serviceSet_out (inn : (s.station (.platen p)).inService = true) :
    s.serviceSet p false =
      Machine.require ((s.station (.platen p)).holder.isNone && (s.station (.platen p)).wait.isEmpty) .busy
        (Machine.accept (s.modStation (.platen p) fun k => { k with inService := false })) := by
  rw [State.serviceSet, inn]
  rfl

end

/-- Settles O20: the same state changes nothing, OUT asks for a free station, IN lets an owed run begin (R16). -/
theorem serviceSet : Obligations.ServiceSet := by
  refine fun s b o len code => ⟨fun bad => ?outOfRange, fun p platen => ⟨fun same => ?same, fun one inn free idle => ?goesOut,
    fun one inn busy => ?busy, fun zero out no => ?goesIn, fun zero out owed active clear unheld stowed free => ?starts⟩⟩
  case outOfRange => exact exec_serviceSet_outOfRange o len (bad.imp_right .inl)
  case same =>
    obtain zero | one : le8 b 1 = 0 ∨ le8 b 1 = 1 := by omega
    · rw [exec_serviceSet (out := false) o len platen zero, State.serviceSet_same (by rw [same, zero]; rfl),
        State.reply_accept]
    · rw [exec_serviceSet (out := true) o len platen one, State.serviceSet_same (by rw [same, one]; rfl),
        State.reply_accept]
  case goesOut =>
    have both : ((s.station (.platen p)).holder.isNone && (s.station (.platen p)).wait.isEmpty) = true := by
      rw [free, idle]
      rfl
    rw [exec_serviceSet (out := true) o len platen one, Bool.not_true, State.serviceSet_out inn,
      State.reply_require_accept both]
  case busy =>
    have held : ((s.station (.platen p)).holder.isNone && (s.station (.platen p)).wait.isEmpty) = false := by
      rw [Bool.and_eq_false_iff, Option.isNone_eq_false_iff, Option.isSome_iff_ne_none, List.isEmpty_eq_false_iff]
      exact busy
    rw [exec_serviceSet (out := true) o len platen one, Bool.not_true, State.serviceSet_out inn,
      State.reply_require_not held]
  case goesIn =>
    have unclaimed : (s.modStation (.platen p) fun k => { k with inService := true }).tryClaim p =
        s.modStation (.platen p) fun k => { k with inService := true } := by
      refine State.tryClaim_not ?_
      rw [State.modStation_eq, State.station_setStation_self]
      rcases no with h | h | h | h
      exacts [.inl h, .inr (.inl h), .inr (.inr (.inl h)), .inr (.inr (.inr (.inr (.inl h))))]
    rw [exec_serviceSet (out := false) o len platen zero, Bool.not_false, State.serviceSet_in out, unclaimed,
      State.reply_accept]
  case starts =>
    have claims : (s.modStation (.platen p) fun k => { k with inService := true }).mayClaim p = true :=
      State.mayClaim_iff.2 ⟨owed, active, clear, unheld⟩
    have run : (s.modStation (.platen p) fun k => { k with inService := true }).tryClaim p =
        (s.modStation (.platen p) fun k => { k with inService := true }).startRun p := by
      refine State.tryClaim_of claims ?_ ?_
      · rw [State.modStation_eq, State.station_setStation_self]
        exact free
      · rw [State.modStation_eq, State.station_setStation_self]
    obtain ⟨station, arm, held, sweeps, speed⟩ := State.startRun_accepted
      (s := s.modStation (.platen p) fun k => { k with inService := true }) (p := p) clear stowed .recipe
    rw [exec_serviceSet (out := false) o len platen zero, Bool.not_false, State.serviceSet_in out, run, State.reply_accept]
    refine ⟨_, rfl, State.response_accepted .., ?_, arm, held, sweeps, speed⟩
    rw [station, State.modStation_eq, State.station_setStation_self]

/-! ## CONDITION_NOW -/

theorem exec_conditionNow {s : State} {b : List Byte} {p : PlatenId} (o : s.opens .recipe) (len : b.length = 2)
    (platen : platenOfCode (le8 b 0) = some p) :
    exec (.conditionNow .recipe b) s = .next (s.reply .recipe
      (require (inRange 1 255 (le8 b 1)) .outOfRange (s.conditionNow p (le8 b 1)))) := by
  have arm : exec (.conditionNow .recipe b) s = execConditionNow .recipe b s := rfl
  rw [arm, execConditionNow, State.takeRequest_recipe o len, requireField_of platen]

/-- Settles O22: the pad must be known; the owed sweeps are raised, and the unit tries its claim at once (R145, R161). -/
theorem conditionNow : Obligations.ConditionNow := by
  refine fun s b p o len platen => ⟨fun sweeps known => ⟨fun no => ?owes, fun free inn active clear unheld stowed => ?starts⟩,
    fun sweeps unknown => ?unknown, fun zero => ?zero⟩
  case owes =>
    have unclaimed : (s.modPad p fun k => { k with owed := max k.owed (le8 b 1) }).tryClaim p =
        s.modPad p fun k => { k with owed := max k.owed (le8 b 1) } := by
      refine State.tryClaim_not ?_
      rcases no with h | h | h | h
      exacts [.inr (.inr (.inr (.inr (.inl h)))), .inr (.inr (.inr (.inr (.inr h)))), .inr (.inl h), .inr (.inr (.inl h))]
    rw [exec_conditionNow o len platen, require_of (inRange_le8_iff.2 sweeps), State.conditionNow,
      State.reply_require_accept (by rw [decide_eq_false known]; rfl), unclaimed]
  case starts =>
    have claims : (s.modPad p fun k => { k with owed := max k.owed (le8 b 1) }).mayClaim p = true := by
      refine State.mayClaim_iff.2 ⟨?_, active, clear, unheld⟩
      rw [State.modPad_eq, State.pad_setPad_self]
      exact lt_of_lt_of_le sweeps (Nat.le_max_right ..)
    obtain ⟨station, arm, held, done, speed⟩ := State.startRun_accepted
      (s := s.modPad p fun k => { k with owed := max k.owed (le8 b 1) }) (p := p) clear stowed .recipe
    rw [exec_conditionNow o len platen, require_of (inRange_le8_iff.2 sweeps), State.conditionNow,
      State.reply_require_accept (by rw [decide_eq_false known]; rfl), State.tryClaim_of claims free inn]
    refine ⟨_, rfl, State.response_accepted .., ?_, station, arm, held, done, speed⟩
    rw [State.pad_accepted, State.startRun, State.modCond_eq, State.pad_setCond, State.modStation_eq, State.pad_setStation,
      State.modPad_eq, State.pad_setPad_self]
  case unknown =>
    rw [exec_conditionNow o len platen, require_of (inRange_le8_iff.2 sweeps), State.conditionNow,
      State.reply_require_not (by rw [decide_eq_true unknown]; rfl)]
  case zero =>
    have none : inRange 1 255 (le8 b 1) = false := by rw [zero]; rfl
    rw [exec_conditionNow o len platen, State.reply_require_not none]

/-! ## CLAIM, RELEASE and REVOKE_CLAIM -/

theorem HeadState.active_iff {x : HeadState} : x.active = true ↔ x = .running ∨ ∃ e, x = .closing e := by
  cases x <;> simp [HeadState.active]

theorem HeadState.active_eq_false_iff {x : HeadState} : x.active = false ↔ x ≠ .running ∧ ∀ e, x ≠ .closing e := by
  rw [← Bool.not_eq_true, HeadState.active_iff, not_or, not_exists]

theorem State.stands?_eq_some_iff {s : State} {h : HeadId} {d : StationId} :
    s.stands? h = some d ↔ (s.carrier h).position = .stands d := by
  unfold State.stands?
  cases (s.carrier h).position <;> simp

section
variable {s : State} {b : List Byte} {h : HeadId}

theorem exec_claim (o : s.opens .transfer) (len : b.length = 1) (head : headOf (le8 b 0) = some h) :
    exec (.claim .transfer b) s = .next (s.reply .transfer (s.claimHead h)) := by
  have arm : exec (.claim .transfer b) s = execClaim .transfer b s := rfl
  rw [arm, execClaim, State.takeRequest_transfer o len, requireField_of head]

theorem exec_release (o : s.opens .transfer) (len : b.length = 1) (head : headOf (le8 b 0) = some h) :
    exec (.release .transfer b) s = .next (s.reply .transfer (s.releaseClaim h)) := by
  have arm : exec (.release .transfer b) s = execRelease .transfer b s := rfl
  rw [arm, execRelease, State.takeRequest_transfer o len, requireField_of head]

theorem exec_revokeClaim (o : s.opens .recipe) (len : b.length = 1) (head : headOf (le8 b 0) = some h) :
    exec (.revokeClaim .recipe b) s = .next (s.reply .recipe (s.revokeClaim h)) := by
  have arm : exec (.revokeClaim .recipe b) s = execRevokeClaim .recipe b s := rfl
  rw [arm, execRevokeClaim, State.takeRequest_recipe o len, requireField_of head]

end

/-- Settles O31: CLAIM asks its conditions in the order of R43; RELEASE and REVOKE_CLAIM ask for a claim (R46). -/
theorem claimBeginsAndEnds : Obligations.ClaimBeginsAndEnds := by
  refine ⟨fun s b h o len head => ⟨fun free idle load => ?claims, fun busy => ?busy, fun free stopped closed out => ?wrongState⟩,
    fun s b h len head => ⟨fun o => ⟨fun held => ?releases, fun free => ?unreleased⟩,
      fun o => ⟨fun held => ?revokes, fun free => ?unrevoked⟩⟩⟩
  case claims =>
    have ready : (decide ((s.seq h).state = .idle) && decide (s.stands? h = some .load)) = true := by
      rw [decide_eq_true idle, decide_eq_true (State.stands?_eq_some_iff.2 load)]
      rfl
    rw [exec_claim o len head, State.claimHead, require_of (Option.isNone_iff_eq_none.2 free),
      require_of (by rw [idle]; rfl), State.reply_require_accept ready]
  case busy =>
    rw [exec_claim o len head, State.claimHead]
    cases claimed : (s.seq h).claim with
    | some c => rw [State.reply_require_not (Option.isNone_some)]
    | none =>
      have active : (!(s.seq h).state.active) = false := by
        rw [Bool.not_eq_false', HeadState.active_iff]
        exact busy.resolve_left fun held => held claimed
      rw [require_of Option.isNone_none, State.reply_require_not active]
  case wrongState =>
    have unready : (decide ((s.seq h).state = .idle) && decide (s.stands? h = some .load)) = false := by
      rw [Bool.and_eq_false_iff, decide_eq_false_iff_not, decide_eq_false_iff_not, State.stands?_eq_some_iff]
      exact out
    rw [exec_claim o len head, State.claimHead, require_of (Option.isNone_iff_eq_none.2 free),
      require_of (by rw [HeadState.active_eq_false_iff.2 ⟨stopped, closed⟩]; rfl), State.reply_require_not unready]
  case releases =>
    rw [exec_release o len head, State.releaseClaim, State.reply_require_accept (Option.isSome_iff_ne_none.2 held),
      State.endClaim]
  case unreleased =>
    rw [exec_release o len head, State.releaseClaim, State.reply_require_not (by rw [free]; rfl)]
  case revokes =>
    rw [exec_revokeClaim o len head, State.revokeClaim, State.reply_require_accept (Option.isSome_iff_ne_none.2 held),
      State.endClaim]
  case unrevoked =>
    rw [exec_revokeClaim o len head, State.revokeClaim, State.reply_require_not (by rw [free]; rfl)]

end Sys2Proof.Machine
end

section
/-!
PROOFS. NOTICE_ACK, NOTICE_MASK and the alert line (R171, R172), and the windows of a port, byte by byte (R164, R165, R173).
-/
namespace Sys2Proof.Machine

/-! ## Pairs of a NOTICE_ACK -/

/-- The pair of a notice names it on the port, and no other. -/
theorem noticeOf_putNotice (q : Port) :
    ∀ n ∈ catalogue q,
      noticeOf q (BitVec.ofNat 8 ((n.kind q).getD 0)).toNat (BitVec.ofNat 8 n.object).toNat = some n := by
  cases q <;> decide

theorem noticePairs_putNotice {q : Port} {ns : List Notice} (held : ∀ n ∈ ns, n ∈ catalogue q) :
    noticePairs q (ns.map (putNotice q)).flatten = some ns := by
  induction ns with
  | nil => rfl
  | cons n rest ih =>
    have first := noticeOf_putNotice q n (held n List.mem_cons_self)
    have later := ih fun m mem => held m (List.mem_cons_of_mem _ mem)
    show noticePairs q (BitVec.ofNat 8 ((n.kind q).getD 0) :: BitVec.ofNat 8 n.object ::
      (rest.map (putNotice q)).flatten) = _
    rw [noticePairs, first, later]

theorem noticeOf_eq_none {q : Port} {k o : Nat} (h : ∀ n ∈ catalogue q, ¬(n.kind q = some k ∧ n.object = o)) :
    noticeOf q k o = none := by
  refine List.find?_eq_none.2 fun n mem => ?_
  simpa only [Bool.and_eq_true, decide_eq_true_eq] using h n mem

/-- A pair that names no notice refuses the body, wherever it stands. -/
theorem noticePairs_eq_none {q : Port} {k o : Byte} {back : List Byte} (unnamed : noticeOf q k.toNat o.toNat = none) :
    ∀ front : List Byte, front.length % 2 = 0 → noticePairs q (front ++ k :: o :: back) = none
  | [], _ => by rw [List.nil_append, noticePairs, unnamed]
  | [_], odd => nomatch odd
  | x :: y :: rest, even => by
    have inner := noticePairs_eq_none (back := back) unnamed rest (by simp only [List.length_cons] at even; omega)
    rw [List.cons_append, List.cons_append, noticePairs, inner]
    cases noticeOf q x.toNat y.toNat <;> rfl

theorem exec_noticeAck {s : State} {q : Port} {b : List Byte} (o : s.opens q) (even : b.length % 2 = 0)
    (short : b.length ≤ 60) :
    exec (.noticeAck q b) s = .next (s.reply q
      (requireField (noticePairs q b) fun ns => .ok (s.modPort q fun u => u.acknowledge ns, []))) := by
  have arm : exec (.noticeAck q b) s = execNoticeAck q b s := rfl
  have form : (decide (b.length % 2 = 0) && decide (b.length ≤ Config.maxRequestBody)) = true := by
    rw [Bool.and_eq_true, decide_eq_true_eq, decide_eq_true_eq]
    exact ⟨even, short⟩
  rw [arm, execNoticeAck, State.takeRequest_of o, require_of form]

theorem exec_noticeMask {s : State} {q : Port} {b : List Byte} (o : s.opens q) (len : b.length = 2) :
    exec (.noticeMask q b) s = .next (s.reply q (require (decide (le16 b 0 < 2 ^ kindCount q)) .outOfRange
      (.ok (s.modPort q fun u => { u with mask := BitVec.ofNat 16 (le16 b 0) }, [])))) := by
  have arm : exec (.noticeMask q b) s = execNoticeMask q b s := rfl
  rw [arm, execNoticeMask, State.takeRequest_of o, requireLength_of len]

theorem inMask_iff {q : Port} {mask : BitVec 16} {n : Notice} :
    inMask q mask n = true ↔ ∃ k, n.kind q = some k ∧ mask.getLsbD k = true := by
  unfold inMask
  cases n.kind q <;> simp

/-- Settles O24: each pair of a NOTICE_ACK names one notice of the catalogue or refuses the request (R171); the mask has a bit
for each kind (R172). -/
theorem noticeAckAndMask : Obligations.NoticeAckAndMask := by
  refine ⟨⟨fun s q ns o few held => ?acknowledged, fun s q front back k ob o even short total unnamed => ?unnamed⟩,
    fun s q b o len => ⟨fun fits => ?masked, fun out => ?outOfRange⟩, fun s q => ?alert⟩
  case acknowledged =>
    have len := flatten_putNotice_length q ns
    rw [exec_noticeAck o (by omega) (by omega), requireField_of (noticePairs_putNotice held)]
    rfl
  case unnamed =>
    rw [exec_noticeAck o total short, requireField_not (noticePairs_eq_none (noticeOf_eq_none unnamed) front even),
      State.reply_error]
  case masked =>
    rw [exec_noticeMask o len, require_of (decide_eq_true fits)]
    rfl
  case outOfRange => rw [exec_noticeMask o len, State.reply_require_not (decide_eq_false (Nat.not_lt.2 out))]
  case alert => simp only [State.alertOut, PortUnit.alert, List.any_eq_true, inMask_iff]

/-! ## Frames (R173) -/

theorem frameWhole_cons {code n : Byte} {body : List Byte} :
    frameWhole (code :: n :: body) = true ↔ 60 < n.toNat ∨ n.toNat ≤ body.length := by
  simp only [frameWhole, Bool.or_eq_true, decide_eq_true_eq]
  rfl

theorem windowCommand_cons {q : Port} {code n : Byte} {rest : List Byte} :
    windowCommand q (code :: n :: rest) =
      if 60 < n.toNat then requestOf q code (List.replicate n.toNat 0)
      else if rest.length < n.toNat then .windowClosedEarly q
      else requestOf q code (rest.take n.toNat) := rfl

/-- Bytes that do not complete their frame carry no request. -/
theorem windowCommand_of_incomplete {q : Port} {bytes : List Byte} (part : frameWhole bytes = false) :
    windowCommand q bytes = .windowClosedEarly q := by
  match bytes, part with
  | [], _ => rfl
  | [_], _ => rfl
  | code :: n :: rest, part =>
    have short := mt frameWhole_cons.2 (ne_true_of_eq_false part)
    rw [windowCommand_cons, if_neg (by omega), if_pos (by omega)]

/-- Bytes after a whole frame count for nothing. -/
theorem windowCommand_append {q : Port} {bytes more : List Byte} (whole : frameWhole bytes = true) :
    windowCommand q (bytes ++ more) = windowCommand q bytes := by
  match bytes, whole with
  | code :: n :: rest, whole =>
    obtain long | enough := frameWhole_cons.1 whole
    · rw [List.cons_append, List.cons_append, windowCommand_cons, windowCommand_cons, if_pos long, if_pos long]
    · have room : ¬(rest ++ more).length < n.toNat := by rw [List.length_append]; omega
      rw [List.cons_append, List.cons_append, windowCommand_cons, windowCommand_cons, if_neg room,
        if_neg (Nat.not_lt.2 enough), List.take_append_of_le_length enough]

/-! ## Windows (R164) -/

/-- The state with commands at the end of its queue. -/
def State.enqueue (s : State) (cs : List Instr) : State := { s with pending := s.pending ++ cs }

@[simp] theorem State.port_enqueue (s : State) (cs : List Instr) (q : Port) : (s.enqueue cs).port q = s.port q := rfl

theorem State.modPort_enqueue (s : State) (cs : List Instr) (q : Port) (f : PortUnit → PortUnit) :
    (s.enqueue cs).modPort q f = (s.modPort q f).enqueue cs := rfl

theorem State.enqueue_nil (s : State) : s.enqueue [] = s := by rw [State.enqueue, List.append_nil]

section
variable {s : State} {q : Port}

theorem State.window_modPort (f : PortUnit → PortUnit) : (s.modPort q f).port q = f (s.port q) := by
  rw [State.modPort_eq, State.port_setPort_self]

theorem State.modPort_modPort (f g : PortUnit → PortUnit) : (s.modPort q f).modPort q g = s.modPort q (g ∘ f) := by
  rw [State.modPort_eq, State.window_modPort, State.modPort_eq, State.setPort_setPort]
  rfl

theorem State.modPort_id {f : PortUnit → PortUnit} (same : f (s.port q) = s.port q) : s.modPort q f = s := by
  rw [State.modPort_eq, same, State.setPort_port]

theorem State.selectPort_of (o : s.opens q) :
    s.selectPort q = s.modPort q fun u => { u with window := some ⟨[], 0⟩, response := none } :=
  if_neg (ne_true_of_eq_false o)

theorem State.releasePort_closed (closed : (s.port q).window = none) :
    s.releasePort q = s.modPort q fun u => { u with selectHeld := false } := by
  rw [State.releasePort, closed]

theorem State.releasePort_whole {w : Window} (window : (s.port q).window = some w) (whole : frameWhole w.frame = true) :
    s.releasePort q = s.modPort q fun u => { u with window := none } := by
  rw [State.releasePort, window]
  exact if_pos whole

theorem State.releasePort_part {w : Window} (window : (s.port q).window = some w) (part : frameWhole w.frame = false) :
    s.releasePort q = (s.modPort q fun u => { u with window := none }).enqueue [.windowClosedEarly q] := by
  rw [State.releasePort, window]
  exact if_neg (ne_true_of_eq_false part)

/-- The bytes of the response that stand from byte k on, then 0. -/
theorem drop_append_take {L : List Byte} {k n : Nat} :
    ((L.drop k) ++ List.replicate (n + 1) 0).take (n + 1) =
      L.getD k 0 :: ((L.drop (k + 1)) ++ List.replicate n 0).take n := by
  by_cases within : k < L.length
  · rw [List.drop_eq_getElem_cons within, List.cons_append, List.take_succ_cons, List.getD_eq_getElem _ _ within,
      List.replicate_succ', ← List.append_assoc, List.take_append_of_le_length (by simp)]
  · rw [Nat.not_lt] at within
    rw [List.drop_eq_nil_of_le within, List.drop_eq_nil_of_le (Nat.le_succ_of_le within), List.nil_append, List.nil_append,
      List.getD_eq_default _ _ within, List.replicate_succ, List.take_succ_cons]

/-- After the frame the response goes out byte by byte, then 0. -/
theorem State.shiftBytes_response {more : List Byte} : ∀ {s : State} {w : Window}, (s.port q).window = some w →
    frameWhole w.frame = true →
    s.shiftBytes q more = (s.modPort q fun u => { u with window := some { w with sent := w.sent + more.length } },
      ((s.responseFrame q).drop w.sent ++ List.replicate more.length 0).take more.length) := by
  induction more with
  | nil =>
    intro s w window whole
    have same : (s.modPort q fun u => { u with window := some { w with sent := w.sent + 0 } }) = s :=
      State.modPort_id (by rw [Nat.add_zero, ← window])
    rw [List.length_nil, same]
    rfl
  | cons b rest ih =>
    intro s w window whole
    have next : ((s.modPort q fun u => { u with window := some { w with sent := w.sent + 1 } }).port q).window =
        some { w with sent := w.sent + 1 } := by rw [State.window_modPort]
    have frame : (s.modPort q fun u => { u with window := some { w with sent := w.sent + 1 } }).responseFrame q =
        s.responseFrame q := by rw [State.responseFrame, State.window_modPort, State.responseFrame]
    rw [State.shiftBytes, State.shiftByte_response window whole, ih next whole, frame, State.modPort_modPort,
      List.length_cons, drop_append_take, Nat.add_right_comm, Nat.add_assoc]
    rfl

/-- Once its frame is whole, a window is closed with nothing more to join the queue. -/
theorem State.release_whole {w : Window} {more : List Byte} (window : (s.port q).window = some w)
    (whole : frameWhole w.frame = true) :
    ((s.shiftBytes q more).1).releasePort q = s.modPort q fun u => { u with window := none } := by
  rw [State.shiftBytes_response window whole,
    State.releasePort_whole (w := { w with sent := w.sent + more.length }) (by rw [State.window_modPort]) whole,
    State.modPort_modPort]
  rfl

/-- A window whose frame is not whole yet makes one command of all its bytes, by the time it is closed. -/
theorem State.release_part {more : List Byte} : ∀ {s : State} {w : Window}, (s.port q).window = some w →
    frameWhole w.frame = false →
    ((s.shiftBytes q more).1).releasePort q =
      (s.modPort q fun u => { u with window := none }).enqueue [windowCommand q (w.frame ++ more)] := by
  induction more with
  | nil =>
    intro s w window part
    rw [List.append_nil, windowCommand_of_incomplete part]
    exact State.releasePort_part window part
  | cons b rest ih =>
    intro s w window part
    have bytes : w.frame ++ b :: rest = w.frame ++ [b] ++ rest := by rw [List.append_assoc]; rfl
    have taken : (s.shiftByte q b).1 = (s.modPort q fun u => { u with window := some ⟨w.frame ++ [b], 0⟩ }).enqueue
        (if frameWhole (w.frame ++ [b]) then [windowCommand q (w.frame ++ [b])] else []) :=
      congrArg Prod.fst (State.shiftByte_request window part b)
    have opened (cs : List Instr) : (((s.modPort q fun u => { u with window := some ⟨w.frame ++ [b], 0⟩ }).enqueue
        cs).port q).window = some ⟨w.frame ++ [b], 0⟩ := by rw [State.port_enqueue, State.window_modPort]
    rw [State.shiftBytes, taken, bytes]
    cases whole : frameWhole (w.frame ++ [b]) with
    | true =>
      refine (State.release_whole (opened _) whole).trans ?_
      rw [State.modPort_enqueue, State.modPort_modPort, windowCommand_append whole]
      rfl
    | false =>
      refine (ih (opened _) whole).trans ?_
      rw [State.modPort_enqueue, State.modPort_modPort, if_neg Bool.false_ne_true, State.enqueue_nil]
      rfl

/-- A whole window makes the one command that its bytes spell. -/
theorem State.takeWindow_of {bytes : List Byte} (o : s.opens q) :
    s.takeWindow q bytes =
      (s.modPort q fun u => { u with window := none, response := none }).enqueue [windowCommand q bytes] := by
  have opened : ((s.modPort q fun u => { u with window := some ⟨[], 0⟩, response := none }).port q).window =
      some ⟨[], 0⟩ := by rw [State.window_modPort]
  rw [State.takeWindow, State.selectPort_of o, State.release_part opened rfl, State.modPort_modPort, List.nil_append]
  rfl

end

/-! ## Codes (R167) -/

theorem requestOf_port (q : Port) (c : Byte) (b : List Byte) : (requestOf q c b).port? = some q := by
  unfold requestOf
  split <;> rfl

theorem requestOf_code (q : Port) (c : Byte) (b : List Byte) : (requestOf q c b).code? = some c.toNat := by
  unfold requestOf
  split
  all_goals first | rfl | (next code => rw [code]; rfl)

/-- A code without a row makes the unknown request, and no other code does. -/
theorem codeUnknown_iff {q : Port} {c : Byte} {b : List Byte} :
    codeUnknown c = true ↔ requestOf q c b = .unknownRequest q c b := by
  unfold requestOf
  split
  case h_38 => simp_all [codeUnknown, requestCodes]
  all_goals
    next code =>
    refine ⟨fun unknown => ?_, fun same => nomatch same⟩
    rw [codeUnknown, code] at unknown
    exact absurd unknown (by decide)

/-! ## The statement -/

theorem exec_unknownRequest {s : State} {q : Port} {code : Byte} {b : List Byte} (o : s.opens q)
    (unknown : codeUnknown code = true) :
    exec (.unknownRequest q code b) s = .next (s.refusal q .unknownRequest) := by
  have arm : exec (.unknownRequest q code b) s = execUnknownRequest q code b s := rfl
  have off : requestCodes.contains code.toNat = false := by
    rwa [codeUnknown, Bool.not_eq_true'] at unknown
  rw [arm, execUnknownRequest, off, State.openWindow, show (s.port q).selectHeld = false from o]
  rfl

theorem exec_unknownRequest_known {s : State} {q : Port} {code : Byte} {b : List Byte} (known : codeUnknown code = false) :
    exec (.unknownRequest q code b) s = .fault .illFormedCommand := by
  have arm : exec (.unknownRequest q code b) s = execUnknownRequest q code b s := rfl
  rw [codeUnknown, Bool.not_eq_false'] at known
  rw [arm, execUnknownRequest, if_pos known]

/-- A chip select held since reset takes no request, whatever the request (R177). -/
theorem State.takeRequest_held {s : State} {q : Port} (held : (s.port q).selectHeld = true) (permitted : Bool) (r : Reply) :
    s.takeRequest q permitted r = s.modPort q fun u => { u with selectHeld := false } := if_pos held

/-- Settles O25: a window read byte by byte makes the one command of its bytes; the rest are the tables (R164, R167, R173). -/
theorem windows : Obligations.Windows := by
  refine ⟨⟨fun s q code b o unknown => exec_unknownRequest o unknown, fun s q code b known => exec_unknownRequest_known known,
      fun s q o => ?closedEarly, fun s q => rfl, fun c s q formed port held => ?held⟩,
    ⟨fun q code n body more => ⟨rfl, rfl, fun fits short => ?short, fun fits len => ?exact_, fun long => ?long⟩,
      fun s q bytes o => State.takeWindow_of o⟩,
    ⟨fun code n body => ⟨rfl, rfl, frameWhole_cons⟩, fun s q => ⟨State.selectPort_of, fun held => if_pos held,
      fun b closed => State.shiftByte_closed closed b, State.releasePort_closed, fun w b window part => ?frameByte,
      fun w window whole => ⟨fun more => State.shiftBytes_response window whole, State.releasePort_whole window whole⟩⟩⟩,
    fun q b => ⟨rfl, rfl, fun c => codeUnknown_iff, fun c => ⟨requestOf_port q c b, requestOf_code q c b⟩⟩,
    rfl, fun s q e b => ?frame⟩
  case closedEarly =>
    have arm : exec (.windowClosedEarly q) s = execWindowClosedEarly q s := rfl
    rw [arm, execWindowClosedEarly, State.modPort_id]
    rw [← show (s.port q).selectHeld = false from o]
  case held =>
    obtain ⟨r, runs, -, -⟩ := Instr.exec_request port (Instr.runnable_of_wellFormed formed) s
    rw [runs, State.takeRequest_held held]
  case short =>
    have part : frameWhole (code :: n :: body) = false := by
      rw [Bool.eq_false_iff, Ne, frameWhole_cons]
      omega
    exact windowCommand_of_incomplete part
  case exact_ =>
    rw [windowCommand_cons, if_neg (by omega), if_neg (by rw [List.length_append]; omega), ← len, List.take_left]
  case long =>
    refine ⟨List.replicate n.toNat 0, List.length_replicate, ?_⟩
    rw [windowCommand_cons, if_pos long]
  case frameByte =>
    have taken := State.shiftByte_request window part b
    refine ⟨fun still => ?_, fun whole => ?_, State.releasePort_part window part⟩
    · rw [taken, still, if_neg Bool.false_ne_true, List.append_nil]
      rfl
    · rw [taken, whole, if_pos rfl]
  case frame =>
    rw [State.responseFrame, State.respond, State.window_modPort]
    rfl

end Sys2Proof.Machine
end

section
/-!
PROOFS. MARK (R101), the in-band inputs (R70, R71), the limits of pads and disks (R154, R155), the beat and the claims (R44, R179),
the speed setpoints and outer limits of a settled part (R54, R55, R138).
-/
namespace Sys2Proof.Machine

/-! ## MARK -/

theorem exec_mark {s : State} {b : List Byte} {p : PlatenId} {k : MarkKind} (o : s.opens .endpoint) (len : b.length = 3)
    (platen : platenOfCode (le8 b 0) = some p) (kind : markKindOf (le8 b 2) = some k) :
    exec (.mark .endpoint b) s = .next (s.reply .endpoint (s.mark p (b.getD 1 0) k)) := by
  have arm : exec (.mark .endpoint b) s = execMark .endpoint b s := rfl
  rw [arm, execMark, Port.isEndpoint_endpoint, State.takeRequest_of o, requireLength_of len, requireField_of platen,
    requireField_of kind]

section
variable {q : Qualifier} {counter : Rev} {rev : Byte} {k : MarkKind} {number : Nat}

theorem Qualifier.markInWatch_accepted {h : HeadId} {start m : Rev} (q : Qualifier) :
    (q.markInWatch h start m k number).disposition = .accepted := by
  cases k <;> rfl

theorem Qualifier.markInConfirm_confirms {h : HeadId} {start l m : Rev} {n : Nat}
    (confirms : (q.markInConfirm h start n l m k number).confirms = true) :
    (q.markInConfirm h start n l m k number).disposition = .accepted := by
  unfold Qualifier.markInConfirm at *
  cases k <;> grind [Qualifier.relocked, Qualifier.duplicated, Qualifier.count]

/-- Only a mark that counts reaches the confirm number. -/
theorem Qualifier.mark_confirms (confirms : (q.mark counter rev k number).confirms = true) :
    (q.mark counter rev k number).disposition = .accepted := by
  unfold Qualifier.mark at *
  cases state : q.state with
  | idle => simp [state] at confirms
  | settling h n =>
    simp only [state] at confirms
    split at confirms <;> cases confirms
  | watch h start =>
    simp only [state] at confirms ⊢
    split at confirms
    · cases confirms
    · next recent =>
      rw [if_neg recent]
      split at confirms
      · next inTime => rw [if_pos inTime, Qualifier.markInWatch_accepted]
      · cases confirms
  | confirm h start n =>
    simp only [state] at confirms ⊢
    split at confirms
    · cases confirms
    · next recent =>
      rw [if_neg recent]
      split at confirms
      · next inTime =>
        rw [if_pos inTime]
        exact Qualifier.markInConfirm_confirms confirms
      · cases confirms

end

/-- Settles O33: the qualifier takes the mark, and a mark that reaches the confirm number is one it has accepted. -/
theorem markAnswersItsDisposition : Obligations.MarkAnswersItsDisposition := by
  intro s b p k o len platen kind m
  rw [exec_mark o len platen kind]
  refine ⟨fun waits => ?counted, fun confirms => ⟨Qualifier.mark_confirms confirms, ?confirmed⟩⟩
  case counted =>
    have taken : s.takeMark p (b.getD 1 0) k = (s.setQual p m.qual, m.disposition) := by
      rw [State.takeMark, if_neg (ne_true_of_eq_false waits)]
    rw [State.mark, taken]
    rfl
  case confirmed =>
    have taken : s.takeMark p (b.getD 1 0) k = ((s.setQual p m.qual).confirm p, .accepted) := by
      rw [State.takeMark, if_pos confirms, Qualifier.mark_confirms confirms]
    rw [State.mark, taken]
    rfl

/-! ## The in-band inputs -/

theorem ZoneMonitor.inBandChange_of_up {z : ZoneMonitor} (up : z.lift = .up) (i : ZoneId) (v : Bool) :
    z.inBandChange i v = { z with inBand := z.inBand.set i v } := by
  simp only [ZoneMonitor.inBandChange, up]

theorem ZoneMonitor.inBandChange_of_down {z : ZoneMonitor} {x : ZoneSet} {b : BandTimer} (down : z.lift = .down x b)
    (i : ZoneId) (v : Bool) :
    z.inBandChange i v = { z with
      inBand := z.inBand.set i v
      lift := .down x (if (z.inBand.set i v).allTrue then ⟨0, false, false⟩
        else if !v && !b.running && !b.expired then ⟨0, true, false⟩ else b) } := by
  simp only [ZoneMonitor.inBandChange, down]

theorem PerZone.allTrue_set_false (t : PerZone Bool) (i : ZoneId) : (t.set i false).allTrue = false := by
  cases i <;> simp [PerZone.allTrue, PerZone.set]

/-- Settles O41: the input is written; UP there is no timer, DOWN the table of R71 gives it. -/
theorem inBandChange : Obligations.InBandChange := by
  intro s h z v inputs
  have arm : exec (.inBandChange h z v) s = .next (s.setZone h ((s.zone h).inBandChange z v)) := rfl
  rw [arm]
  refine ⟨fun up => ?up, fun x b down => ⟨fun all => ?allIn, fun out still fresh => ?starts, fun some_ kept => ?kept⟩⟩
  case up => rw [ZoneMonitor.inBandChange_of_up up]
  case allIn => rw [ZoneMonitor.inBandChange_of_down down, if_pos all]
  case starts =>
    subst out
    rw [ZoneMonitor.inBandChange_of_down down, PerZone.allTrue_set_false, still, fresh]
    rfl
  case kept =>
    have stays : (!v && !b.running && !b.expired) = false := by
      rcases kept with h | h | h <;> simp [h]
    rw [ZoneMonitor.inBandChange_of_down down, if_neg (ne_true_of_eq_false some_), stays, if_neg Bool.false_ne_true, ← down]

/-! ## Pads and disks -/

theorem State.reachLife_not {s : State} {p : PlatenId} {x : PadState} {n : Nat}
    (h : s.padPressed p = false ∨ (s.pad p).state ≠ x) : s.reachLife p x n = s := by
  refine if_neg ?_
  rintro ⟨pressed, state⟩
  rcases h with h | h
  · exact absurd pressed (ne_true_of_eq_false h)
  · exact h state

/-- Settles O53: the crossing follows the life that the row reaches (R155); the disk is SPENT at its limit (R154). -/
theorem padAndDiskLimits : Obligations.PadAndDiskLimits := by
  intro s p
  have warn : exec (.padWarn p) s = .next (s.reachLife p .inService (s.pad p).warnLimit).settle := rfl
  have retired : exec (.padRetired p) s = .next (s.reachLife p .warn (s.pad p).retireLimit).settle := rfl
  have spent : exec (.diskSpent p) s = .next (s.spendDisk p) := rfl
  rw [warn, retired, spent]
  refine ⟨fun pressed inService => ?warns, fun no => by rw [State.reachLife_not no], fun pressed worn => ?retires,
    fun no => by rw [State.reachLife_not no], fun active sweeping => ?spends, fun no => ?unspent⟩
  case warns =>
    rw [State.reachLife, if_pos ⟨pressed, inService⟩, State.padCrossing]
    simp [inService, Config.max32]
  case retires =>
    rw [State.reachLife, if_pos ⟨pressed, worn⟩, State.padCrossing]
    simp [worn, Config.max32]
  case spends =>
    rw [State.spendDisk, if_pos ⟨active, sweeping⟩]
    rfl
  case unspent =>
    rw [State.spendDisk, if_neg]
    rintro ⟨active, sweeping⟩
    rcases no with h | h
    · exact h active
    · exact absurd sweeping (ne_true_of_eq_false h)

/-! ## The beat -/

/-- A head at one beat (R44). -/
def Sequencer.beat (q : Sequencer) (limit : Nat) : Sequencer :=
  { q with claim := q.claim.map fun c => (c.beat limit).1 }

/-- The claim of the head stops at the beat. -/
def Sequencer.runsOut (q : Sequencer) (limit : Nat) : Bool := (q.claim.map fun c => (c.beat limit).2).getD false

/-- A beat at a head: its claim counts, and its notices are raised where the claim stops. -/
theorem State.claimBeat_eq (s : State) (h : HeadId) :
    s.claimBeat h =
      if (s.seq h).runsOut s.beat.claimLimit then (s.setSeq h ((s.seq h).beat s.beat.claimLimit)).raiseOverdue h
      else s.setSeq h ((s.seq h).beat s.beat.claimLimit) := by
  unfold State.claimBeat Sequencer.runsOut Sequencer.beat
  cases claim : (s.seq h).claim with
  | none =>
    have same : { s.seq h with claim := none } = s.seq h := by rw [← claim]
    dsimp only [Option.map_none, Option.getD_none]
    rw [if_neg Bool.false_ne_true, same, State.setSeq_seq]
  | some c => rfl

theorem State.seq_claimBeat (s : State) (h g : HeadId) :
    (s.claimBeat h).seq g = if g = h then (s.seq h).beat s.beat.claimLimit else s.seq g := by
  rw [State.claimBeat_eq]
  split
  · rw [State.raiseOverdue, State.seq_raise, State.seq_raise, State.seq_setSeq]
  · rw [State.seq_setSeq]

theorem State.beat_claimBeat (s : State) (h : HeadId) : (s.claimBeat h).beat = s.beat := by
  rw [State.claimBeat_eq]
  split <;> rfl

/-- The claims of all heads at one beat. -/
theorem State.seq_claimBeats (s : State) (h : HeadId) :
    (headIds.foldl State.claimBeat s).seq h = (s.seq h).beat s.beat.claimLimit := by
  simp only [headIds, List.foldl_cons, List.foldl_nil, State.seq_claimBeat, State.beat_claimBeat]
  cases h <;> rfl

/-- A notice that is pending stays so over a head's beat. -/
theorem State.notice_claimBeat {s : State} {q : Port} {n : Notice} (h : HeadId) (raised : n ∈ (s.port q).notices)
    (held : (n.kind q).isSome = true) : n ∈ ((s.claimBeat h).port q).notices := by
  rw [State.claimBeat_eq]
  split
  · exact ((Cascade.raise _ .recipe (.claimOverdue h)).trans (.raise _ .transfer (.claimOverdue h))).notice raised held
  · exact raised

theorem State.notice_claimBeats {q : Port} {n : Notice} (held : (n.kind q).isSome = true) :
    ∀ (hs : List HeadId) {s : State}, n ∈ (s.port q).notices → n ∈ ((hs.foldl State.claimBeat s).port q).notices
  | [], _, raised => raised
  | h :: rest, _, raised => State.notice_claimBeats held rest (State.notice_claimBeat h raised held)

theorem State.notice_raiseOverdue (s : State) (h : HeadId) :
    .claimOverdue h ∈ ((s.raiseOverdue h).port .recipe).notices ∧
      .claimOverdue h ∈ ((s.raiseOverdue h).port .transfer).notices :=
  have first : .claimOverdue h ∈ ((s.raise .recipe (.claimOverdue h)).port .recipe).notices := State.notice_raise
  ⟨(Cascade.raise (s.raise .recipe (.claimOverdue h)) .transfer (.claimOverdue h)).notice first, State.notice_raise⟩

/-- The claim that stops at this beat raises its notices, at whichever place in the list its head stands. -/
theorem State.overdue_claimBeats {h : HeadId} {hs : List HeadId} {s : State} (mem : h ∈ hs)
    (out : (s.seq h).runsOut s.beat.claimLimit = true) :
    .claimOverdue h ∈ ((hs.foldl State.claimBeat s).port .recipe).notices ∧
      .claimOverdue h ∈ ((hs.foldl State.claimBeat s).port .transfer).notices := by
  induction hs generalizing s with
  | nil => cases mem
  | cons g rest ih =>
    rw [List.foldl_cons]
    by_cases same : h = g
    · subst same
      have raised := State.notice_raiseOverdue (s.setSeq h ((s.seq h).beat s.beat.claimLimit)) h
      have beat : s.claimBeat h = (s.setSeq h ((s.seq h).beat s.beat.claimLimit)).raiseOverdue h := by
        rw [State.claimBeat_eq, if_pos out]
      rw [← beat] at raised
      exact ⟨State.notice_claimBeats rfl rest raised.1, State.notice_claimBeats rfl rest raised.2⟩
    · refine ih ((List.mem_cons.1 mem).resolve_left same) ?_
      rw [State.seq_claimBeat, if_neg same, State.beat_claimBeat]
      exact out

theorem State.beat_claimBeats (hs : List HeadId) (s : State) : (hs.foldl State.claimBeat s).beat = s.beat := by
  induction hs generalizing s with
  | nil => rfl
  | cons h rest ih => rw [List.foldl_cons, ih, State.beat_claimBeat]

/-- A beat with no restart pending reaches the claims. -/
theorem exec_beat {s : State} (running : s.beat.restartPending = false) :
    exec .beat s = .next (headIds.foldl State.claimBeat (s.setBeat s.beat.expire)).settle := by
  have arm : exec .beat s = .next s.beatExpiry.settle := rfl
  have claims : s.beatExpiry = headIds.foldl State.claimBeat (s.setBeat s.beat.expire) :=
    if_neg (ne_true_of_eq_false running)
  rw [arm, claims]

theorem mem_headIds (h : HeadId) : h ∈ headIds := by cases h <;> decide

theorem Claim.beat_stopped {c : Claim} (stopped : c.stopped = true) (limit : Nat) : c.beat limit = (c, false) :=
  if_pos stopped

theorem Claim.beat_under {c : Claim} {limit : Nat} (runs : c.stopped = false) (under : c.timer + 1 < limit) :
    c.beat limit = ({ c with timer := c.timer + 1 }, false) :=
  (if_neg (ne_true_of_eq_false runs)).trans (if_neg (Nat.not_le.2 under))

theorem Claim.beat_out {c : Claim} {limit : Nat} (runs : c.stopped = false) (out : limit ≤ c.timer + 1) :
    c.beat limit = (c.overdue limit, true) :=
  (if_neg (ne_true_of_eq_false runs)).trans (if_pos out)

/-- Settles O28: the beat reaches every head, whose claim counts, stands or stops with its notices (R44). -/
theorem beatReachesTheClaims : Obligations.BeatReachesTheClaims := by
  refine ⟨fun s running => ?beat, fun s h => ⟨fun c held runs => ?overdue, fun rests => ?nothing⟩⟩
  case beat =>
    have after (h : HeadId) : (headIds.foldl State.claimBeat (s.setBeat s.beat.expire)).settle.seq h =
        (s.seq h).beat s.beat.claimLimit := by rw [State.seq_settle, State.seq_claimBeats]; rfl
    have claimed {h : HeadId} {c : Claim} (held : (s.seq h).claim = some c) :
        (headIds.foldl State.claimBeat (s.setBeat s.beat.expire)).settle.seq h =
          { s.seq h with claim := some (c.beat s.beat.claimLimit).1 } := by
      rw [after, Sequencer.beat, held, Option.map_some]
    refine ⟨_, exec_beat running, ?_, fun h free => ?_, fun h c held => ⟨fun stopped => ?_, fun runs under => ?_, fun runs out =>
      ⟨?_, ?_⟩⟩⟩
    · rw [State.beat_settle, State.beat_claimBeats]
      rfl
    · rw [after, Sequencer.beat, free, Option.map_none, ← free]
    · rw [claimed held, Claim.beat_stopped stopped, ← held]
    · rw [claimed held, Claim.beat_under runs under]
    · rw [claimed held, Claim.beat_out runs out]
      rfl
    · have stops : ((s.setBeat s.beat.expire).seq h).runsOut (s.setBeat s.beat.expire).beat.claimLimit = true := by
        show (s.seq h).runsOut s.beat.claimLimit = true
        rw [Sequencer.runsOut, held, Option.map_some, Claim.beat_out runs out]
        rfl
      have raised := State.overdue_claimBeats (mem_headIds h) stops
      exact ⟨(Cascade.settle _).notice raised.1, (Cascade.settle _).notice raised.2⟩
  case overdue =>
    have arm : exec (.claimOverdue h) s = .next (s.claimExpires h) := rfl
    rw [arm, State.claimExpires, held]
    dsimp only
    rw [if_neg (ne_true_of_eq_false runs)]
    rfl
  case nothing =>
    have arm : exec (.claimOverdue h) s = .next (s.claimExpires h) := rfl
    rw [arm, State.claimExpires]
    obtain free | ⟨c, held, stopped⟩ := rests
    · rw [free]
    · rw [held]
      exact congrArg _ (if_pos stopped)

end Sys2Proof.Machine
end

section
/-!
PROOFS. What the blocks answer and set: the request for a station with the chain of waiting (R4, R5), the request for a line
(R79), and the speed setpoints and outer limits of a settled part (R54, R55, R138).
-/
namespace Sys2Proof.Machine

/-! ## Moves (R11, R14) -/

section
variable {s : State} {h : HeadId}

theorem State.sendMove_clear (clear : s.trip.tripped = false) (o d : StationId) :
    s.sendMove h o d = s.modCarrier h fun c => { c with
      position := .inTransit o d (.moving 0 c.moveLimit)
      moveNumber := c.moveNumber + 1
      sent := c.sent ++ [.move d (c.moveNumber + 1)] } := by
  rw [State.sendMove, clear]
  rfl

theorem State.forwardMove_still {o d : StationId} {st : MoveStatus}
    (transit : (s.carrier h).position = .inTransit o d st) (still : ∀ n l, st ≠ .moving n l) :
    s.forwardMove h = s.sendMove h o d := by
  rw [State.forwardMove, transit]
  cases st with
  | moving n l => exact absurd rfl (still n l)
  | halted => rfl
  | deferred => rfl

theorem State.forwardMove_moving {o d : StationId} {n l : Nat}
    (transit : (s.carrier h).position = .inTransit o d (.moving n l)) : s.forwardMove h = s := by
  rw [State.forwardMove, transit]

end

/-! ## The request for a station, case by case (R4) -/

section
variable {s : State} {h : HeadId} {d o e : StationId}

theorem State.acquire_transit {st : MoveStatus} (transit : (s.carrier h).position = .inTransit o d st) :
    s.acquire h d = (s.forwardMove h, .forward) := by
  rw [State.acquire, transit]
  exact if_pos rfl

theorem State.acquire_reversed {st : MoveStatus} (transit : (s.carrier h).position = .inTransit d e st) (ne : e ≠ d) :
    s.acquire h d = (s.reverseMove h d e, .reversed) := by
  rw [State.acquire, transit]
  exact (if_neg ne).trans (if_pos rfl)

theorem State.acquire_elsewhere {st : MoveStatus} (transit : (s.carrier h).position = .inTransit o e st) (no : o ≠ d)
    (ne : e ≠ d) : s.acquire h d = (s, .inTransit) := by
  rw [State.acquire, transit]
  exact (if_neg ne).trans (if_neg no)

theorem State.acquire_here (stands : (s.carrier h).position = .stands d) : s.acquire h d = (s, .alreadyHeld) := by
  rw [State.acquire, stands]
  exact if_pos rfl

theorem State.acquire_closed (stands : (s.carrier h).position = .stands o) (ne : o ≠ d) (closed : s.closedTo d = true) :
    s.acquire h d = (s, .unavailable) := by
  rw [State.acquire, stands]
  exact (if_neg ne).trans (if_pos closed)

theorem State.acquire_kept (stands : (s.carrier h).position = .stands o) (ne : o ≠ d) (op : s.closedTo d = false)
    (free : (s.station d).holder = none) (kept : s.keptForRun d = true) : s.acquire h d = (s, .unavailable) := by
  rw [State.acquire, stands]
  refine (if_neg ne).trans ((if_neg (ne_true_of_eq_false op)).trans ?_)
  rw [free]
  exact if_pos kept

theorem State.acquire_granted (stands : (s.carrier h).position = .stands o) (ne : o ≠ d) (op : s.closedTo d = false)
    (free : (s.station d).holder = none) (unkept : s.keptForRun d = false) :
    s.acquire h d = ((s.modStation d fun r => { r with holder := some (.head h) }).sendMove h o d, .granted) := by
  rw [State.acquire, stands]
  refine (if_neg ne).trans ((if_neg (ne_true_of_eq_false op)).trans ?_)
  rw [free]
  exact if_neg (ne_true_of_eq_false unkept)

/-- A station that is held: the chain of waiting is followed, and a place in the wait list is needed (R3, R5). -/
theorem State.acquire_held (stands : (s.carrier h).position = .stands o) (ne : o ≠ d) (op : s.closedTo d = false)
    (held : (s.station d).holder ≠ none) :
    s.acquire h d =
      if s.closesCycle h 4 d then (s, .cycle)
      else if 3 ≤ (s.station d).wait.length then (s, .unavailable)
      else (s.modStation d fun r => r.join h, .queued) := by
  obtain ⟨x, some_⟩ := Option.ne_none_iff_exists'.1 held
  rw [State.acquire, stands]
  refine (if_neg ne).trans ((if_neg (ne_true_of_eq_false op)).trans ?_)
  rw [some_]
  rfl

theorem Station.join_of_not_mem {r : Station} (new : h ∉ r.wait) : r.join h = { r with wait := r.wait ++ [h] } :=
  if_neg new

theorem State.closedTo_iff : s.closedTo d = true ↔
    (s.station d).inService = false ∨ ∃ p, d = .platen p ∧ ((s.pad p).state = .unknown ∨ (s.pad p).state = .retired) := by
  unfold State.closedTo
  cases d <;> simp

theorem State.keptForRun_iff : s.keptForRun d = true ↔
    ∃ p, d = .platen p ∧ (0 < (s.pad p).owed ∨ (s.pad p).state = .breakIn) := by
  unfold State.keptForRun
  cases d <;> simp

theorem State.keptForRun_eq_false_iff : s.keptForRun d = false ↔
    ∀ p, d = .platen p → (s.pad p).owed = 0 ∧ (s.pad p).state ≠ .breakIn := by
  unfold State.keptForRun
  cases d <;> simp

end

/-! ## The chain of waiting (R5) -/

section
variable {s : State} {h g : HeadId} {d x : StationId}

theorem State.closesCycle_end (holder : (s.station d).holder = some (.head g)) (free : s.awaited g = none) (n : Nat) :
    s.closesCycle h n d = false := by
  cases n with
  | zero => rfl
  | succ n => rw [State.closesCycle, holder]; dsimp only; rw [free]

theorem State.closesCycle_closed (holder : (s.station d).holder = some (.head g)) (awaits : s.awaited g = some x)
    (own : (s.station x).holder = some (.head h)) (n : Nat) : s.closesCycle h (n + 1) d = true := by
  rw [State.closesCycle, holder]
  dsimp only
  rw [awaits]
  exact if_pos own

theorem State.closesCycle_next (holder : (s.station d).holder = some (.head g)) (awaits : s.awaited g = some x)
    (other : (s.station x).holder ≠ some (.head h)) (n : Nat) : s.closesCycle h (n + 1) d = s.closesCycle h n x := by
  rw [State.closesCycle, holder]
  dsimp only
  rw [awaits]
  exact if_neg other

theorem State.closesCycle_headless (holder : (s.station d).holder = none ∨ (s.station d).holder = some .conditioner)
    (n : Nat) : s.closesCycle h n d = false := by
  cases n with
  | zero => rfl
  | succ n => obtain free | run := holder <;> rw [State.closesCycle] <;> simp only [*]

end

/-! ## The request for a line, case by case (R79) -/

section
variable {s : State} {l : LineId} {n : NozzleId}

theorem Line.feeds_iff {k : Line} : k.feeds n = true ↔ ∃ g f, k.state = .bound n g f := by
  unfold Line.feeds
  cases k.state <;> simp

theorem Line.join_of_not_mem {k : Line} (new : n ∉ k.wait) : k.join n = { k with wait := k.wait ++ [n] } := if_neg new

theorem State.acquireLine_kept (h : HeadId) (flow : Nat) (resuming : Bool) (feeds : (s.line l).feeds n = true) :
    s.acquireLine l n h flow resuming = (s, .bound) := if_pos feeds

/-- A line that does not feed the nozzle answers by its state. -/
theorem State.acquireLine_of (h : HeadId) (flow : Nat) (resuming : Bool) (feeds : (s.line l).feeds n = false) :
    s.acquireLine l n h flow resuming =
      match (s.line l).state with
      | .disabled => (s, .unavailable)
      | .idle =>
        if (s.line l).wait.isEmpty && !s.trip.tripped then (s.setLine l { s.line l with state := .bound n h flow }, .bound)
        else ((s.setLine l ((s.line l).join n)).raise .recipe (.lineWait h), .queued)
      | .faulted _ =>
        if resuming then (s, .faulted)
        else ((s.setLine l ((s.line l).join n)).raise .recipe (.lineWait h), .queued)
      | .bound _ _ _ => ((s.setLine l ((s.line l).join n)).raise .recipe (.lineWait h), .queued) :=
  if_neg (ne_true_of_eq_false feeds)

end

/-- Settles O54: the cases of R4, of R5 and of R79, each by its own lemma. -/
theorem stationRequests : Obligations.StationRequests := by
  refine ⟨fun s h d => ⟨State.acquire_here, fun o n l moving => ?forward, fun o st transit still clear => ?sentOn,
      fun e n l transit ne clear => ?reversed, fun o e st transit no ne => State.acquire_elsewhere transit no ne,
      fun o stands ne => ⟨fun shut => State.acquire_closed stands ne (State.closedTo_iff.2 shut),
        fun op free => ⟨fun kept => State.acquire_kept stands ne op free (State.keptForRun_iff.2 kept),
          fun unkept clear => ?granted⟩,
        fun op held => ⟨fun cycle => ?cycle, fun open_ full => ?full, fun open_ room new => ?queued⟩⟩,
      fun g holder free => State.closesCycle_end holder free 4,
      fun g x holder awaits own => State.closesCycle_closed holder awaits own 3,
      fun g x n holder awaits other => State.closesCycle_next holder awaits other n,
      fun g x k y holder awaits next waits own => ?three, fun headless => ?headless⟩,
    fun s l n h flow resuming => ⟨fun g f bound => State.acquireLine_kept h flow resuming (Line.feeds_iff.2 ⟨g, f, bound⟩),
      fun disabled => ?disabled, fun idle unwaited clear => ?bound, fun x faulted => ?faulted, fun cases new => ?waits⟩⟩
  case forward => rw [State.acquire_transit moving, State.forwardMove_moving moving]
  case sentOn => rw [State.acquire_transit transit, State.forwardMove_still transit still, State.sendMove_clear clear]
  case reversed =>
    have halted : (s.haltMove h).trip.tripped = false := clear
    rw [State.acquire_reversed transit ne, State.reverseMove, State.sendMove_clear halted, State.haltMove,
      State.modCarrier_eq, State.modCarrier_eq, State.modCarrier_eq, State.carrier_setCarrier_self, State.setCarrier_setCarrier,
      Carrier.halt, transit]
  case granted =>
    rw [State.acquire_granted stands ne op free (State.keptForRun_eq_false_iff.2 unkept),
      State.sendMove_clear (s := s.modStation d _) clear]
  case cycle => rw [State.acquire_held stands ne op held, if_pos cycle]
  case full => rw [State.acquire_held stands ne op held, if_neg (ne_true_of_eq_false open_), if_pos full]
  case queued =>
    rw [State.acquire_held stands ne op held, if_neg (ne_true_of_eq_false open_), if_neg (Nat.not_le.2 room),
      State.modStation_eq, Station.join_of_not_mem new, State.modStation_eq]
  case three =>
    have closes : s.closesCycle h 4 d = true := by
      by_cases own' : (s.station x).holder = some (.head h)
      · exact State.closesCycle_closed holder awaits own' 3
      · rw [State.closesCycle_next holder awaits own' 3]
        exact State.closesCycle_closed next waits own 2
    refine ⟨closes, fun o stands ne op => ?_⟩
    rw [State.acquire_held stands ne op (by rw [holder]; exact Option.some_ne_none _), if_pos closes]
  case headless => exact ⟨State.closesCycle_headless headless 4, State.closesCycle_headless headless⟩
  case disabled =>
    have feeds : (s.line l).feeds n = false := by rw [Line.feeds, disabled]
    rw [State.acquireLine_of h flow resuming feeds, disabled]
  case bound =>
    have feeds : (s.line l).feeds n = false := by rw [Line.feeds, idle]
    rw [State.acquireLine_of h flow resuming feeds, idle, unwaited, clear]
    rfl
  case faulted =>
    have feeds : (s.line l).feeds n = false := by rw [Line.feeds, faulted]
    rw [State.acquireLine_of h flow true feeds, faulted]
    rfl
  case waits =>
    rw [← Line.join_of_not_mem new]
    obtain ⟨m, g, f, bound, ne⟩ | ⟨rfl, x, faulted⟩ | ⟨idle, held⟩ := cases
    · have feeds : (s.line l).feeds n = false := by rw [Line.feeds, bound]; exact decide_eq_false ne
      rw [State.acquireLine_of h flow resuming feeds, bound]
    · have feeds : (s.line l).feeds n = false := by rw [Line.feeds, faulted]
      rw [State.acquireLine_of h flow false feeds, faulted]
      rfl
    · have feeds : (s.line l).feeds n = false := by rw [Line.feeds, idle]
      have off : ((s.line l).wait.isEmpty && !s.trip.tripped) = false := by
        rw [Bool.and_eq_false_iff, List.isEmpty_eq_false_iff, Bool.not_eq_false']
        exact held
      rw [State.acquireLine_of h flow resuming feeds, idle, off]
      rfl

/-! ## A settled part -/

section
variable {s : State} {p : PlatenId}

theorem Timebase.speed_setSpeed (b : Timebase) (v : Nat) : (b.setSpeed v).speed = v := by
  unfold Timebase.setSpeed
  grind

/-- At a setpoint of 0 there is neither stall timer nor stalled mark (R55). -/
theorem Timebase.stop_setSpeed {b : Timebase} {v : Nat} (stop : v = 0) :
    (b.setSpeed v).stallTimer = none ∧ (b.setSpeed v).stalled = false := by
  unfold Timebase.setSpeed
  grind

theorem State.Settled.speed (k : s.Settled) (p : PlatenId) : (s.base p).speed = s.speedWanted p := by
  have at_ := ((State.settled_iff s).1 k p).2
  rw [← at_, Timebase.speed_setSpeed]

theorem State.Settled.outer (k : s.Settled) (p : PlatenId) : (s.cond p).outer = s.outerWanted p :=
  ((State.settled_iff s).1 k p).1

theorem State.Settled.stop (k : s.Settled) (stop : (s.base p).speed = 0) :
    (s.base p).stallTimer = none ∧ (s.base p).stalled = false := by
  have at_ := ((State.settled_iff s).1 k p).2
  rw [← at_]
  exact Timebase.stop_setSpeed (k.speed p ▸ stop)

theorem State.headOn_eq_some_iff {h : HeadId} : s.headOn p = some h ↔ (s.station (.platen p)).holder = some (.head h) := by
  unfold State.headOn
  cases (s.station (.platen p)).holder with
  | none => simp
  | some x => cases x <;> simp

theorem State.speedWanted_head {h : HeadId} (clear : s.trip.tripped = false) (on : s.headOn p = some h) :
    s.speedWanted p = if (s.seq h).state = .running then (s.seq h).speedOn p else 0 := by
  rw [State.speedWanted, clear, State.headOn_eq_some_iff.1 on]
  simp [State.isRunning]

theorem State.outerWanted_head {h : HeadId} (on : s.headOn p = some h) :
    s.outerWanted p = if s.isDown h then .keepOut else
      match s.current h with
      | some w => if w.polish?.isSome ∧ w.phase = some .keepoutWait then .keepOut else .outer
      | none => .outer := by
  rw [State.outerWanted, on] <;> rfl

end

theorem Working.polish?_polish {w : Working} {r : PolishRecord} (kind : w.record.kind = .polish r) : w.polish? = some r := by
  rw [Working.polish?, kind]

theorem Working.polish?_dwell {w : Working} {n : Nat} (kind : w.record.kind = .dwell n) : w.polish? = none := by
  rw [Working.polish?, kind]

theorem Working.polish?_eq_some_iff {w : Working} {r : PolishRecord} : w.polish? = some r ↔ w.record.kind = .polish r := by
  unfold Working.polish?
  cases w.record.kind <;> simp

theorem State.current_eq_some_iff {s : State} {h : HeadId} {w : Working} :
    s.current h = some w ↔ (s.seq h).activity = some (.step w) := by
  unfold State.current
  split
  · next x activity => rw [activity]; simp
  · next other => exact iff_of_false (fun no => nomatch no) (other w)

theorem Working.speedOn_phase {w : Working} {r : PolishRecord} {f : Phase} {p : PlatenId} (kind : w.record.kind = .polish r)
    (platen : w.platen = some p) (phase : w.phase = some f) (at_ : f.atPlaten = true) : w.speedOn p = some r.speed := by
  rw [Working.speedOn, Working.polish?_polish kind, phase]
  exact if_pos ⟨platen, at_⟩

theorem Context.speedOn_step {w : Working} {r : PolishRecord} {p : PlatenId} {tr : Option Position}
    (kind : w.record.kind = .polish r) (platen : w.platen = some p) :
    Context.speedOn ⟨.step w, tr⟩ p = some r.speed := by
  rw [Context.speedOn]
  dsimp only
  rw [Working.polish?_polish kind]
  exact if_pos platen

/-- Settles O55: a settled part has each setpoint as `speedWanted` and each outer limit as `outerWanted` gives it, and the
clauses are the cases of those two. -/
theorem speedSetpoints : Obligations.SpeedSetpoints := by
  intro s p k
  rw [k.outer p]
  refine ⟨fun tripped => ?tripped, k.stop, fun clear => ⟨fun free => ?free, fun held => ?run, fun h on => ?head⟩,
    fun h on down => ?down, fun h w r on step kind phase => ?keepout, fun h on up other => ?outer,
    State.outerWanted_noHead⟩
  case tripped => rw [k.speed, State.speedWanted, tripped]; rfl
  case free => rw [k.speed, State.speedWanted, clear, free]; rfl
  case run => rw [k.speed, State.speedWanted, clear, held]; rfl
  case head =>
    rw [k.speed, State.speedWanted_head clear on]
    refine ⟨fun stopped => if_neg stopped, fun w r f run step kind platen phase at_ => ?_,
      fun j cs x w r tr run inter class_ stack kind platen => ?_, fun j cs x run inter class_ => ?_, fun w n run step kind => ?_⟩
    · rw [if_pos run, Sequencer.speedOn, step]
      dsimp only
      rw [Working.speedOn_phase kind platen phase at_]
      rfl
    · have saved : ((s.seq h).stack.findSome? (·.speedOn p)).getD 0 = r.speed := by
        rw [stack, List.findSome?_singleton, Context.speedOn_step kind platen]
        rfl
      rw [if_pos run, Sequencer.speedOn, inter]
      obtain rfl | rfl := class_ <;> exact saved
    · rw [if_pos run, Sequencer.speedOn, inter]
      obtain rfl | rfl := class_ <;> rfl
    · rw [if_pos run, Sequencer.speedOn, step]
      dsimp only
      rw [Working.speedOn, Working.polish?_dwell kind]
      rfl
  case down => rw [State.outerWanted_head on, if_pos down]
  case keepout =>
    rw [State.outerWanted_head on, State.current_eq_some_iff.2 step]
    have waits : w.polish?.isSome = true ∧ w.phase = some .keepoutWait := ⟨by rw [Working.polish?_polish kind]; rfl, phase⟩
    simp only [waits, and_self, if_true, ite_self]
  case outer =>
    rw [State.outerWanted_head on, if_neg (ne_true_of_eq_false up)]
    cases current : s.current h with
    | none => rfl
    | some w =>
      refine if_neg ?_
      rintro ⟨polish, phase⟩
      obtain ⟨r, some_⟩ := Option.isSome_iff_exists.1 polish
      exact other w r (State.current_eq_some_iff.1 current) (Working.polish?_eq_some_iff.1 some_) phase

end Sys2Proof.Machine
end

section
/-!
PROOFS. The restart beat (R183): the state it leaves is settled as it stands, since the module is tripped and no head is DOWN,
so each clause reads off the warm-restart value of its block.
-/
namespace Sys2Proof.Machine

/-! ## The restart state is settled -/

theorem State.isDown_warmRestart (s : State) (h : HeadId) : s.warmRestart.isDown h = false := by
  rw [State.isDown, State.zone_warmRestart]

theorem State.current_warmRestart (s : State) (h : HeadId) : s.warmRestart.current h = none := by
  rw [State.current, State.seq_warmRestart]
  rfl

theorem State.outerWanted_warmRestart (s : State) (p : PlatenId) : s.warmRestart.outerWanted p = .outer := by
  cases on : s.warmRestart.headOn p with
  | none => exact State.outerWanted_noHead on
  | some h => rw [State.outerWanted_head on, State.isDown_warmRestart, State.current_warmRestart]; rfl

theorem State.settle_warmRestart (s : State) : s.warmRestart.settle = s.warmRestart := by
  refine State.settle_of_settledAt fun p => ⟨?_, ?_⟩
  · rw [State.cond_warmRestart, State.outerWanted_warmRestart]
    rfl
  · have stopped : s.warmRestart.speedWanted p = 0 := rfl
    rw [stopped, State.base_warmRestart]
    rfl

/-- The restart beat, by either name (log entry 3). -/
theorem State.beatExpiry_restart {s : State} (pending : s.beat.restartPending = true) :
    s.beatExpiry = (s.setBeat s.beat.expire).warmRestart := if_pos pending

/-! ## Blocks -/

theorem Carrier.restart_stands {c : Carrier} {d : StationId} (stands : c.position = .stands d) : c.restart = c := by
  rw [Carrier.restart, stands]

theorem Carrier.restart_gone {c : Carrier} (gone : ∀ d, c.position ≠ .stands d) :
    c.restart.position = .unplaced ∧ c.restart.moveNumber = c.moveNumber := by
  unfold Carrier.restart
  cases position : c.position with
  | stands d => exact absurd position (gone d)
  | unplaced => exact ⟨position, rfl⟩
  | inTransit o d st => cases st <;> simp [Carrier.halt, position]

theorem Conditioner.restart_arm (c : Conditioner) (g : PlatenConfig) :
    (c.restart g).arm = if c.arm = .stowed ∨ c.position ≤ g.stow then .stowed else .stowing := by
  unfold Conditioner.restart Conditioner.stow Conditioner.enter
  grind

section
variable {s : State} {d : StationId} {r : Station}

theorem State.restartStation_run (s : State) (d : StationId) (r : Station) :
    (s.restartStation d r).holder ≠ some .conditioner := by
  unfold State.restartStation
  grind

/-- A station is kept by a head that is AT it (R18). -/
theorem State.restartStation_head {h : HeadId} :
    (s.restartStation d r).holder = some (.head h) ↔ r.holder = some (.head h) ∧ (s.carrier h).position = .stands d := by
  rw [← State.stands?_eq_some_iff]
  unfold State.restartStation
  grind

end

/-! ## Notices -/

theorem State.notices_raise (s : State) (q r : Port) (n : Notice) :
    ((s.raise q n).port r).notices = if r = q then addNotice q n (s.port q).notices else (s.port r).notices := by
  rw [State.raise, State.modPort_eq, State.port_setPort]
  split <;> rfl

/-- In a canonical set a notice of the port is added and nothing else changes. -/
theorem State.mem_raise {s : State} {q : Port} {n m : Notice} (c : (s.port q).canonical q)
    (held : (n.kind q).isSome = true) : m ∈ ((s.raise q n).port q).notices ↔ m = n ∨ m ∈ (s.port q).notices := by
  rw [State.notices_raise, if_pos rfl, mem_addNotice]
  refine ⟨And.right, fun h => ⟨?_, h⟩⟩
  obtain rfl | old := h
  · exact mem_catalogue_iff.2 held
  · exact c.sublist.subset old

/-- The watches that the restart closes, one platen after another. -/
theorem State.watches_closed (s : State) (ps : List PlatenId) {t : State} (c : (t.port .endpoint).canonical .endpoint) :
    let u := ps.foldl (fun x p => if (s.qual p).state = .idle then x else x.raise .endpoint (.watchClosed p)) t
    (∀ n, n ∈ (u.port .endpoint).notices ↔
      n ∈ (t.port .endpoint).notices ∨ ∃ p ∈ ps, n = .watchClosed p ∧ (s.qual p).state ≠ .idle) ∧
      (∀ q, q ≠ .endpoint → (u.port q).notices = (t.port q).notices) := by
  induction ps generalizing t with
  | nil => exact ⟨fun n => by simp, fun q _ => rfl⟩
  | cons p rest ih =>
    by_cases idle : (s.qual p).state = .idle
    · obtain ⟨closed, others⟩ := ih c
      simp only [List.foldl_cons, if_pos idle]
      refine ⟨fun n => (closed n).trans ?_, others⟩
      simp [idle]
    · obtain ⟨closed, others⟩ := ih (((Cascade.raise t .endpoint (.watchClosed p)).port .endpoint).canonical c)
      simp only [List.foldl_cons, if_neg idle]
      refine ⟨fun n => (closed n).trans ?_, fun q ne => (others q ne).trans ?_⟩
      · rw [State.mem_raise c rfl]
        simp [idle, or_assoc, or_left_comm]
      · rw [State.notices_raise, if_neg ne]

/-- The pending sets of a restart (R177). -/
theorem State.notices_restartPorts (s : State) :
    (s.restartPorts.port .recipe).notices = [.tripped, .restarted] ∧
      (s.restartPorts.port .transfer).notices = [.tripped] ∧
      ∀ n, n ∈ (s.restartPorts.port .endpoint).notices ↔ ∃ p, n = .watchClosed p ∧ (s.qual p).state ≠ .idle := by
  have cleared : ∃ u : State, ((u.port .recipe).notices = [.tripped, .restarted] ∧ (u.port .transfer).notices = [.tripped] ∧
      (u.port .endpoint).notices = []) ∧ s.restartPorts = platenIds.foldl
        (fun x p => if (s.qual p).state = .idle then x else x.raise .endpoint (.watchClosed p)) u := by
    refine ⟨_, ⟨?_, ?_, ?_⟩, rfl⟩ <;> rfl
  obtain ⟨u, ⟨recipe, transfer, endpoint⟩, eq⟩ := cleared
  obtain ⟨closed, others⟩ := s.watches_closed platenIds (PortUnit.canonical_empty (q := .endpoint) endpoint)
  rw [eq]
  refine ⟨(others .recipe (by decide)).trans recipe, (others .transfer (by decide)).trans transfer, fun n => (closed n).trans ?_⟩
  rw [endpoint]
  refine ⟨fun h => ?_, fun ⟨p, is, watched⟩ => .inr ⟨p, by cases p <;> decide, is, watched⟩⟩
  obtain ⟨p, -, is, watched⟩ := h.resolve_left List.not_mem_nil
  exact ⟨p, is, watched⟩

/-- Settles O29: each block of the restarted state, which settling leaves as it is. -/
theorem warmRestart : Obligations.WarmRestart := by
  refine fun s => ⟨fun running => ?none, fun pending => ?restarts⟩
  case none =>
    have arm : exec .warmRestart s = .next (if s.beat.restartPending then s.beatExpiry.settle else s) := rfl
    rw [arm, running]
    rfl
  case restarts =>
    have beat : exec .beat s = .next (s.setBeat s.beat.expire).warmRestart := by
      have arm : exec .beat s = .next s.beatExpiry.settle := rfl
      rw [arm, State.beatExpiry_restart pending, State.settle_warmRestart]
    have restart : exec .warmRestart s = .next (s.setBeat s.beat.expire).warmRestart := by
      have arm : exec .warmRestart s = .next (if s.beat.restartPending then s.beatExpiry.settle else s) := rfl
      rw [arm, if_pos pending, State.beatExpiry_restart pending, State.settle_warmRestart]
    obtain ⟨recipe, transfer, endpoint⟩ := (s.setBeat s.beat.expire).notices_restartPorts
    refine ⟨_, restart, beat, rfl, rfl, fun h d stands => ?standing, fun h gone => ?gone, fun h => ?seq, fun h => ?zone,
      fun d => ?station, fun p => ?base, fun l => ?line, fun p => ?qual, fun p => ?cond, fun p => ?pad, recipe, transfer,
      endpoint, fun q => ?port⟩
    case standing =>
      rw [State.carrier_warmRestart, State.seq_warmRestart]
      refine ⟨Carrier.restart_stands stands, ?_⟩
      rw [State.stands?_eq_some_iff.2 (show ((s.setBeat s.beat.expire).carrier h).position = .stands d from stands)]
      rfl
    case gone =>
      rw [State.carrier_warmRestart, State.seq_warmRestart]
      have unplaced : (s.setBeat s.beat.expire).stands? h = none := by
        rw [Option.eq_none_iff_forall_ne_some]
        exact fun d is => gone d (State.stands?_eq_some_iff.1 is)
      obtain ⟨position, number⟩ := Carrier.restart_gone gone
      refine ⟨position, number, ?_⟩
      rw [unplaced]
      rfl
    case seq =>
      rw [State.seq_warmRestart]
      rfl
    case zone => exact State.zone_warmRestart ..
    case station =>
      rw [State.station_warmRestart]
      exact ⟨rfl, rfl, State.restartStation_run _ _ _, fun h => State.restartStation_head⟩
    case base =>
      rw [State.base_warmRestart]
      rfl
    case line =>
      rw [State.line_warmRestart]
      refine ⟨rfl, Line.pumpOn_restart _, rfl, rfl, rfl, fun n h f bound => ?_, fun idle => ?_, fun disabled => ?_,
        fun x faulted => ?_⟩
      all_goals rw [Line.restart, show ((s.setBeat s.beat.expire).line l).state = _ by assumption]
      rfl
    case qual => cases p <;> rfl
    case cond =>
      rw [State.cond_warmRestart]
      exact ⟨rfl, rfl, (Conditioner.restart_kept ..).position, rfl, rfl, Conditioner.restart_arm ..⟩
    case pad =>
      rw [State.pad_warmRestart, State.disk_warmRestart]
      exact ⟨rfl, rfl⟩
    case port =>
      obtain ⟨mask, window, -, -⟩ := (s.setBeat s.beat.expire).port_restartPorts q
      exact ⟨mask, window⟩

end Sys2Proof.Machine
end

section
/-!
PROOFS. The tables that each operation of a cascade writes, and what the beginning of an intervention (R117) and a resumable
halt (R25) leave at their own head.
-/
namespace Sys2Proof.Machine

/-! ## The tables an operation writes -/

section
variable (s : State) (h : HeadId) (p : PlatenId)

theorem State.disown_writes : ∃ b, s.disown h = { s with bases := b } := by
  unfold State.disown
  cases s.ownedPlaten h with
  | none => exact ⟨_, rfl⟩
  | some p => exact ⟨_, rfl⟩

theorem State.closeWatch_writes : ∃ q r, s.closeWatch p = { s with quals := q, ports := r } := by
  unfold State.closeWatch
  split
  · exact ⟨_, _, rfl⟩
  · exact ⟨_, _, rfl⟩

theorem State.closeWatches_writes (ps : List PlatenId) (s : State) :
    ∃ q r, ps.foldl (fun t p => if (t.qual p).state.watching = some h then t.closeWatch p else t) s =
      { s with quals := q, ports := r } := by
  induction ps generalizing s with
  | nil => exact ⟨_, _, rfl⟩
  | cons p rest ih =>
    rw [List.foldl_cons]
    split
    · obtain ⟨q, r, closed⟩ := s.closeWatch_writes p
      obtain ⟨q', r', others⟩ := ih (s.closeWatch p)
      refine ⟨q', r', others.trans ?_⟩
      rw [closed]
    · exact ih s

theorem State.closeWatchOf_writes : ∃ q r, s.closeWatchOf h = { s with quals := q, ports := r } :=
  State.closeWatches_writes h platenIds s

theorem State.withdraw_writes : ∃ c, s.withdraw h = { s with conds := c } := ⟨_, rfl⟩

theorem State.dropLine_writes : ∃ k, s.dropLine h = { s with lines := k } := by
  unfold State.dropLine
  cases s.platenOf h with
  | none => exact ⟨_, rfl⟩
  | some n => exact ⟨_, rfl⟩

theorem State.suspendStep_writes : ∃ b q c k r, s.suspendStep h =
    { s with bases := b, quals := q, conds := c, lines := k, ports := r } := by
  obtain ⟨b, disowned⟩ := s.disown_writes h
  obtain ⟨q, r, closed⟩ := (s.disown h).closeWatchOf_writes h
  obtain ⟨c, withdrawn⟩ := ((s.disown h).closeWatchOf h).withdraw_writes h
  obtain ⟨k, dropped⟩ := (((s.disown h).closeWatchOf h).withdraw h).dropLine_writes h
  refine ⟨b, q, c, k, r, dropped.trans ?_⟩
  rw [withdrawn, closed, disowned]

theorem State.leaveWaits_writes : ∃ x, s.leaveWaits h = { s with stations := x } := ⟨_, rfl⟩

theorem State.diskSweep_writes : ∃ k r, s.diskSweep p = { s with disks := k, ports := r } := by
  rw [State.diskSweep]
  cases (s.disk p).sweep.2
  · exact ⟨_, _, rfl⟩
  · exact ⟨_, _, rfl⟩

theorem State.refreshOuter_writes : ∃ c k r, s.refreshOuter p = { s with conds := c, disks := k, ports := r } := by
  rw [State.refreshOuter_eq]
  split
  · obtain ⟨k, r, swept⟩ := (s.setCond p ((s.cond p).decided (s.base p).config (s.outerWanted p))).diskSweep_writes p
    exact ⟨_, k, r, swept⟩
  · exact ⟨_, _, _, rfl⟩

theorem State.liftUp_writes : ∃ z c k r, s.liftUp h = { s with zones := z, conds := c, disks := k, ports := r } := by
  unfold State.liftUp
  split
  · cases s.platenOf h with
    | none => exact ⟨_, _, _, _, rfl⟩
    | some p =>
      obtain ⟨c, k, r, refreshed⟩ := (s.modZone h fun z => { z with lift := .up }).refreshOuter_writes p
      exact ⟨_, c, k, r, refreshed⟩
  · exact ⟨_, _, _, _, rfl⟩

end

/-! ## What they leave unchanged -/

section
variable (s : State) (h g : HeadId)

@[simp] theorem State.seq_suspendStep : (s.suspendStep h).seq g = s.seq g := (Aside.suspendStep s h).seq
@[simp] theorem State.zone_suspendStep : (s.suspendStep h).zone g = s.zone g := (Aside.suspendStep s h).zone
@[simp] theorem State.carrier_suspendStep : (s.suspendStep h).carrier g = s.carrier g := (Aside.suspendStep s h).carrier

@[simp] theorem State.seq_leaveWaits : (s.leaveWaits h).seq g = s.seq g := rfl
@[simp] theorem State.zone_leaveWaits : (s.leaveWaits h).zone g = s.zone g := rfl
@[simp] theorem State.carrier_leaveWaits : (s.leaveWaits h).carrier g = s.carrier g := rfl

@[simp] theorem State.seq_haltMove : (s.haltMove h).seq g = s.seq g := rfl
@[simp] theorem State.zone_haltMove : (s.haltMove h).zone g = s.zone g := rfl

@[simp] theorem State.seq_liftUp : (s.liftUp h).seq g = s.seq g := by
  obtain ⟨_, _, _, _, lifted⟩ := s.liftUp_writes h
  rw [lifted]
  rfl

@[simp] theorem State.carrier_liftUp : (s.liftUp h).carrier g = s.carrier g := by
  obtain ⟨_, _, _, _, lifted⟩ := s.liftUp_writes h
  rw [lifted]
  rfl

@[simp] theorem State.station_liftUp (d : StationId) : (s.liftUp h).station d = s.station d := by
  obtain ⟨_, _, _, _, lifted⟩ := s.liftUp_writes h
  rw [lifted]
  rfl

@[simp] theorem State.station_haltMove (d : StationId) : (s.haltMove h).station d = s.station d := rfl

@[simp] theorem State.trip_liftUp : (s.liftUp h).trip = s.trip := (Cascade.liftUp s h).trip

/-- A zone monitor decides whether its head is DOWN. -/
theorem State.isDown_congr {s t : State} {h : HeadId} (zone : t.zone h = s.zone h) : t.isDown h = s.isDown h := by
  rw [State.isDown, zone, State.isDown]

theorem Aside.isDown {h : HeadId} {s t : State} (a : Aside h s t) : t.isDown h = s.isDown h := State.isDown_congr a.zone

@[simp] theorem State.isDown_raise (q : Port) (n : Notice) : (s.raise q n).isDown g = s.isDown g :=
  State.isDown_congr (State.zone_raise ..)

@[simp] theorem State.isDown_setSeq (x : Sequencer) : (s.setSeq h x).isDown g = s.isDown g := rfl

theorem State.not_waiting_leaveWaits (d : StationId) : h ∉ ((s.leaveWaits h).station d).wait := by
  have left : ((s.leaveWaits h).station d) = (s.station d).leave h := by
    cases d with
    | platen p => cases p <;> rfl
    | _ => rfl
  rw [left, Station.leave]
  simp

end

/-! ## A resumable halt (R25) -/

section
variable (s : State) (h : HeadId) (r : HaltReason)

theorem State.seq_haltResumable : (s.haltResumable h r).seq h = { s.seq h with state := (s.seq h).state.halt r } := by
  rw [State.haltResumable, State.seq_raise, State.modSeq_eq, State.seq_setSeq_self, State.seq_liftUp, State.seq_leaveWaits]

theorem State.isDown_haltResumable : (s.haltResumable h r).isDown h = false := by
  rw [State.haltResumable, State.isDown_raise, State.modSeq_eq, State.isDown_setSeq, State.isDown_liftUp, if_pos rfl]

theorem State.carrier_haltResumable (g : HeadId) : (s.haltResumable h r).carrier g = s.carrier g := by
  rw [State.haltResumable, State.carrier_raise, State.modSeq_eq, State.carrier_setSeq, State.carrier_liftUp,
    State.carrier_leaveWaits]

theorem State.station_haltResumable (d : StationId) : (s.haltResumable h r).station d = (s.leaveWaits h).station d := by
  rw [State.haltResumable, State.station_raise, State.modSeq_eq, State.station_setSeq, State.station_liftUp]

theorem State.notice_haltResumable : .halted h ∈ ((s.haltResumable h r).port .recipe).notices :=
  State.notice_raise

end

/-! ## The beginning of an intervention (R117 to R119) -/

section
variable (s : State) (h : HeadId) (a : Activity) (c : Cause)

/-- The head with its activity saved and the intervention current (R117 steps 1 to 5), before the entry work of its class. -/
def State.intervene : State :=
  (((((s.suspendStep h).leaveWaits h).haltMove h).pushContext h
    ⟨s.saved h a, (s.carrier h).halt.position.transit?⟩).modSeq h
      fun q => { q with activity := some (.intervention c.cls [c] c.cls.progress) })

theorem State.carrier_suspended : (((s.suspendStep h).leaveWaits h).haltMove h).carrier h = (s.carrier h).halt := by
  rw [State.carrier_haltMove, if_pos rfl, State.carrier_leaveWaits, State.carrier_suspendStep]

theorem State.beginIntervention_eq : s.beginIntervention h a c =
    (((s.intervene h a c).enterClass h c.cls).modSeq h Sequencer.bump).raise .recipe (.intervened h) := by
  rw [State.beginIntervention, State.carrier_suspended]
  rfl

/-- A push writes the head's sequencer, and the port where it discards a context. -/
theorem State.pushContext_eq (k : Context) : s.pushContext h k =
    if ((s.seq h).push k).2 = true then (s.setSeq h ((s.seq h).push k).1).raise .recipe (.contextLost h)
    else s.setSeq h ((s.seq h).push k).1 := rfl

@[simp] theorem State.seq_pushContext (k : Context) : (s.pushContext h k).seq h = ((s.seq h).push k).1 := by
  rw [State.pushContext_eq]
  split
  · rw [State.seq_raise, State.seq_setSeq_self]
  · rw [State.seq_setSeq_self]

@[simp] theorem State.carrier_pushContext (k : Context) (g : HeadId) : (s.pushContext h k).carrier g = s.carrier g := by
  rw [State.pushContext_eq]
  split <;> rfl

@[simp] theorem State.zone_pushContext (k : Context) (g : HeadId) : (s.pushContext h k).zone g = s.zone g := by
  rw [State.pushContext_eq]
  split <;> rfl

@[simp] theorem State.station_pushContext (k : Context) (d : StationId) : (s.pushContext h k).station d = s.station d := by
  rw [State.pushContext_eq]
  split <;> rfl

theorem State.notice_pushContext {k : Context} (full : ((s.seq h).push k).2 = true) :
    .contextLost h ∈ ((s.pushContext h k).port .recipe).notices := by
  rw [State.pushContext_eq, if_pos full]
  exact State.notice_raise

theorem State.seq_intervene : (s.intervene h a c).seq h =
    { ((s.seq h).push ⟨s.saved h a, (s.carrier h).halt.position.transit?⟩).1 with
      activity := some (.intervention c.cls [c] c.cls.progress) } := by
  rw [State.intervene, State.modSeq_eq, State.seq_setSeq_self, State.seq_pushContext, State.seq_haltMove,
    State.seq_leaveWaits, State.seq_suspendStep]

theorem State.carrier_intervene : (s.intervene h a c).carrier h = (s.carrier h).halt := by
  rw [State.intervene, State.modSeq_eq, State.carrier_setSeq, State.carrier_pushContext, State.carrier_suspended]

theorem State.zone_intervene (g : HeadId) : (s.intervene h a c).zone g = s.zone g := by
  rw [State.intervene, State.modSeq_eq, State.zone_setSeq, State.zone_pushContext, State.zone_haltMove,
    State.zone_leaveWaits, State.zone_suspendStep]

theorem State.notice_intervene
    (full : ((s.seq h).push ⟨s.saved h a, (s.carrier h).halt.position.transit?⟩).2 = true) :
    .contextLost h ∈ ((s.intervene h a c).port .recipe).notices :=
  State.notice_pushContext _ h (by rwa [State.seq_haltMove, State.seq_leaveWaits, State.seq_suspendStep])

theorem SeqKept.bump (q : Sequencer) : SeqKept q q.bump where
  stack short := by rwa [Sequencer.bump, List.length_map]

/-- INTERVENED stands at the beginning of an intervention (R117 step 7). -/
theorem State.notice_beginIntervention : .intervened h ∈ ((s.beginIntervention h a c).port .recipe).notices := by
  rw [State.beginIntervention_eq]
  exact State.notice_raise

/-- With two contexts saved, CONTEXT_LOST stands (R116). -/
theorem State.contextLost_beginIntervention
    (full : ((s.seq h).push ⟨s.saved h a, (s.carrier h).halt.position.transit?⟩).2 = true) :
    .contextLost h ∈ ((s.beginIntervention h a c).port .recipe).notices := by
  rw [State.beginIntervention_eq]
  exact (Cascade.raise ..).notice (((Cascade.enterClass ..).trans (.modSeq (.bump _))).notice (s.notice_intervene h a c full))

end

section
variable {s : State} {h : HeadId} {a : Activity} {c : Cause}

/-- RINSE, LIFT and TRIP change neither the sequencer nor the carrier of their head on entry (R118). -/
theorem State.enterClass_aside {k : Intervention} (own : k ≠ .park) :
    (s.enterClass h k).seq h = s.seq h ∧ (s.enterClass h k).carrier h = s.carrier h := by
  cases k with
  | park => exact absurd rfl own
  | rinse => exact ⟨rfl, rfl⟩
  | lift => exact ⟨s.seq_liftUp h h, s.carrier_liftUp h h⟩
  | trip => exact ⟨s.seq_liftUp h h, s.carrier_liftUp h h⟩

theorem State.isDown_enterClass {k : Intervention} (raised : k = .lift ∨ k = .trip) :
    (s.enterClass h k).isDown h = false := by
  obtain rfl | rfl := raised
  · exact (s.isDown_liftUp h h).trans (if_pos rfl)
  · exact (s.isDown_liftUp h h).trans (if_pos rfl)

theorem State.isDown_applySet (s : State) (h : HeadId) (x : ZoneSet) (g : HeadId) :
    (s.applySet h x).isDown g = s.isDown g := by
  rw [State.applySet, State.modZone_eq, State.isDown, State.zone_setZone, State.isDown]
  by_cases eq : g = h
  · subst eq
    rw [if_pos rfl, ZoneMonitor.applySet]
    cases lift : (s.zone g).lift <;> simp [lift]
  · rw [if_neg eq]

/-- The sequencer of a head over whose activity a RINSE, a LIFT or a TRIP begins (R115 to R117). -/
theorem State.seq_beginIntervention (own : c.cls ≠ .park) : (s.beginIntervention h a c).seq h =
    Sequencer.bump { ((s.seq h).push ⟨s.saved h a, (s.carrier h).halt.position.transit?⟩).1 with
      activity := some (.intervention c.cls [c] none) } := by
  rw [State.beginIntervention_eq, State.seq_raise, State.modSeq_eq, State.seq_setSeq_self, (State.enterClass_aside own).1,
    State.seq_intervene]
  cases cls : c.cls with
  | park => exact absurd cls own
  | _ => rfl

theorem State.carrier_beginIntervention (own : c.cls ≠ .park) : (s.beginIntervention h a c).carrier h = (s.carrier h).halt := by
  rw [State.beginIntervention_eq, State.carrier_raise, State.modSeq_eq, State.carrier_setSeq,
    (State.enterClass_aside own).2, State.carrier_intervene]

theorem State.isDown_beginIntervention (raised : c.cls = .lift ∨ c.cls = .trip) :
    (s.beginIntervention h a c).isDown h = false := by
  rw [State.beginIntervention_eq, State.isDown_raise, State.modSeq_eq, State.isDown_setSeq, State.isDown_enterClass raised]

/-- A RINSE leaves the lift state as it is (R118). -/
theorem State.isDown_beginRinse (rinse : c.cls = .rinse) : (s.beginIntervention h a c).isDown h = s.isDown h := by
  rw [State.beginIntervention_eq, State.isDown_raise, State.modSeq_eq, State.isDown_setSeq, rinse, State.enterClass,
    State.isDown_applySet]
  exact State.isDown_congr (s.zone_intervene h a c h)

theorem Sequencer.push_of_room {q : Sequencer} (room : q.stack.length < 2) (k : Context) :
    q.push k = ({ q with stack := k :: q.stack }, false) := if_pos room

/-- An intervention begins over an activity of a lower class (R113). -/
theorem State.takeCause_begins (running : (s.seq h).state = .running) (busy : (s.seq h).activity = some a)
    (lower : a.rank < c.cls.rank) : s.takeCause h c = s.beginIntervention h a c := by
  have on : s.isRunning h = true := decide_eq_true running
  simp [State.takeCause, on, busy, lower]

end

/-! ## Handing on past a head that does not polish -/

theorem State.polishing_of_intervention {s : State} {h : HeadId} {k : Intervention} {cs : List Cause} {x : Option ParkProgress}
    (busy : (s.seq h).activity = some (.intervention k cs x)) : s.polishing h = none :=
  State.polishing_none (.inr (by rw [State.current, busy]))

theorem State.polishing_of_idle {s : State} {h : HeadId} (idle : (s.seq h).activity = none) : s.polishing h = none :=
  State.polishing_none (.inr (by rw [State.current, idle]))

/-- The causes of class LIFT, with what they leave at a head that they are raised on (R113, R117). -/
theorem State.raiseCause_lift {s : State} {h : HeadId} {a : Activity} {c : Cause} (lift : c.cls = .lift)
    (running : (s.seq h).state = .running) (busy : (s.seq h).activity = some a) (lower : a.rank < 2)
    (room : (s.seq h).stack.length < 2) :
    (s.raiseCause h c).seq h = Sequencer.bump { s.seq h with
        activity := some (.intervention .lift [c] none)
        stack := ⟨s.saved h a, (s.carrier h).halt.position.transit?⟩ :: (s.seq h).stack } ∧
      (s.raiseCause h c).carrier h = (s.carrier h).halt ∧ (s.raiseCause h c).isDown h = false ∧
      .intervened h ∈ ((s.raiseCause h c).port .recipe).notices := by
  have own : c.cls ≠ .park := by rw [lift]; decide
  have begins : s.raiseCause h c = (s.beginIntervention h a c).handOnAll := by
    rw [State.raiseCause, State.takeCause_begins running busy (by rw [lift]; exact lower)]
  have saved : (s.beginIntervention h a c).seq h = Sequencer.bump { s.seq h with
      activity := some (.intervention .lift [c] none)
      stack := ⟨s.saved h a, (s.carrier h).halt.position.transit?⟩ :: (s.seq h).stack } := by
    rw [State.seq_beginIntervention own, Sequencer.push_of_room room, lift]
  have aside : Aside h (s.beginIntervention h a c) (s.beginIntervention h a c).handOnAll :=
    .handOnAll _ (State.polishing_of_intervention (k := .lift) (cs := [c]) (x := none) (by rw [saved]; rfl))
  rw [begins]
  exact ⟨aside.seq.trans saved, aside.carrier.trans (State.carrier_beginIntervention own),
    aside.isDown.trans (State.isDown_beginIntervention (.inl lift)),
    (Cascade.handOnAll _).notice (s.notice_beginIntervention h a c)⟩

end Sys2Proof.Machine
end

section
/-!
PROOFS. How a list stops short (R26, R42) and how a step ends (R38): what each leaves at its own head.
-/
namespace Sys2Proof.Machine

/-! ## The list stops (R26 steps 1 to 5) -/

section
variable (s : State) (h : HeadId) (o : StepOutcome)

/-- The sequencer of a head whose list has stopped, before it takes its end state. -/
def State.stopped : Sequencer :=
  { s.seq h with
    results := (s.seq h).results ++ (s.stepResult h o).toList
    activity := none, stack := [], lost := none }

theorem State.endRun_eq : s.endRun h o = (((s.setSeq h (s.stopped h o)).suspendStep h).leaveWaits h).liftUp h := rfl

theorem State.seq_endRun : (s.endRun h o).seq h = s.stopped h o := by
  rw [State.endRun_eq, State.seq_liftUp, State.seq_leaveWaits, State.seq_suspendStep, State.seq_setSeq_self]

theorem State.carrier_endRun (g : HeadId) : (s.endRun h o).carrier g = s.carrier g := by
  rw [State.endRun_eq, State.carrier_liftUp, State.carrier_leaveWaits, State.carrier_suspendStep, State.carrier_setSeq]

theorem State.isDown_endRun : (s.endRun h o).isDown h = false := by
  rw [State.endRun_eq, State.isDown_liftUp, if_pos rfl]

end

/-! ## The end state (R26, R39) -/

section
variable {s : State} {h : HeadId}

/-- The head state in which an end state is taken at a station. -/
def EndState.head : EndState → HeadState
  | .idle => .idle
  | .halted r => .halted (.final r) none

theorem State.idleNotices_aside (s : State) (h g : HeadId) : Aside g s (s.idleNotices h) := by
  rw [State.idleNotices]
  split
  · exact Aside.trans (.raise ..) (.raise ..)
  · exact .raise ..

theorem State.seq_takeEnd (s : State) (h : HeadId) (e : EndState) :
    (s.takeEnd h e).seq h = { s.seq h with state := e.head } := by
  cases e with
  | idle =>
    rw [State.takeEnd, State.enterIdle, (State.idleNotices_aside ..).seq, State.setHead, State.modSeq_eq, State.seq_setSeq_self]
    rfl
  | halted r =>
    rw [State.takeEnd, State.seq_raise, State.setHead, State.modSeq_eq, State.seq_setSeq_self]
    rfl

theorem State.takeEnd_carrier (s : State) (h : HeadId) (e : EndState) (g : HeadId) :
    (s.takeEnd h e).carrier g = s.carrier g := by
  cases e with
  | idle => exact (State.idleNotices_aside ..).carrier
  | halted r => rfl

theorem State.takeEnd_isDown (s : State) (h : HeadId) (e : EndState) (g : HeadId) :
    (s.takeEnd h e).isDown g = s.isDown g := by
  cases e with
  | idle => exact (State.idleNotices_aside ..).isDown
  | halted r => rfl

theorem State.notice_enterIdle (s : State) (h : HeadId) : .listDone h ∈ ((s.enterIdle h).port .recipe).notices := by
  rw [State.enterIdle, State.idleNotices]
  split
  · exact (Cascade.raise ..).notice State.notice_raise
  · exact State.notice_raise

theorem State.notice_takeEnd_halted (s : State) (h : HeadId) (r : FinalReason) :
    .halted h ∈ ((s.takeEnd h (.halted r)).port .recipe).notices := State.notice_raise

theorem State.close_transit {o d : StationId} {st : MoveStatus} (transit : (s.carrier h).position = .inTransit o d st)
    (e : EndState) : s.close h e = (s.setHead h (.closing e)).forwardMove h := by
  rw [State.close, transit]

theorem State.close_placed (placed : ∀ o d st, (s.carrier h).position ≠ .inTransit o d st) (e : EndState) :
    s.close h e = s.takeEnd h e := by
  rw [State.close]
  cases position : (s.carrier h).position with
  | inTransit o d st => exact absurd position (placed o d st)
  | unplaced => rfl
  | stands d => rfl

theorem State.forwardMove_writes (s : State) (h : HeadId) : ∃ c, s.forwardMove h = { s with carriers := c } := by
  unfold State.forwardMove
  split <;> exact ⟨_, rfl⟩

theorem State.seq_forwardMove (s : State) (h g : HeadId) : (s.forwardMove h).seq g = s.seq g := by
  obtain ⟨_, moved⟩ := s.forwardMove_writes h
  rw [moved]
  rfl

theorem State.isDown_forwardMove (s : State) (h g : HeadId) : (s.forwardMove h).isDown g = s.isDown g := by
  obtain ⟨_, moved⟩ := s.forwardMove_writes h
  rw [moved]
  rfl

/-- The head state that the end of a list leaves where the head is (R26). -/
def Position.closed (x : Position) (e : EndState) : HeadState :=
  match x with
  | .inTransit _ _ _ => .closing e
  | _ => e.head

theorem State.seq_close (s : State) (h : HeadId) (e : EndState) :
    (s.close h e).seq h = { s.seq h with state := (s.carrier h).position.closed e } := by
  cases position : (s.carrier h).position with
  | inTransit o d st =>
    rw [State.close_transit position, State.seq_forwardMove, State.setHead, State.modSeq_eq, State.seq_setSeq_self]
    rfl
  | unplaced =>
    rw [State.close_placed (by simp [position]), State.seq_takeEnd]
    rfl
  | stands d =>
    rw [State.close_placed (by simp [position]), State.seq_takeEnd]
    rfl

theorem State.isDown_close (s : State) (h : HeadId) (e : EndState) (g : HeadId) : (s.close h e).isDown g = s.isDown g := by
  cases position : (s.carrier h).position with
  | inTransit o d st => rw [State.close_transit position, State.isDown_forwardMove]; rfl
  | unplaced => rw [State.close_placed (by simp [position]), State.takeEnd_isDown]
  | stands d => rw [State.close_placed (by simp [position]), State.takeEnd_isDown]

theorem State.close_stands {d : StationId} (stands : (s.carrier h).position = .stands d) (e : EndState) :
    s.close h e = s.takeEnd h e := State.close_placed (by simp [stands]) e

/-! ## A final halt (R26) -/

section
variable (s : State) (h : HeadId) (r : FinalReason)

theorem State.aside_finalHalt : Aside h ((s.endRun h r.outcome).close h (.halted r)) (s.finalHalt h r) :=
  .handOnAll _ (State.polishing_of_idle (by rw [State.seq_close, State.seq_endRun]; rfl))

theorem State.seq_finalHalt : (s.finalHalt h r).seq h =
    { s.stopped h r.outcome with state := (s.carrier h).position.closed (.halted r) } := by
  rw [(s.aside_finalHalt h r).seq, State.seq_close, State.seq_endRun, State.carrier_endRun]

theorem State.isDown_finalHalt : (s.finalHalt h r).isDown h = false := by
  rw [(s.aside_finalHalt h r).isDown, State.isDown_close, State.isDown_endRun]

end

section
variable {r : FinalReason} {d : StationId}

theorem State.carrier_finalHalt_stands (stands : (s.carrier h).position = .stands d) :
    (s.finalHalt h r).carrier h = s.carrier h := by
  rw [(s.aside_finalHalt h r).carrier, State.close_stands (by rwa [State.carrier_endRun]), State.takeEnd_carrier,
    State.carrier_endRun]

theorem State.notice_finalHalt_stands (stands : (s.carrier h).position = .stands d) :
    .halted h ∈ ((s.finalHalt h r).port .recipe).notices := by
  rw [State.finalHalt, State.close_stands (d := d) (by rwa [State.carrier_endRun])]
  exact (Cascade.handOnAll _).notice (State.notice_takeEnd_halted ..)

end

/-! ## A step ends (R38) -/

/-- The working record with what the timebase holds for the step: the rest of it stands. -/
theorem State.collect_eq (s : State) (h : HeadId) (w : Working) :
    ∃ a l f, s.collect h w = { w with accrued := a, limit := l, flags := f } := by
  unfold State.collect
  cases s.ownedPlaten h with
  | none => exact ⟨w.accrued, w.limit, w.flags, rfl⟩
  | some p => exact ⟨_, _, _, rfl⟩

theorem State.current_setWorking (s : State) (h : HeadId) (w : Working) : (s.setWorking h w).current h = some w := by
  rw [State.current, State.setWorking, State.modSeq_eq, State.seq_setSeq_self]

/-- The sequencer of a head whose step ends in an outcome (R38 steps 1 to 3). -/
def Sequencer.ended (q : Sequencer) (o : StepOutcome) (a : Option FlagAction) (r : ResultRecord) : Sequencer :=
  { (q.endpointFlags o).applyAction a with results := q.results ++ [r], activity := none }

theorem Sequencer.ended_eq (q : Sequencer) (x : Option Activity) (o : StepOutcome) (a : Option FlagAction) (r : ResultRecord) :
    Sequencer.ended { q with activity := x } o a r = q.ended o a r := by
  rcases a with - | ⟨f, v⟩
  · cases o <;> rfl
  · cases f <;> cases o <;> rfl

theorem State.closeStep_eq {w : Working} (current : s.current h = some w) (o : StepOutcome) : s.closeStep h o =
    ((s.disown h).closeWatchOf h).modSeq h fun q =>
      q.ended o w.record.action ((s.collect h w).result o s.beat.counter) := by
  rw [State.closeStep, current]
  rfl

theorem State.seq_closeStep {w : Working} (current : s.current h = some w) (o : StepOutcome) :
    (s.closeStep h o).seq h = (s.seq h).ended o w.record.action ((s.collect h w).result o s.beat.counter) := by
  rw [State.closeStep_eq current, State.modSeq_eq, State.seq_setSeq_self, (Aside.closeWatchOf (h := h) _ h).seq,
    (Aside.disown (h := h) s h).seq]

theorem State.carrier_closeStep (s : State) (h : HeadId) (o : StepOutcome) (g : HeadId) :
    (s.closeStep h o).carrier g = s.carrier g := by
  unfold State.closeStep
  cases s.current h with
  | none => rfl
  | some w =>
    dsimp only
    rw [State.modSeq_eq, State.carrier_setSeq, (Aside.closeWatchOf (h := g) _ h).carrier, (Aside.disown (h := g) s h).carrier]

theorem State.isDown_closeStep (s : State) (h : HeadId) (o : StepOutcome) (g : HeadId) :
    (s.closeStep h o).isDown g = s.isDown g := by
  unfold State.closeStep
  cases s.current h with
  | none => rfl
  | some w =>
    dsimp only
    rw [State.modSeq_eq, State.isDown_setSeq, (Aside.closeWatchOf (h := g) _ h).isDown, (Aside.disown (h := g) s h).isDown]

theorem State.finishStep_eq {w : Working} (current : s.current h = some w) (o : StepOutcome) : s.finishStep h o =
    State.advance h ((s.seq h).steps.drop (w.index + 1)) (w.index + 1) (w.polish?.map PolishRecord.line)
      (s.closeStep h o) := by
  rw [State.finishStep, current]

/-- The result that a step leaves stands at the end of the results the next step adds to (R38). -/
theorem State.results_finishStep {w : Working} (current : s.current h = some w) (o : StepOutcome) :
    (s.seq h).results ++ [(s.collect h w).result o s.beat.counter] <+: ((s.finishStep h o).seq h).results := by
  have ended : ((s.closeStep h o).seq h).results = (s.seq h).results ++ [(s.collect h w).result o s.beat.counter] := by
    rw [State.seq_closeStep current]
    rfl
  rw [State.finishStep_eq current, ← ended]
  exact ((Cascade.advance h _ _ _ _).seq h).results

/-- The last step of a list ends: the head goes IDLE (R39). -/
theorem State.finishStep_last {w : Working} (current : s.current h = some w) (last : (s.seq h).steps.length ≤ w.index + 1)
    (o : StepOutcome) : s.finishStep h o =
      ((s.closeStep h o).leaveBehind h (w.polish?.map PolishRecord.line) none).enterIdle h := by
  rw [State.finishStep_eq current, List.drop_eq_nil_of_le last]
  rfl

end

end Sys2Proof.Machine
end

section
/-!
PROOFS. Faults of moves (R13), the wafer sense (R127), the ends of a dwell (R30), of a gap and of a settle (R34, R99), and the
expiries of a band timer and of a stall window (R55, R72).
-/
namespace Sys2Proof.Machine

/-! ## MOVE_FAULT, MOVE_LIMIT_EXPIRY -/

theorem State.faultMove_still {s : State} {h : HeadId} (still : ∀ o d n l, (s.carrier h).position ≠ .inTransit o d (.moving n l)) :
    s.faultMove h = s := by
  unfold State.faultMove
  split
  · next o d n l position => exact absurd position (still o d n l)
  · rfl

theorem State.faultMove_moving {s : State} {h : HeadId} {o d : StationId} {n l : Nat}
    (moving : (s.carrier h).position = .inTransit o d (.moving n l)) :
    s.faultMove h = (s.haltMove h).haltResumable h .moveFault := by
  rw [State.faultMove, moving]

theorem Carrier.halt_moving {c : Carrier} {o d : StationId} {n l : Nat} (moving : c.position = .inTransit o d (.moving n l)) :
    c.halt = { c with position := .inTransit o d .halted, sent := c.sent ++ [.halt] } := by
  rw [Carrier.halt, moving]

/-- A MOVING move that faults, before settling. -/
theorem State.faultMove_effect {s : State} {h : HeadId} {o d : StationId} {n l : Nat}
    (moving : (s.carrier h).position = .inTransit o d (.moving n l)) :
    (s.faultMove h).carrier h =
        { s.carrier h with position := .inTransit o d .halted, sent := (s.carrier h).sent ++ [.halt] } ∧
      (s.faultMove h).seq h = { s.seq h with state := (s.seq h).state.halt .moveFault } ∧
      (s.faultMove h).isDown h = false ∧ (∀ x, h ∉ ((s.faultMove h).station x).wait) ∧
      .halted h ∈ ((s.faultMove h).port .recipe).notices := by
  rw [State.faultMove_moving moving]
  refine ⟨?_, State.seq_haltResumable .., State.isDown_haltResumable .., fun x => ?_, State.notice_haltResumable ..⟩
  · rw [State.carrier_haltResumable, State.carrier_haltMove, if_pos rfl, Carrier.halt_moving moving]
  · rw [State.station_haltResumable]
    exact State.not_waiting_leaveWaits _ h x

/-- Settling keeps the notices of a cascade. -/
theorem State.notice_settle {s : State} {q : Port} {n : Notice} (raised : n ∈ (s.port q).notices)
    (held : (n.kind q).isSome = true := by rfl) : n ∈ (s.settle.port q).notices := (Cascade.settle s).notice raised held

/-- Settles O45: the two rows are one operation, which halts a MOVING move and the head with it. -/
theorem moveFaultsAndLimits : Obligations.MoveFaultsAndLimits := by
  refine fun s h num => ⟨fun ignored => ?ignored, fun c report => ?report⟩
  case ignored =>
    have arm : exec (.moveFault h num) s = .next (if num = (s.carrier h).moveNumber then (s.faultMove h).settle else s) := rfl
    rw [arm, if_neg ignored]
  case report =>
    have exec_eq : exec c s = .next (s.faultMove h).settle := by
      obtain rfl | ⟨rfl, own⟩ := report
      · rfl
      · have arm : exec (.moveFault h num) s =
            .next (if num = (s.carrier h).moveNumber then (s.faultMove h).settle else s) := rfl
        rw [arm, if_pos own]
    refine ⟨fun still => ?_, fun o d n l moving => ⟨_, exec_eq, ?_⟩⟩
    · rw [exec_eq, State.faultMove_still still]
    · obtain ⟨carrier, seq, up, left, notice⟩ := State.faultMove_effect moving
      refine ⟨by rw [State.carrier_settle, carrier], ?_, by rw [State.isDown_settle, up], fun x => ?_, State.notice_settle notice⟩
      · rw [State.seq_settle, seq]
        cases (s.seq h).state <;> rfl
      · rw [State.station_settle]
        exact left x

/-! ## VACUUM_CHANGE -/

/-- The vacuum sense takes no part in the result of a step. -/
theorem State.stepResult_vacuum (s : State) (h : HeadId) (v : Bool) (o : StepOutcome) :
    (s.setSeq h { s.seq h with vacuum := v }).stepResult h o = s.stepResult h o := by
  unfold State.stepResult State.current
  rw [State.seq_setSeq_self]
  rfl

/-- Settles O47: the end of the list by a lost wafer is a final halt (R26). -/
theorem vacuumChange : Obligations.VacuumChange := by
  intro s h v
  have arm : exec (.vacuumChange h v) s =
      .next (if (s.seq h).vacuum && !v && s.isRunning h then
        ((s.modSeq h fun q => { q with vacuum := v }).finalHalt h .waferLost).settle
        else s.modSeq h fun q => { q with vacuum := v }) := rfl
  refine ⟨fun kept => ?kept, fun gone wafer running => ?lost⟩
  case kept =>
    have calm : ((s.seq h).vacuum && !v && s.isRunning h) = false := by
      obtain rfl | none | idle := kept
      · simp
      · simp [none]
      · simp [State.isRunning, idle]
    rw [arm, calm]
    rfl
  case lost =>
    subst gone
    have lost : ((s.seq h).vacuum && !false && s.isRunning h) = true := by simp [wafer, State.isRunning, running]
    rw [arm, if_pos lost]
    refine ⟨_, rfl, ?up, ?seq, fun d stands => ⟨?carrier, ?notice⟩⟩
    case up => rw [State.isDown_settle, State.isDown_finalHalt]
    case seq =>
      rw [State.seq_settle, State.seq_finalHalt, State.stopped, State.modSeq_eq, State.seq_setSeq_self, State.carrier_setSeq,
        State.stepResult_vacuum]
      cases (s.carrier h).position <;> rfl
    case carrier =>
      rw [State.carrier_settle, State.carrier_finalHalt_stands (d := d) (by rwa [State.modSeq_eq, State.carrier_setSeq]),
        State.modSeq_eq, State.carrier_setSeq]
    case notice =>
      exact State.notice_settle (State.notice_finalHalt_stands (d := d) (by rwa [State.modSeq_eq, State.carrier_setSeq]))

/-! ## DWELL_END -/

theorem State.dwelling_of {s : State} {h : HeadId} {w : Working} {n : Nat} (running : (s.seq h).state = .running)
    (current : (s.seq h).activity = some (.step w)) (kind : w.record.kind = .dwell n) (phase : w.phase = some .dwell) :
    s.dwelling h = some w := by
  rw [State.dwelling, State.runningStep, State.isRunning, running, State.current, current]
  simp [kind, phase]

theorem State.endDwell_none {s : State} {h : HeadId} (none : s.dwelling h = none) : s.endDwell h = s := by
  rw [State.endDwell, none]

theorem State.endDwell_some {s : State} {h : HeadId} {w : Working} (some : s.dwelling h = some w) :
    s.endDwell h = (s.setWorking h { w with dwellRemaining := 0 }).finishStep h .completed := by
  rw [State.endDwell, some]

theorem Working.polish?_not {w : Working} (other : ∀ r, w.record.kind ≠ .polish r) : w.polish? = none := by
  unfold Working.polish?
  split
  · next r kind => exact absurd kind (other r)
  · rfl

/-- Settles O49: the dwell ends its step, and the last step of a list leaves the head IDLE. -/
theorem dwellEnds : Obligations.DwellEnds := by
  intro s h
  have arm : exec (.dwellEnd h) s = .next (s.endDwell h).settle := rfl
  refine ⟨fun none => by rw [arm, State.endDwell_none none], fun w n running current kind phase => ?_⟩
  let v : Working := { w with dwellRemaining := 0 }
  have now : (s.setWorking h v).current h = some v := State.current_setWorking s h v
  have results := State.results_finishStep now .completed
  have seq : (s.setWorking h v).seq h = { s.seq h with activity := some (.step v) } := State.seq_setSeq_self ..
  obtain ⟨a, l, f, collected⟩ := (s.setWorking h v).collect_eq h v
  rw [arm, State.endDwell_some (State.dwelling_of running current kind phase)]
  refine ⟨_, ((s.setWorking h v).collect h v).result .completed s.beat.counter, rfl, ?_, ?_, ?_, ?_, ?_, fun last => ?_⟩
  · rw [State.seq_settle]
    rw [seq] at results
    exact results
  · rw [collected]
    rfl
  · rfl
  · rw [collected]
    rfl
  · rfl
  · have idle : (s.setWorking h v).finishStep h .completed = ((s.setWorking h v).closeStep h .completed).enterIdle h := by
      rw [State.finishStep_last now (by rw [seq]; exact last), Working.polish?_not (w := v) (by simp [v, kind])]
      rfl
    rw [idle]
    refine ⟨State.notice_settle (State.notice_enterIdle ..), ?_, ?_⟩
    · rw [State.carrier_settle]
      exact (State.takeEnd_carrier _ h .idle h).trans (State.carrier_closeStep ..)
    · rw [State.seq_settle]
      refine (State.seq_takeEnd _ h .idle).trans ?_
      rw [State.seq_closeStep now, seq, Sequencer.ended_eq]
      rfl

/-! ## GAP_END and SETTLE_END -/

/-- The entry to POLISH or OVERPOLISH of a step at its platen, before the watch that it may open (R35, R98). -/
def State.pressed (s : State) (h : HeadId) (w : Working) (r : PolishRecord) : State :=
  (s.applySet h (.polish r.zones)).setWorking h
    { w with phase := some (if w.confirmed = none then .polish else .overpolish), gapRemaining := 0 }

theorem State.enterPolish_eq {s : State} {h : HeadId} {w : Working} {r : PolishRecord} {p : PlatenId}
    (polishing : s.polishing h = some (w, r, p)) :
    s.enterPolish h = if w.confirmed = none ∧ r.termination = .endpoint then (s.pressed h w r).armWatch p h r.settle
      else s.pressed h w r := by
  rw [State.enterPolish, polishing, State.pressed]
  cases confirmed : w.confirmed with
  | some c => simp [confirmed]
  | none => cases termination : r.termination <;> simp [confirmed, termination]

theorem State.seq_pressed (s : State) (h : HeadId) (w : Working) (r : PolishRecord) :
    (s.pressed h w r).seq h = { s.seq h with activity := some (.step { w with
      phase := some (if w.confirmed = none then .polish else .overpolish), gapRemaining := 0 }) } := by
  rw [State.pressed, State.setWorking, State.modSeq_eq, State.seq_setSeq_self]
  rfl

theorem State.zone_pressed {s : State} {h : HeadId} {x : ZoneSet} {b : BandTimer} (down : (s.zone h).lift = .down x b)
    (w : Working) (r : PolishRecord) : ((s.pressed h w r).zone h).lift = .down (.polish r.zones) b := by
  rw [State.pressed, State.setWorking, State.modSeq_eq, State.zone_setSeq, State.applySet, State.modZone_eq,
    State.zone_setZone_self, ZoneMonitor.applySet, down]

theorem State.aside_armWatch (s : State) (p : PlatenId) (h g : HeadId) (n : Nat) : Aside g s (s.armWatch p h n) :=
  Aside.armWatch s p h n

/-- The entry to POLISH at its own head. -/
theorem State.enterPolish_aside {s : State} {h : HeadId} {w : Working} {r : PolishRecord} {p : PlatenId}
    (polishing : s.polishing h = some (w, r, p)) : Aside h (s.pressed h w r) (s.enterPolish h) := by
  rw [State.enterPolish_eq polishing]
  split
  · exact .armWatch ..
  · exact .refl ..

theorem State.endGap_eq {s : State} {h : HeadId} {w : Working} {r : PolishRecord} {p : PlatenId}
    (polishing : s.polishing h = some (w, r, p)) (phase : w.phase = some .gap) : s.endGap h = s.enterPolish h := by
  rw [State.endGap, polishing]
  exact if_pos phase

theorem State.endGap_not {s : State} {h : HeadId}
    (elsewhere : ∀ w r p, s.polishing h = some (w, r, p) → w.phase ≠ some .gap) : s.endGap h = s := by
  unfold State.endGap
  split
  · next w r p polishing => exact if_neg (elsewhere w r p polishing)
  · rfl

/-- Settles O51: the gap ends in the entry to POLISH or OVERPOLISH, the settle in the watch. -/
theorem gapAndSettleEnds : Obligations.GapAndSettleEnds := by
  refine ⟨fun s h => ?gap, fun s p => ?settle⟩
  case gap =>
    have arm : exec (.gapEnd h) s = .next (s.endGap h).settle := rfl
    refine ⟨fun elsewhere => by rw [arm, State.endGap_not elsewhere], fun w r p x b polishing phase down => ?_⟩
    have aside := State.enterPolish_aside polishing
    rw [arm, State.endGap_eq polishing phase]
    refine ⟨_, rfl, ?_, ?_, fun fresh endpoint => ⟨?_, ?_⟩, fun kept => ?_⟩
    · rw [State.zone_settle, aside.zone, State.zone_pressed down]
    · rw [State.seq_settle, aside.seq, State.seq_pressed]
    · rw [State.qual_settle, State.enterPolish_eq polishing, if_pos ⟨fresh, endpoint⟩, State.armWatch, State.qual_raise,
        State.qual_setQual_self]
      rfl
    · rw [State.enterPolish_eq polishing, if_pos ⟨fresh, endpoint⟩]
      exact State.notice_settle State.notice_raise
    · have calm : ¬(w.confirmed = none ∧ r.termination = .endpoint) := by
        rintro ⟨fresh, endpoint⟩
        obtain confirmed | limit := kept
        · exact confirmed fresh
        · rw [limit] at endpoint
          exact absurd endpoint (by decide)
      rw [(SettleKept.settle _).quals, State.enterPolish_eq polishing, if_neg calm]
      rfl
  case settle =>
    have arm : exec (.settleEnd p) s = .next (s.modQual p fun q => q.endSettle (s.base p).revolution) := rfl
    refine ⟨fun h n settling => ?_, fun other => ?_⟩
    · rw [arm, State.modQual_eq, State.modQual_eq, Qualifier.endSettle, settling]
    · have idle : (s.qual p).endSettle (s.base p).revolution = s.qual p := by
        unfold Qualifier.endSettle
        split
        · next h n settling => exact absurd settling (other h n)
        all_goals rfl
      rw [arm, State.modQual_eq, idle, State.setQual_qual]

/-! ## BAND_TIMEOUT -/

theorem State.bandExpiry_idle {s : State} {h : HeadId} (idle : (s.zone h).bandRunning = false) : s.bandExpiry h = s := by
  rw [State.bandExpiry, idle]
  rfl

theorem State.bandExpiry_running {s : State} {h : HeadId} (running : (s.zone h).bandRunning = true) :
    s.bandExpiry h = (s.setZone h (s.zone h).expireBand).raiseCause h .pressureBand := by
  rw [State.bandExpiry, if_pos running]
  rfl

/-! ## STALL_EXPIRY -/

theorem State.stallExpiry_idle {s : State} {p : PlatenId} (idle : (s.base p).stallTimer = none) : s.stallExpiry p = s := by
  rw [State.stallExpiry, idle]
  rfl

theorem State.stallExpiry_running {s : State} {p : PlatenId} (running : (s.base p).stallTimer ≠ none) :
    s.stallExpiry p = s.stall p := by
  rw [State.stallExpiry, if_pos (Option.isSome_iff_ne_none.2 running)]

end Sys2Proof.Machine
end

section
/-!
PROOFS. What a cause of class RINSE or LIFT and the handing on of lines leave alone: who holds the stations and how the platens
are driven.
-/
namespace Sys2Proof.Machine

/-- The stations keep their holders and the platens their setpoint, stall timer, stalled mark and accrued units. -/
structure Seated (s t : State) : Prop where
  holder : ∀ d, (t.station d).holder = (s.station d).holder
  speed : ∀ p, (t.base p).speed = (s.base p).speed
  stallTimer : ∀ p, (t.base p).stallTimer = (s.base p).stallTimer
  stalled : ∀ p, (t.base p).stalled = (s.base p).stalled
  accumulator : ∀ p, (t.base p).accumulator = (s.base p).accumulator
  pads : t.pads = s.pads

theorem Seated.refl (s : State) : Seated s s := ⟨fun _ => rfl, fun _ => rfl, fun _ => rfl, fun _ => rfl, fun _ => rfl, rfl⟩

theorem Seated.trans {s t u : State} (a : Seated s t) (b : Seated t u) : Seated s u :=
  ⟨fun d => (b.holder d).trans (a.holder d), fun p => (b.speed p).trans (a.speed p),
    fun p => (b.stallTimer p).trans (a.stallTimer p), fun p => (b.stalled p).trans (a.stalled p),
    fun p => (b.accumulator p).trans (a.accumulator p), b.pads.trans a.pads⟩

theorem Seated.foldl {α : Type} {f : State → α → State} (k : ∀ s x, Seated s (f s x)) :
    ∀ (xs : List α) (s : State), Seated s (xs.foldl f s)
  | [], s => .refl s
  | x :: xs, s => (k s x).trans (Seated.foldl k xs (f s x))

/-- An operation that writes neither stations, bases nor pads. -/
theorem Seated.of_tables {s t : State} (stations : t.stations = s.stations) (bases : t.bases = s.bases)
    (pads : t.pads = s.pads) : Seated s t := by
  have base (p : PlatenId) : t.base p = s.base p := by rw [State.base, bases, State.base]
  exact ⟨fun d => by rw [State.station, stations, State.station], fun p => by rw [base], fun p => by rw [base],
    fun p => by rw [base], fun p => by rw [base], pads⟩

section
variable (s : State) (h : HeadId)

theorem Seated.leaveWaits : Seated s (s.leaveWaits h) := by
  refine ⟨fun d => ?_, fun _ => rfl, fun _ => rfl, fun _ => rfl, fun _ => rfl, rfl⟩
  cases d with
  | platen p => cases p <;> rfl
  | _ => rfl

theorem Seated.disown : Seated s (s.disown h) := by
  unfold State.disown
  cases s.ownedPlaten h with
  | none => exact .refl s
  | some p =>
    dsimp only
    have kept (j : PlatenId) (f : Timebase → Nat) (g : f (s.base p).disown = f (s.base p)) :
        f ((s.modBase p Timebase.disown).base j) = f (s.base j) := by
      rw [State.modBase_eq, State.base_setBase]
      split
      · next eq => rw [eq, g]
      · rfl
    refine ⟨fun _ => rfl, fun j => kept j Timebase.speed rfl, fun j => ?_, fun j => ?_,
      fun j => kept j Timebase.accumulator rfl, rfl⟩
    all_goals
      rw [State.modBase_eq, State.base_setBase]
      split
      · next eq => rw [eq]; rfl
      · rfl

theorem Seated.suspendStep : Seated s (s.suspendStep h) := by
  obtain ⟨q, r, closed⟩ := (s.disown h).closeWatchOf_writes h
  obtain ⟨c, withdrawn⟩ := ((s.disown h).closeWatchOf h).withdraw_writes h
  obtain ⟨k, dropped⟩ := (((s.disown h).closeWatchOf h).withdraw h).dropLine_writes h
  refine (Seated.disown s h).trans (.of_tables ?_ ?_ ?_)
  all_goals rw [State.suspendStep, dropped, withdrawn, closed]

theorem Seated.raise (q : Port) (n : Notice) : Seated s (s.raise q n) := .of_tables rfl rfl rfl
theorem Seated.setSeq (x : Sequencer) : Seated s (s.setSeq h x) := .of_tables rfl rfl rfl
theorem Seated.modSeq (f : Sequencer → Sequencer) : Seated s (s.modSeq h f) := .of_tables rfl rfl rfl
theorem Seated.setWorking (w : Working) : Seated s (s.setWorking h w) := .of_tables rfl rfl rfl
theorem Seated.haltMove : Seated s (s.haltMove h) := .of_tables rfl rfl rfl
theorem Seated.applySet (x : ZoneSet) : Seated s (s.applySet h x) := .of_tables rfl rfl rfl
theorem Seated.modLine (l : LineId) (f : Line → Line) : Seated s (s.modLine l f) := .of_tables rfl rfl rfl

theorem Seated.pushContext (c : Context) : Seated s (s.pushContext h c) := by
  rw [State.pushContext_eq]
  split
  · exact (Seated.setSeq s h _).trans (.raise ..)
  · exact .setSeq ..

theorem Seated.refreshOuter (p : PlatenId) : Seated s (s.refreshOuter p) := by
  obtain ⟨_, _, _, refreshed⟩ := s.refreshOuter_writes p
  rw [refreshed]
  exact .of_tables rfl rfl rfl

theorem Seated.liftUp : Seated s (s.liftUp h) := by
  obtain ⟨_, _, _, _, lifted⟩ := s.liftUp_writes h
  rw [lifted]
  exact .of_tables rfl rfl rfl

theorem Seated.touchDown (p : PlatenId) (n : Nat) : Seated s (s.touchDown h p n) := by
  unfold State.touchDown
  split
  · exact .refl s
  · exact Seated.trans (t := s.modZone h fun z =>
      { z with lift := .down (.gap n) (BandTimer.start z.inBand.allTrue) }) (.of_tables rfl rfl rfl) (.refreshOuter ..)

theorem Seated.enterClass {k : Intervention} (own : k ≠ .park) : Seated s (s.enterClass h k) := by
  cases k with
  | park => exact absurd rfl own
  | rinse => exact .applySet ..
  | lift => exact .liftUp ..
  | trip => exact .liftUp ..

theorem Seated.beginIntervention (a : Activity) {c : Cause} (own : c.cls ≠ .park) :
    Seated s (s.beginIntervention h a c) := by
  rw [State.beginIntervention_eq]
  refine (Seated.trans ?_ (.enterClass _ h own)).trans ((Seated.modSeq _ h _).trans (.raise ..))
  rw [State.intervene]
  exact ((((Seated.suspendStep s h).trans (.leaveWaits ..)).trans (.haltMove ..)).trans (.pushContext ..)).trans (.modSeq ..)

theorem Seated.takeCause {c : Cause} (own : c.cls ≠ .park) : Seated s (s.takeCause h c) := by
  unfold State.takeCause
  split
  · exact .refl s
  · split
    · exact .refl s
    · split
      · exact .beginIntervention _ _ _ own
      · split
        · exact .modSeq ..
        · exact .refl s

theorem Seated.enterPolish : Seated s (s.enterPolish h) := by
  unfold State.enterPolish
  split
  · exact .refl s
  · dsimp only
    repeat' split
    all_goals exact .of_tables rfl rfl rfl

theorem Seated.enterGap : Seated s (s.enterGap h).1 := by
  unfold State.enterGap
  split
  · exact .refl s
  · dsimp only
    repeat' split
    · exact ((Seated.setWorking s h _).trans (.applySet ..)).trans (.enterPolish ..)
    · exact (Seated.setWorking s h _).trans (.applySet ..)
    · exact ((Seated.setWorking s h _).trans (.touchDown ..)).trans (.enterPolish ..)
    · exact (Seated.setWorking s h _).trans (.touchDown ..)

theorem Seated.enterKeepout : Seated s (s.enterKeepout h).1 := by
  unfold State.enterKeepout
  split
  · exact .refl s
  · dsimp only
    split
    · exact ((Seated.setWorking s h _).trans (.refreshOuter ..)).trans (.enterGap ..)
    · exact (Seated.setWorking s h _).trans (.refreshOuter ..)

end

/-- A touch-down raises causes of class LIFT alone (R56, R57). -/
theorem State.lift_touchDownCauses {s : State} {p : PlatenId} {c : Cause} (raised : c ∈ s.touchDownCauses p) :
    c.cls = .lift := by
  unfold State.touchDownCauses at raised
  grind [Cause.cls]

theorem State.lift_enterGap {s : State} {h : HeadId} {c : Cause} (raised : c ∈ (s.enterGap h).2) : c.cls = .lift := by
  unfold State.enterGap at raised
  split at raised
  · exact absurd raised List.not_mem_nil
  · dsimp only at raised
    split at raised
    · exact absurd raised List.not_mem_nil
    · exact State.lift_touchDownCauses raised

theorem State.lift_enterKeepout {s : State} {h : HeadId} {c : Cause} (raised : c ∈ (s.enterKeepout h).2) :
    c.cls = .lift := by
  unfold State.enterKeepout at raised
  split at raised
  · exact absurd raised List.not_mem_nil
  · dsimp only at raised
    split at raised
    · exact State.lift_enterGap raised
    · exact absurd raised List.not_mem_nil

theorem Seated.takeCauses (h : HeadId) {cs : List Cause} (lift : ∀ c ∈ cs, c.cls = .lift) (s : State) :
    Seated s (cs.foldl (fun t c => t.takeCause h c) s) := by
  induction cs generalizing s with
  | nil => exact .refl s
  | cons c rest ih =>
    exact (Seated.takeCause s h (by rw [lift c List.mem_cons_self]; decide)).trans
      (ih (fun k m => lift k (List.mem_cons_of_mem _ m)) _)

theorem Seated.toKeepout (s : State) (h : HeadId) : Seated s (s.toKeepout h) :=
  (Seated.enterKeepout s h).trans (.takeCauses h (fun _ => State.lift_enterKeepout) _)

theorem Seated.handOn (l : LineId) (n : Nat) (s : State) : Seated s (s.handOn l n) := by
  induction n generalizing s with
  | zero => exact .refl s
  | succ n ih =>
    unfold State.handOn
    split
    · next p rest _ _ _ =>
      have dropped : Seated s (s.modLine l fun k => { k with wait := rest }) := .modLine ..
      dsimp only
      split
      · exact dropped.trans (ih _)
      · split
        · exact dropped.trans (ih _)
        · exact ((dropped.trans (.modLine ..)).trans (.toKeepout ..)).trans (ih _)
    · exact .refl s

theorem Seated.handOnAll (s : State) : Seated s s.handOnAll := Seated.foldl (fun t l => Seated.handOn l _ t) lineIds s

theorem Seated.raiseCause (s : State) (h : HeadId) {c : Cause} (own : c.cls ≠ .park) : Seated s (s.raiseCause h c) :=
  (Seated.takeCause s h own).trans (.handOnAll _)

/-! ## The two expiries -/

theorem Timebase.running_setSpeed {b : Timebase} {v : Nat} (on : 0 < b.speed) (wanted : 0 < v) :
    b.setSpeed v = { b with speed := v } := by
  rw [Timebase.setSpeed, if_neg (fun stop => on.ne' stop.1), if_neg wanted.ne']

/-- A LIFT over a POLISH step keeps its platen turning at the speed of the step (R54). -/
theorem Sequencer.speedOn_lift {q : Sequencer} {cs : List Cause} {x : Option ParkProgress} {w : Working} {tr : Option Position}
    {rest : List Context} {r : PolishRecord} {p : PlatenId} (lift : q.activity = some (.intervention .lift cs x))
    (saved : q.stack = ⟨.step w, tr⟩ :: rest) (kind : w.record.kind = .polish r) (platen : w.platen = some p) :
    q.speedOn p = r.speed := by
  rw [Sequencer.speedOn, lift, saved]
  simp [Context.speedOn, Working.polish?_polish kind, platen]

theorem State.stall_conditioner {s : State} {p : PlatenId} (run : (s.station (.platen p)).holder = some .conditioner) :
    s.stall p = (s.modBase p Timebase.stall).modCond p fun c => c.suspendRun (s.base p).config := by
  have holder : ((s.modBase p Timebase.stall).station (.platen p)).holder = some .conditioner := run
  rw [State.stall, holder]
  dsimp only
  rw [State.modBase_eq, State.base_setBase_self]
  rfl

theorem State.stall_head {s : State} {p : PlatenId} {h : HeadId} (on : s.headOn p = some h) (down : s.isDown h = true) :
    s.stall p = (s.modBase p Timebase.stall).raiseCause h .platenStall := by
  have holder : ((s.modBase p Timebase.stall).station (.platen p)).holder = some (.head h) := State.headOn_eq_some_iff.1 on
  rw [State.stall, holder]
  exact if_pos down

/-- What the timebase holds for a step, where its owner, its units and its amend buffer stand. -/
theorem State.collect_congr {s t : State} (owner : ∀ p, (t.base p).owner = (s.base p).owner)
    (units : ∀ p, (t.base p).accumulator = (s.base p).accumulator) (amend : ∀ p, (t.base p).amend = (s.base p).amend)
    (h : HeadId) (w : Working) : t.collect h w = s.collect h w := by
  have owned : t.ownedPlaten h = s.ownedPlaten h := by simp only [State.ownedPlaten, owner]
  simp only [State.collect, owned, owner, units, amend]

theorem State.collect_modBase {s : State} {p : PlatenId} {f : Timebase → Timebase} (owner : (f (s.base p)).owner = (s.base p).owner)
    (units : (f (s.base p)).accumulator = (s.base p).accumulator) (amend : (f (s.base p)).amend = (s.base p).amend)
    (h : HeadId) (w : Working) : (s.modBase p f).collect h w = s.collect h w := by
  refine State.collect_congr (fun j => ?_) (fun j => ?_) (fun j => ?_) h w
  all_goals
    rw [State.modBase_eq, State.base_setBase]
    split
    · next eq => subst eq; assumption
    · rfl

/-- The stall under a DOWN head at its POLISH step (R56): LIFT, and the platen keeps its setpoint and its stalled mark. -/
theorem State.stall_effect {s : State} {p : PlatenId} {h : HeadId} {w : Working} {r : PolishRecord}
    (clear : s.trip.tripped = false) (turning : 0 < (s.base p).speed) (on : s.headOn p = some h) (down : s.isDown h = true)
    (running : (s.seq h).state = .running) (current : (s.seq h).activity = some (.step w)) (kind : w.record.kind = .polish r)
    (platen : w.platen = some p) (speed : 0 < r.speed) (empty : (s.seq h).stack = []) :
    ((s.stall p).settle.base p).stalled = true ∧ ((s.stall p).settle.base p).stallTimer = none ∧
      (s.stall p).settle.seq h = Sequencer.bump { s.seq h with
        activity := some (.intervention .lift [.platenStall] none)
        stack := [⟨.step (s.collect h w).suspended, (s.carrier h).halt.position.transit?⟩] } ∧
      (s.stall p).settle.isDown h = false := by
  let u := s.modBase p Timebase.stall
  have saved : u.saved h (.step w) = .step (s.collect h w).suspended :=
    congrArg (fun x : Working => Saved.step x.suspended)
      (State.collect_modBase (f := Timebase.stall) rfl rfl rfl h w)
  have lifted : (u.raiseCause h .platenStall).seq h = Sequencer.bump { s.seq h with
        activity := some (.intervention .lift [.platenStall] none)
        stack := [⟨.step (s.collect h w).suspended, (s.carrier h).halt.position.transit?⟩] } ∧
      (u.raiseCause h .platenStall).isDown h = false := by
    obtain ⟨seq, -, up, -⟩ := State.raiseCause_lift (s := u) (c := .platenStall) rfl running current Nat.two_pos (by
      rw [show (u.seq h).stack = [] from empty]; exact Nat.two_pos)
    rw [saved, show (u.seq h).stack = [] from empty] at seq
    exact ⟨seq, up⟩
  have seated : Seated u (u.raiseCause h .platenStall) := .raiseCause _ _ (by decide)
  have stalled : u.base p = (s.base p).stall := State.base_setBase_self ..
  have wanted : 0 < (u.raiseCause h .platenStall).speedWanted p := by
    have on' : (u.raiseCause h .platenStall).headOn p = some h :=
      State.headOn_eq_some_iff.2 ((seated.holder _).trans (State.headOn_eq_some_iff.1 on))
    have still : ((u.raiseCause h .platenStall).seq h).state = .running := by
      rw [lifted.1]
      exact running
    obtain ⟨a, l, f, collected⟩ := s.collect_eq h w
    rw [State.speedWanted_head (by rw [(Cascade.raiseCause ..).trip]; exact clear) on', if_pos still, lifted.1,
      Sequencer.speedOn_lift (w := (s.collect h w).suspended.bump) (r := r) rfl rfl (by rw [collected]; exact kind)
        (by rw [collected]; exact platen)]
    exact speed
  rw [State.stall_head on down]
  refine ⟨?_, ?_, (State.seq_settle ..).trans lifted.1, (State.isDown_settle ..).trans lifted.2⟩
  all_goals rw [State.base_settle, Timebase.running_setSpeed (by rw [seated.speed, stalled]; exact turning) wanted]
  · exact (seated.stalled p).trans (by rw [stalled]; rfl)
  · exact (seated.stallTimer p).trans (by rw [stalled]; rfl)

/-- The stall under an ex-situ run (R56, R148): the run is suspended, and the platen keeps its setpoint and its mark. -/
theorem State.stall_run {s : State} {p : PlatenId} (clear : s.trip.tripped = false) (turning : 0 < (s.base p).speed)
    (run : (s.station (.platen p)).holder = some .conditioner) (held : (s.cond p).runHeld = true)
    (speed : 0 < (s.base p).config.conditioningSpeed) :
    ((s.stall p).settle.base p).stalled = true ∧ ((s.stall p).settle.base p).stallTimer = none ∧
      ((s.stall p).settle.cond p).arm = ((s.cond p).suspendRun (s.base p).config).arm := by
  have kept (c : Conditioner) (g : PlatenConfig) : (c.suspendRun g).runHeld = c.runHeld := by
    unfold Conditioner.suspendRun Conditioner.suspend Conditioner.enter
    grind
  rw [State.stall_conditioner run]
  let u := (s.modBase p Timebase.stall).modCond p fun c => c.suspendRun (s.base p).config
  have base : u.base p = (s.base p).stall := State.base_setBase_self ..
  have cond : u.cond p = (s.cond p).suspendRun (s.base p).config := State.cond_setCond_self ..
  have wanted : u.speedWanted p = (s.base p).config.conditioningSpeed := by
    have holder : (u.station (.platen p)).holder = some .conditioner := run
    have on : (u.cond p).runHeld = true := by rw [cond, kept, held]
    have going : u.trip.tripped = false := clear
    rw [State.speedWanted, going, holder]
    simp only [on, base]
    rfl
  have settled : u.settle.base p = { (s.base p).stall with speed := (s.base p).config.conditioningSpeed } := by
    rw [State.base_settle, wanted, base, Timebase.running_setSpeed (b := (s.base p).stall) turning speed]
  refine ⟨congrArg Timebase.stalled settled, congrArg Timebase.stallTimer settled, ?_⟩
  rw [(SettleKept.settle u).arm, cond]

/-- Settles O48: an expiry raises its cause at the head it concerns, or suspends the run of the conditioner. -/
theorem bandAndStallExpiries : Obligations.BandAndStallExpiries := by
  refine ⟨fun s h => ?band, fun s p => ?stall⟩
  case band =>
    have arm : exec (.bandTimeout h) s = .next (s.bandExpiry h).settle := rfl
    refine ⟨fun idle => by rw [arm, State.bandExpiry_idle idle], fun a on running busy lower room => ?_⟩
    obtain ⟨seq, -, up, notice⟩ := State.raiseCause_lift (s := s.setZone h (s.zone h).expireBand) (c := .pressureBand) rfl
      running busy lower room
    rw [arm, State.bandExpiry_running on]
    exact ⟨_, rfl, (State.seq_settle ..).trans seq, (State.isDown_settle ..).trans up, State.notice_settle notice⟩
  case stall =>
    have arm : exec (.stallExpiry p) s = .next (s.stallExpiry p).settle := rfl
    refine ⟨fun idle => by rw [arm, State.stallExpiry_idle idle], fun on clear turning =>
      ⟨fun h w r held down running current kind platen speed empty => ?_, fun run held speed => ?_⟩⟩
    · rw [arm, State.stallExpiry_running on]
      exact ⟨_, rfl, State.stall_effect clear turning held down running current kind platen speed empty⟩
    · rw [arm, State.stallExpiry_running on]
      obtain ⟨stalled, stopped, suspended⟩ := State.stall_run clear turning run held speed
      refine ⟨_, rfl, stalled, stopped, fun deploying => ?_, fun sweeping => ?_⟩
      · rw [suspended, Conditioner.suspendRun, Conditioner.suspend, deploying]
        rfl
      · rw [suspended, Conditioner.suspendRun, Conditioner.suspend, sweeping]
        rfl

end Sys2Proof.Machine
end

section
/-!
PROOFS. The confirmation of an endpoint (R36, R105), and the completion of an ex-situ run (R147).
-/
namespace Sys2Proof.Machine

/-! ## The confirmation -/

/-- What the timebase of a platen gives a capture (R36, R105). -/
def State.captured (s : State) (p : PlatenId) : Capture := ⟨(s.base p).revolution, (s.base p).position, (s.base p).accumulator⟩

/-- The working record of a confirmed step (R36). -/
def Working.confirm (w : Working) (x : Capture) : Working :=
  { w with phase := some .overpolish, confirmed := some ⟨x, w.opFixed + w.opPercent * x.accrued / 100⟩ }

/-- The head and the qualifier at a confirmation, before a target of 0 ends the step (R36, R105). -/
def State.confirming (s : State) (p : PlatenId) (h : HeadId) : State :=
  (((s.modQual p fun q => { q with capture := some (s.captured p) }).confirmStep h (s.captured p)).raise .endpoint
    (.confirmed p)).closeWatch p

theorem State.closeWatch_eq {s : State} {p : PlatenId} (open_ : (s.qual p).state ≠ .idle) :
    s.closeWatch p = (s.modQual p fun q => { q with state := .idle }).raise .endpoint (.watchClosed p) := if_neg open_

theorem QualState.ne_idle_of_watching {x : QualState} {h : HeadId} (watching : x.watching = some h) : x ≠ .idle := by
  rintro rfl
  cases watching

section
variable {s : State} {p : PlatenId} {h : HeadId} {w : Working}

theorem State.runningStep_of (running : (s.seq h).state = .running) (current : (s.seq h).activity = some (.step w)) :
    s.runningStep h = some w := by
  rw [State.runningStep, State.isRunning, running, State.current, current]
  rfl

theorem State.confirmStep_eq (step : s.runningStep h = some w) (x : Capture) : s.confirmStep h x =
    (s.setWorking h (w.confirm x)).modSeq h fun q => { q with ep := true, epmiss := false } := by
  rw [State.confirmStep, step]
  rfl

theorem State.confirm_eq (watching : (s.qual p).state.watching = some h) : s.confirm p =
    match ((s.confirming p h).current h).bind Working.confirmed with
    | some k => if k.target = 0 then (s.confirming p h).finishStep h .endpoint else s.confirming p h
    | none => s.confirming p h := by
  rw [State.confirm, watching] <;> rfl

variable (watching : (s.qual p).state.watching = some h) (running : (s.seq h).state = .running)
  (current : (s.seq h).activity = some (.step w))
include watching running current

theorem State.confirming_eq : s.confirming p h =
    ((((((s.modQual p fun q => { q with capture := some (s.captured p) }).setWorking h (w.confirm (s.captured p))).modSeq h
      fun q => { q with ep := true, epmiss := false }).raise .endpoint (.confirmed p)).modQual p
        fun q => { q with state := .idle }).raise .endpoint (.watchClosed p)) := by
  rw [State.confirming, State.confirmStep_eq (w := w)]
  · refine State.closeWatch_eq (QualState.ne_idle_of_watching (h := h) ?_)
    rw [State.qual_raise, State.modSeq_eq, State.qual_setSeq, State.setWorking, State.modSeq_eq, State.qual_setSeq,
      State.modQual_eq, State.qual_setQual_self]
    exact watching
  · exact State.runningStep_of running current

theorem State.seq_confirming : (s.confirming p h).seq h =
    { s.seq h with activity := some (.step (w.confirm (s.captured p))), ep := true, epmiss := false } := by
  rw [State.confirming_eq watching running current, State.seq_raise, State.modQual_eq, State.seq_setQual, State.seq_raise,
    State.modSeq_eq, State.seq_setSeq_self, State.setWorking, State.modSeq_eq, State.seq_setSeq_self]
  rfl

theorem State.qual_confirming : (s.confirming p h).qual p =
    { s.qual p with state := .idle, capture := some (s.captured p) } := by
  rw [State.confirming_eq watching running current, State.qual_raise, State.modQual_eq, State.qual_setQual_self,
    State.qual_raise, State.modSeq_eq, State.qual_setSeq, State.setWorking, State.modSeq_eq, State.qual_setSeq,
    State.modQual_eq, State.qual_setQual_self]

theorem State.notice_confirming : .confirmed p ∈ ((s.confirming p h).port .endpoint).notices ∧
    .watchClosed p ∈ ((s.confirming p h).port .endpoint).notices := by
  rw [State.confirming_eq watching running current]
  exact ⟨((Cascade.modQual ..).trans (.raise ..)).notice State.notice_raise, State.notice_raise⟩

theorem State.current_confirming : (s.confirming p h).current h = some (w.confirm (s.captured p)) := by
  rw [State.current, State.seq_confirming watching running current]

theorem State.confirm_runs (target : 0 < w.opFixed + w.opPercent * (s.captured p).accrued / 100) :
    s.confirm p = s.confirming p h := by
  rw [State.confirm_eq watching, State.current_confirming watching running current]
  exact if_neg target.ne'

theorem State.confirm_ends (target : w.opFixed + w.opPercent * (s.captured p).accrued / 100 = 0) :
    s.confirm p = (s.confirming p h).finishStep h .endpoint := by
  rw [State.confirm_eq watching, State.current_confirming watching running current]
  exact if_pos target

end

/-- The two ways to a confirmation, a mark and its row of the table, leave the same state but for the response. -/
theorem State.exec_confirms {s : State} {c : Instr} {p : PlatenId} {q : Qualifier}
    (confirms : c = .endpointConfirmation p ∧ (s.qual p).state.counting = true ∧ q = s.qual p ∨
      ∃ b k, c = .mark .endpoint b ∧ s.opens .endpoint ∧ b.length = 3 ∧ platenOfCode (le8 b 0) = some p ∧
        markKindOf (le8 b 2) = some k ∧
        (s.qual p).mark (s.base p).revolution (b.getD 1 0) k (s.base p).config.confirmNumber = ⟨q, .accepted, true⟩) :
    ∃ t, exec c s = .next t ∧ (∀ g, t.seq g = ((s.setQual p q).confirm p).seq g) ∧
      t.qual p = ((s.setQual p q).confirm p).qual p ∧
      (∀ n, n ∈ (((s.setQual p q).confirm p).port .endpoint).notices → (n.kind .endpoint).isSome = true →
        n ∈ (t.port .endpoint).notices) ∧
      ∀ b, c = .mark .endpoint b → (t.port .endpoint).response = some ⟨.ok, [0]⟩ := by
  obtain ⟨rfl, counting, rfl⟩ | ⟨b, k, rfl, op, len, platen, kind, taken⟩ := confirms
  · have arm : exec (.endpointConfirmation p) s =
        .next ((if (s.qual p).state.counting then s.confirm p else s).settle) := rfl
    rw [State.setQual_qual]
    exact ⟨_, by rw [arm, if_pos counting], fun g => State.seq_settle .., State.qual_settle ..,
      fun n raised held => State.notice_settle raised held, fun b eq => absurd eq (by simp)⟩
  · have made : s.takeMark p (b.getD 1 0) k = ((s.setQual p q).confirm p, .accepted) := by
      simp only [State.takeMark, taken, if_true]
    have response : exec (.mark .endpoint b) s = .next (((s.setQual p q).confirm p).settle.respond .endpoint .ok [0]) := by
      rw [exec_mark op len platen kind, State.mark, made]
      rfl
    refine ⟨_, response, fun g => State.seq_settle .., ?_, fun n raised held => ?_, fun _ _ => ?_⟩
    · rw [State.respond, State.modPort_eq, State.qual_setPort, State.qual_settle]
    · rw [State.notices_respond]
      exact State.notice_settle raised held
    · rw [State.respond, State.modPort_eq, State.port_setPort_self]

/-- Settles O36: a confirmation reaches its head, and with a target of 0 the step ends at it. -/
theorem confirmation : Obligations.Confirmation := by
  refine ⟨fun s p idle => ?idle, fun s c p q h w confirms watching running current => ?confirms⟩
  case idle =>
    have arm : exec (.endpointConfirmation p) s = .next ((if (s.qual p).state.counting then s.confirm p else s).settle) := rfl
    rw [arm, idle]
    rfl
  case confirms =>
    obtain ⟨t, exec_eq, seq, qual, notices, response⟩ := State.exec_confirms confirms
    let u := s.setQual p q
    have watching' : (u.qual p).state.watching = some h := by rw [State.qual_setQual_self]; exact watching
    obtain ⟨confirmed, closed⟩ := State.notice_confirming (s := u) watching' running current
    refine ⟨fun target => ⟨t, exec_eq, ?_, ?_, ?_, ?_, response⟩, fun target => ?ends⟩
    case ends =>
      have ends := State.confirm_ends (s := u) watching' running current target
      have cascade : Cascade (u.confirming p h) ((u.confirming p h).finishStep h .endpoint) := .finishStep ..
      have step := State.current_confirming (s := u) watching' running current
      have results := State.results_finishStep step .endpoint
      obtain ⟨a, l, f, collected⟩ := (u.confirming p h).collect_eq h (w.confirm (u.captured p))
      refine ⟨t, ((u.confirming p h).collect h (w.confirm (u.captured p))).result .endpoint (u.confirming p h).beat.counter,
        exec_eq, ?_, ?_, rfl, ?_, ?_, ?_, response⟩
      · rw [seq h, ends]
        rw [State.seq_confirming watching' running current] at results
        exact results
      · rw [collected]
        rfl
      · rw [collected]
        rfl
      · exact notices _ (by rw [ends]; exact cascade.notice confirmed) rfl
      · exact notices _ (by rw [ends]; exact cascade.notice closed) rfl
    all_goals have runs := State.confirm_runs (s := u) watching' running current target
    · rw [seq h, runs, State.seq_confirming watching' running current]
      rfl
    · rw [qual, runs, State.qual_confirming watching' running current, State.qual_setQual_self]
      rfl
    · exact notices _ (by rw [runs]; exact confirmed) rfl
    · exact notices _ (by rw [runs]; exact closed) rfl

end Sys2Proof.Machine
end

section
/-!
PROOFS. The release of a station (R8): what its branches leave at the station, at the waiter that takes it, at the waiters that
are turned away and at the Conditioner Unit.
-/
namespace Sys2Proof.Machine

/-! ## A unit whose arm does not sweep (R138) -/

/-- The unit of a platen but for its outer limit, which a resting arm alone follows (R138). -/
structure OuterAlone (p : PlatenId) (s t : State) : Prop where
  kept : (s.cond p).arm.isSweeping = false → (∃ o, t.cond p = { s.cond p with outer := o }) ∧ t.disk p = s.disk p

theorem OuterAlone.of_kept {p : PlatenId} {s t : State} (cond : t.cond p = s.cond p) (disk : t.disk p = s.disk p) :
    OuterAlone p s t := ⟨fun _ => ⟨⟨(s.cond p).outer, cond⟩, disk⟩⟩

theorem OuterAlone.refl (p : PlatenId) (s : State) : OuterAlone p s s := .of_kept rfl rfl

theorem OuterAlone.trans {p : PlatenId} {s t u : State} (a : OuterAlone p s t) (b : OuterAlone p t u) : OuterAlone p s u := by
  refine ⟨fun rests => ?_⟩
  obtain ⟨⟨o, first⟩, disk⟩ := a.kept rests
  obtain ⟨⟨o', second⟩, disk'⟩ := b.kept (by rw [first]; exact rests)
  exact ⟨⟨o', by rw [second, first]⟩, disk'.trans disk⟩

theorem OuterAlone.foldl {α : Type} {p : PlatenId} {f : State → α → State} (k : ∀ s x, OuterAlone p s (f s x)) :
    ∀ (xs : List α) (s : State), OuterAlone p s (xs.foldl f s)
  | [], s => .refl p s
  | x :: xs, s => (k s x).trans (OuterAlone.foldl k xs (f s x))

theorem Conditioner.turnsAt_resting {c : Conditioner} (rests : c.arm.isSweeping = false) (g : PlatenConfig)
    (want : OuterLimit) : c.turnsAt g want = false := by
  unfold Conditioner.turnsAt Conditioner.mustTurn
  cases arm : c.arm with
  | sweeping m => rw [arm] at rests; cases rests
  | _ => simp

theorem Conditioner.decided_resting {c : Conditioner} (rests : c.arm.isSweeping = false) (g : PlatenConfig) (want : OuterLimit) :
    c.decided g want = { c with outer := want } := by
  rw [Conditioner.decided, Conditioner.turnsAt_resting rests]
  rfl

theorem OuterAlone.refreshOuter (p j : PlatenId) (s : State) : OuterAlone p s (s.refreshOuter j) := by
  refine ⟨fun rests => ⟨?_, ?_⟩⟩
  · rw [State.cond_refreshOuter]
    split
    · next eq => exact ⟨_, by rw [← eq, Conditioner.decided_resting rests]⟩
    · exact ⟨(s.cond p).outer, rfl⟩
  · rw [State.disk_refreshOuter, if_neg]
    rintro ⟨rfl, turns⟩
    rw [Conditioner.turnsAt_resting rests] at turns
    cases turns

theorem OuterAlone.settle (p : PlatenId) (s : State) : OuterAlone p s s.settle := by
  refine ⟨fun rests => ⟨⟨_, by rw [State.cond_settle, Conditioner.decided_resting rests]⟩, ?_⟩⟩
  rw [State.disk_settle, Conditioner.turnsAt_resting rests]
  rfl

theorem OuterAlone.liftUp (p : PlatenId) (s : State) (h : HeadId) : OuterAlone p s (s.liftUp h) := by
  unfold State.liftUp
  split
  · dsimp only
    cases s.platenOf h with
    | none => exact .of_kept rfl rfl
    | some j =>
      exact OuterAlone.trans (t := s.modZone h fun z => { z with lift := .up }) (.of_kept rfl rfl) (.refreshOuter ..)
  · exact .refl ..

theorem State.disk_modWorking (s : State) (h : HeadId) (f : Working → Working) (p : PlatenId) :
    (s.modWorking h f).disk p = s.disk p := by
  unfold State.modWorking
  cases s.current h <;> rfl

theorem State.cond_modWorking (s : State) (h : HeadId) (f : Working → Working) (p : PlatenId) :
    (s.modWorking h f).cond p = s.cond p := by
  unfold State.modWorking
  cases s.current h <;> rfl

theorem OuterAlone.haltResumable (p : PlatenId) (s : State) (h : HeadId) (r : HaltReason) :
    OuterAlone p s (s.haltResumable h r) := by
  have lifted : OuterAlone p s ((s.leaveWaits h).liftUp h) :=
    (OuterAlone.of_kept (s := s) (t := s.leaveWaits h) rfl rfl).trans (.liftUp ..)
  refine lifted.trans (.of_kept ?_ ?_)
  · rw [State.haltResumable, State.cond_raise, State.modSeq_eq, State.cond_setSeq]
  · rw [State.haltResumable, State.disk_raise, State.modSeq_eq, State.disk_setSeq]

theorem OuterAlone.haltRequest (p : PlatenId) (s : State) (h : HeadId) (r : HaltReason) :
    OuterAlone p s (s.haltRequest h r) :=
  (OuterAlone.of_kept (State.cond_modWorking ..) (State.disk_modWorking ..)).trans (.haltResumable ..)

theorem OuterAlone.dismissAll (p : PlatenId) (s : State) (d : StationId) : OuterAlone p s (s.dismissAll d) :=
  .foldl (fun t g => (OuterAlone.of_kept (s := t) (t := t.leaveWaits g) rfl rfl).trans (.haltRequest ..)) _ _

/-! ## The oldest waiter takes the station (R8 steps 3 and 5) -/

section
variable {s : State} {d : StationId}

theorem State.grantNext_nil (none : (s.station d).wait = []) : s.grantNext d = s := by
  rw [State.grantNext, none]

/-- The station, the waiter's move and the waiter's activity at a grant. -/
theorem State.grantNext_cons {g : HeadId} {rest : List HeadId} (oldest : (s.station d).wait = g :: rest) :
    s.grantNext d = ((s.setStation d { s.station d with holder := some (.head g), wait := rest }).setCarrier g
      ((s.carrier g).send s.trip.tripped (s.stationOf g) d)).setSeq g
        { s.seq g with activity := (s.seq g).activity.map Activity.granted } := by
  rw [State.grantNext, oldest] <;> rfl

theorem State.base_grantNext (p : PlatenId) : (s.grantNext d).base p = s.base p := by
  unfold State.grantNext
  split <;> rfl

theorem State.cond_grantNext (p : PlatenId) : (s.grantNext d).cond p = s.cond p := by
  unfold State.grantNext
  split <;> rfl

theorem State.pad_grantNext (p : PlatenId) : (s.grantNext d).pad p = s.pad p := by
  unfold State.grantNext
  split <;> rfl

theorem State.disk_grantNext (p : PlatenId) : (s.grantNext d).disk p = s.disk p := by
  unfold State.grantNext
  split <;> rfl

end

/-! ## The waiters are turned away (R8 step 4) -/

section
variable (s : State) (g : HeadId)

/-- One waiter turned away. -/
def State.dismiss : State := (s.leaveWaits g).haltRequest g .stationUnavailable

theorem State.dismissAll_eq (d : StationId) : s.dismissAll d = (s.station d).wait.foldl State.dismiss s := rfl

theorem State.station_modWorking (h : HeadId) (f : Working → Working) (d : StationId) :
    (s.modWorking h f).station d = s.station d := by
  unfold State.modWorking
  cases s.current h <;> rfl

theorem State.station_leaveWaits (h : HeadId) (d : StationId) : (s.leaveWaits h).station d = (s.station d).leave h := by
  cases d with
  | platen p => cases p <;> rfl
  | _ => rfl

theorem Station.leave_leave (r : Station) (h : HeadId) : (r.leave h).leave h = r.leave h := by
  simp [Station.leave]

theorem State.station_dismiss (d : StationId) : (s.dismiss g).station d = (s.station d).leave g := by
  rw [State.dismiss, State.haltRequest, State.station_haltResumable, State.station_leaveWaits, State.station_modWorking,
    State.station_leaveWaits, Station.leave_leave]

theorem State.state_modWorking (h : HeadId) (f : Working → Working) (j : HeadId) :
    ((s.modWorking h f).seq j).state = (s.seq j).state := by
  unfold State.modWorking
  cases s.current h with
  | none => rfl
  | some w =>
    dsimp only
    rw [State.setWorking, State.modSeq_eq, State.seq_setSeq]
    split
    · next eq => rw [eq]
    · rfl

theorem State.state_dismiss (h : HeadId) :
    ((s.dismiss g).seq h).state = if h = g then (s.seq h).state.halt .stationUnavailable else (s.seq h).state := by
  split
  · next eq =>
    rw [eq, State.dismiss, State.haltRequest, State.seq_haltResumable]
    exact congrArg (HeadState.halt · _) (State.state_modWorking ..)
  · next ne => exact congrArg Sequencer.state ((Aside.leaveWaits (h := h) s g).trans (.haltRequest _ _ (Ne.symm ne))).seq

theorem State.notice_dismiss : .halted g ∈ ((s.dismiss g).port .recipe).notices := State.notice_haltResumable ..

theorem Cascade.dismiss : Cascade s (s.dismiss g) := (Cascade.leaveWaits s g).trans (.haltRequest ..)

theorem State.pads_dismiss : (s.dismiss g).pads = s.pads := by
  have halted (u : State) (r : HaltReason) : (u.haltResumable g r).pads = u.pads := by
    obtain ⟨_, _, _, _, lifted⟩ := (u.leaveWaits g).liftUp_writes g
    rw [State.haltResumable, lifted]
    rfl
  rw [State.dismiss, State.haltRequest, halted]
  unfold State.modWorking
  cases (s.leaveWaits g).current g <;> rfl

end

/-- Waiters that are turned away, one after another, leave the station. -/
theorem State.station_dismissed (d : StationId) (xs : List HeadId) (s : State) :
    (xs.foldl State.dismiss s).station d = { s.station d with wait := (s.station d).wait.filter fun h => decide (h ∉ xs) } := by
  induction xs generalizing s with
  | nil => simp
  | cons x rest ih =>
    rw [List.foldl_cons, ih, State.station_dismiss, Station.leave]
    simp only [List.filter_filter, List.mem_cons, not_or]
    congr 2
    funext h
    by_cases eq : h = x <;> simp [eq]

theorem HeadState.halt_halted (r : HaltReason) (e : Option EndState) (r' : HaltReason) :
    (HeadState.halted r e).halt r' = .halted r' e := rfl

/-- A head that is turned away halts, whatever else is turned away with it. -/
theorem State.state_dismissed {g : HeadId} (xs : List HeadId) (s : State)
    (open_ : (s.seq g).state.halt .stationUnavailable = .halted .stationUnavailable none) :
    (g ∈ xs → ((xs.foldl State.dismiss s).seq g).state = .halted .stationUnavailable none) ∧
      ((s.seq g).state = .halted .stationUnavailable none →
        ((xs.foldl State.dismiss s).seq g).state = .halted .stationUnavailable none) := by
  induction xs generalizing s with
  | nil => exact ⟨fun mem => absurd mem List.not_mem_nil, id⟩
  | cons x rest ih =>
    have state := s.state_dismiss x g
    rw [List.foldl_cons]
    by_cases eq : g = x
    · rw [if_pos eq, open_] at state
      have done := (ih (s.dismiss x) (by rw [state]; rfl)).2 state
      exact ⟨fun _ => done, fun _ => done⟩
    · rw [if_neg eq] at state
      obtain ⟨inner, kept⟩ := ih (s.dismiss x) (by rw [state]; exact open_)
      exact ⟨fun mem => inner ((List.mem_cons.1 mem).resolve_left eq), fun halted => kept (state.trans halted)⟩

theorem State.notice_dismissed {g : HeadId} (xs : List HeadId) (s : State) (mem : g ∈ xs) :
    .halted g ∈ (((xs.foldl State.dismiss s)).port .recipe).notices := by
  induction xs generalizing s with
  | nil => exact absurd mem List.not_mem_nil
  | cons x rest ih =>
    rw [List.foldl_cons]
    obtain rfl | later := List.mem_cons.1 mem
    · exact (Cascade.foldl Cascade.dismiss rest _).notice (s.notice_dismiss g)
    · exact ih _ later

theorem State.pads_dismissed (xs : List HeadId) (s : State) : (xs.foldl State.dismiss s).pads = s.pads := by
  induction xs generalizing s with
  | nil => rfl
  | cons x rest ih => rw [List.foldl_cons, ih, State.pads_dismiss]

theorem State.station_dismissAll (s : State) (d : StationId) :
    (s.dismissAll d).station d = { s.station d with wait := [] } := by
  rw [State.dismissAll_eq, State.station_dismissed]
  simp

/-! ## The completion of a run (R147) -/

section
variable (s : State) (p : PlatenId)

/-- The pad, the unit and the station of a run that is over, before the station is handed on. -/
def State.runOver : State :=
  ((s.setPad p (s.pad p).runDone).setCond p (({ s.cond p with runHeld := false, sweepsDone := 0 } : Conditioner).stow
    (s.base p).config)).setStation (.platen p) { s.station (.platen p) with holder := none }

variable {s p}

/-- The conditioner leaves a station without a wafer count (R156). -/
theorem State.accountRelease_run (run : (s.station (.platen p)).holder = some .conditioner) :
    s.accountRelease (.platen p) = s := by
  unfold State.accountRelease
  split
  · next head => rw [run] at head; cases head
  · rfl

theorem State.completeRun_eq (run : (s.station (.platen p)).holder = some .conditioner) :
    s.completeRun p = ((s.runOver p).handStation (.platen p)).raise .recipe (.runDone p) := by
  rw [State.completeRun, State.release, State.accountRelease_run]
  · rfl
  · exact run

theorem State.pad_runOver : (s.runOver p).pad p = (s.pad p).runDone := State.pad_setPad_self ..

theorem State.cond_runOver : (s.runOver p).cond p =
    ({ s.cond p with runHeld := false, sweepsDone := 0 } : Conditioner).stow (s.base p).config := State.cond_setCond_self ..

theorem State.station_runOver : (s.runOver p).station (.platen p) = { s.station (.platen p) with holder := none } :=
  State.station_setStation_self ..

/-- The hand-on after a run (R8): no run is owed any more. -/
theorem State.handStation_runOver : (s.runOver p).handStation (.platen p) =
    if (s.pad p).runDone.state.usable then (s.runOver p).grantNext (.platen p) else (s.runOver p).dismissAll (.platen p) := by
  rw [State.handStation, State.pad_runOver, if_neg (show ¬(0 < (s.pad p).runDone.owed) from Nat.lt_irrefl 0)]

theorem Conditioner.stow_eq {c : Conditioner} {g : PlatenConfig} (resting : c.arm ≠ .stowing) : c.stow g =
    if c.position ≤ g.stow then c.enter g .stowed else c.enter g .stowing := by
  unfold Conditioner.stow
  rw [if_neg resting]

/-- The unit after a run, whatever follows at the station (R147, R138). -/
theorem State.cond_completeRun_settle (run : (s.station (.platen p)).holder = some .conditioner)
    (moving : (s.cond p).arm ≠ .stowing) : (∃ o, (s.completeRun p).settle.cond p =
      { ({ s.cond p with runHeld := false, sweepsDone := 0 } : Conditioner).enter (s.base p).config
        (if (s.cond p).position ≤ (s.base p).config.stow then .stowed else .stowing) with outer := o }) ∧
      (s.completeRun p).settle.disk p = s.disk p := by
  have stowed : (s.runOver p).cond p = ({ s.cond p with runHeld := false, sweepsDone := 0 } : Conditioner).enter
      (s.base p).config (if (s.cond p).position ≤ (s.base p).config.stow then .stowed else .stowing) := by
    rw [State.cond_runOver, Conditioner.stow_eq (c := { s.cond p with runHeld := false, sweepsDone := 0 }) moving]
    split <;> rfl
  have alone : OuterAlone p (s.runOver p) (s.completeRun p).settle := by
    have handed : OuterAlone p (s.runOver p) ((s.runOver p).handStation (.platen p)) := by
      rw [State.handStation_runOver]
      split
      · exact .of_kept (State.cond_grantNext p) (State.disk_grantNext p)
      · exact .dismissAll ..
    rw [State.completeRun_eq run]
    exact (handed.trans (.of_kept (State.cond_raise ..) (State.disk_raise ..))).trans (.settle ..)
  obtain ⟨⟨o, kept⟩, disk⟩ := alone.kept (by rw [stowed]; split <;> rfl)
  exact ⟨⟨o, by rw [kept, stowed]⟩, disk⟩

theorem State.pad_completeRun_settle (run : (s.station (.platen p)).holder = some .conditioner) :
    (s.completeRun p).settle.pad p = (s.pad p).runDone := by
  rw [State.pad, (SettleKept.settle _).pads, ← State.pad, State.completeRun_eq run, State.pad_raise, State.handStation_runOver,
    ← State.pad_runOver]
  split
  · exact State.pad_grantNext p
  · rw [State.dismissAll_eq, State.pad, State.pads_dismissed, State.pad]

theorem State.notice_completeRun_settle : .runDone p ∈ ((s.completeRun p).settle.port .recipe).notices :=
  State.notice_settle State.notice_raise

theorem PadState.usable_iff {x : PadState} : x.usable = true ↔ x = .inService ∨ x = .warn := by cases x <;> decide

/-- A pad that is broken in, IN_SERVICE or WARN may be used after the run (R157). -/
theorem Pad.usable_runDone {k : Pad} : k.runDone.state.usable = true ↔
    k.state = .breakIn ∨ k.state = .inService ∨ k.state = .warn := by
  rw [PadState.usable_iff, Pad.runDone]
  cases k.state <;> simp

theorem Pad.not_usable_runDone {k : Pad} (gone : k.state = .unknown ∨ k.state = .retired) : k.runDone.state.usable = false := by
  rw [Pad.runDone]
  obtain none | retired := gone
  · simp [none, PadState.usable]
  · simp [retired, PadState.usable]

/-- Without waiters the platen stands free and still after the run. -/
theorem State.completeRun_free (run : (s.station (.platen p)).holder = some .conditioner)
    (empty : (s.station (.platen p)).wait = []) :
    (s.completeRun p).settle.station (.platen p) = { s.station (.platen p) with holder := none } ∧
      ((s.completeRun p).settle.base p).speed = 0 := by
  have handed : (s.runOver p).handStation (.platen p) = s.runOver p := by
    rw [State.handStation_runOver]
    split
    · exact State.grantNext_nil (by rw [State.station_runOver]; exact empty)
    · rw [State.dismissAll_eq, State.station_runOver, empty, List.foldl_nil]
  have station : (s.completeRun p).station (.platen p) = { s.station (.platen p) with holder := none } := by
    rw [State.completeRun_eq run, State.station_raise, handed, State.station_runOver]
  refine ⟨(State.station_settle ..).trans station, ?_⟩
  rw [State.speed_settle, State.speedWanted, station]
  split <;> rfl

/-- The oldest waiter takes a platen whose pad may be used after the run. -/
theorem State.completeRun_granted {g : HeadId} {rest : List HeadId} (run : (s.station (.platen p)).holder = some .conditioner)
    (oldest : (s.station (.platen p)).wait = g :: rest)
    (usable : (s.pad p).state = .breakIn ∨ (s.pad p).state = .inService ∨ (s.pad p).state = .warn) :
    (s.completeRun p).settle.station (.platen p) = { s.station (.platen p) with holder := some (.head g), wait := rest } ∧
      (s.completeRun p).settle.carrier g = (s.carrier g).send s.trip.tripped (s.stationOf g) (.platen p) ∧
      (s.completeRun p).settle.seq g = { s.seq g with activity := (s.seq g).activity.map Activity.granted } := by
  have waiting : ((s.runOver p).station (.platen p)).wait = g :: rest := by rw [State.station_runOver]; exact oldest
  have handed : s.completeRun p = ((((s.runOver p).setStation (.platen p)
      { (s.runOver p).station (.platen p) with holder := some (.head g), wait := rest }).setCarrier g
      ((s.carrier g).send s.trip.tripped (s.stationOf g) (.platen p))).setSeq g
        { s.seq g with activity := (s.seq g).activity.map Activity.granted }).raise .recipe (.runDone p) := by
    rw [State.completeRun_eq run, State.handStation_runOver, if_pos (Pad.usable_runDone.2 usable),
      State.grantNext_cons waiting]
    rfl
  rw [State.station_settle, State.carrier_settle, State.seq_settle, handed]
  refine ⟨?_, ?_, ?_⟩
  · rw [State.station_raise, State.station_setSeq, State.station_setCarrier, State.station_setStation_self,
      State.station_runOver]
  · rw [State.carrier_raise, State.carrier_setSeq, State.carrier_setCarrier_self]
  · rw [State.seq_raise, State.seq_setSeq_self]

/-- The waiters of a platen whose pad is gone are turned away after the run (R8 step 4). -/
theorem State.completeRun_dismissed (run : (s.station (.platen p)).holder = some .conditioner)
    (gone : (s.pad p).state = .unknown ∨ (s.pad p).state = .retired) :
    (s.completeRun p).settle.station (.platen p) = { s.station (.platen p) with holder := none, wait := [] } ∧
      ∀ g ∈ (s.station (.platen p)).wait, (s.seq g).state = .running →
        ((s.completeRun p).settle.seq g).state = .halted .stationUnavailable none ∧
          .halted g ∈ ((s.completeRun p).settle.port .recipe).notices := by
  have handed : s.completeRun p = ((s.runOver p).dismissAll (.platen p)).raise .recipe (.runDone p) := by
    rw [State.completeRun_eq run, State.handStation_runOver, Pad.not_usable_runDone gone]
    rfl
  have waiting : ((s.runOver p).station (.platen p)).wait = (s.station (.platen p)).wait := by rw [State.station_runOver]
  refine ⟨?_, fun g mem running => ⟨?_, State.notice_settle ?_⟩⟩
  · rw [State.station_settle, handed, State.station_raise, State.station_dismissAll, State.station_runOver]
  · have open_ : ((s.runOver p).seq g).state.halt .stationUnavailable = .halted .stationUnavailable none := by
      rw [show (s.runOver p).seq g = s.seq g from rfl, running]
      rfl
    rw [State.seq_settle, handed, State.seq_raise, State.dismissAll_eq, waiting]
    exact (State.state_dismissed _ _ open_).1 mem
  · rw [handed, State.dismissAll_eq, waiting]
    exact (Cascade.raise ..).notice (State.notice_dismissed _ _ mem)

end

/-- Settles O52: the row completes the run of a sweeping arm. -/
theorem runCompletes : Obligations.RunCompletes := by
  intro s p
  have arm : exec (.runComplete p) s =
      .next ((if (s.cond p).runHeld && decide ((s.cond p).arm = .sweeping .exSitu) then s.completeRun p else s).settle) := rfl
  refine ⟨fun idle => ?idle, fun held sweeping run => ?ends⟩
  case idle =>
    have calm : ((s.cond p).runHeld && decide ((s.cond p).arm = .sweeping .exSitu)) = false := by
      obtain none | other := idle
      · simp [none]
      · simp [other]
    rw [arm, calm]
    rfl
  case ends =>
    have reached : ((s.cond p).runHeld && decide ((s.cond p).arm = .sweeping .exSitu)) = true := by simp [held, sweeping]
    rw [arm, if_pos reached]
    obtain ⟨⟨o, cond⟩, -⟩ := State.cond_completeRun_settle run (by rw [sweeping]; decide)
    refine ⟨_, rfl, State.pad_completeRun_settle run, by rw [cond]; rfl, by rw [cond]; rfl, by rw [cond]; rfl,
      by rw [cond]; rfl, State.notice_completeRun_settle, State.completeRun_free run, fun g rest oldest clear usable => ?_,
      State.completeRun_dismissed run⟩
    obtain ⟨station, carrier, seq⟩ := State.completeRun_granted run oldest usable
    refine ⟨station, ?_, seq⟩
    rw [carrier, clear]
    rfl

end Sys2Proof.Machine
end

section
/-!
PROOFS. The read responses (R17, R21, R41, R47, R95, R109, R162): what each is answered with, and the views it shows.
-/
namespace Sys2Proof.Machine

/-! ## The requests -/

section
variable {s : State} {q : Port} {b : List Byte} {h : HeadId} {p : PlatenId}

theorem exec_listRead {r : StepRecord} (o : s.opens .recipe) (len : b.length = 2) (head : headOf (le8 b 0) = some h)
    (at_ : (s.seq h).steps[le8 b 1]? = some r) :
    exec (.listRead .recipe b) s = .next (s.respond .recipe .ok (s.listRead h r)) := by
  have arm : exec (.listRead .recipe b) s = execListRead .recipe b s := rfl
  rw [arm, execListRead, State.takeRequest_recipe o len, requireField_of head, State.listReadAt,
    requireField_of at_, State.reply_answer]

theorem exec_listRead_outOfRange (o : s.opens .recipe) (len : b.length = 2) (head : headOf (le8 b 0) = some h)
    (beyond : (s.seq h).steps.length ≤ le8 b 1) :
    exec (.listRead .recipe b) s = .next (s.refusal .recipe .outOfRange) := by
  have arm : exec (.listRead .recipe b) s = execListRead .recipe b s := rfl
  rw [arm, execListRead, State.takeRequest_recipe o len, requireField_of head, State.listReadAt,
    requireField_not (List.getElem?_eq_none beyond), State.reply_error]

theorem exec_stationRead (o : s.opens q) : exec (.stationRead q []) s = .next (s.respond q .ok s.stationRead) := by
  have arm : exec (.stationRead q []) s = execStationRead q [] s := rfl
  rw [arm, execStationRead, State.takeRequest_of o, requireLength_of (b := []) (n := 0) rfl, State.reply_answer]

theorem exec_lineRead (o : s.opens q) : exec (.lineRead q []) s = .next (s.respond q .ok s.lineRead) := by
  have arm : exec (.lineRead q []) s = execLineRead q [] s := rfl
  rw [arm, execLineRead, State.takeRequest_of o, requireLength_of (b := []) (n := 0) rfl, State.reply_answer]

theorem exec_resultRead (o : s.opens q) (len : b.length = 2) (head : headOf (le8 b 0) = some h) (room : le8 b 1 < 16) :
    exec (.resultRead q b) s = .next (s.respond q .ok (s.resultRead h (le8 b 1))) := by
  have arm : exec (.resultRead q b) s = execResultRead q b s := rfl
  rw [arm, execResultRead, State.takeRequest_of o, requireLength_of len, requireField_of head,
    require_of (decide_eq_true (show le8 b 1 < Config.listCapacity from room)), State.reply_answer]

theorem exec_padRead (o : s.opens q) (len : b.length = 1) (platen : platenOfCode (le8 b 0) = some p) :
    exec (.padRead q b) s = .next (s.respond q .ok (s.padRead p)) := by
  have arm : exec (.padRead q b) s = execPadRead q b s := rfl
  rw [arm, execPadRead, State.takeRequest_of o, requireLength_of len, requireField_of platen, State.reply_answer]

theorem exec_qualRead (o : s.opens .endpoint) (len : b.length = 1) (platen : platenOfCode (le8 b 0) = some p) :
    exec (.qualRead .endpoint b) s = .next (s.respond .endpoint .ok (s.qualRead p)) := by
  have arm : exec (.qualRead .endpoint b) s = execQualRead .endpoint b s := rfl
  rw [arm, execQualRead, Port.isEndpoint_endpoint, State.takeRequest_of o, requireLength_of len, requireField_of platen,
    State.reply_answer]

theorem exec_headRead (o : s.opens q) (len : b.length = 1) (head : headOf (le8 b 0) = some h) :
    exec (.headRead q b) s =
      .next ((if s.drawsFree h then { s with freeCount := s.freeCount + 1 } else s).respond q .ok (s.headRead h)) := by
  have arm : exec (.headRead q b) s = execHeadRead q b s := rfl
  rw [arm, execHeadRead, State.takeRequest_of o, requireLength_of len, requireField_of head]
  rfl

end

/-! ## The step that HEAD_READ shows (R47) -/

section
variable {s : State} {h : HeadId}

theorem State.stepShown_step {w : Working} (current : (s.seq h).activity = some (.step w)) :
    s.stepShown h = (some w.index, w.phase.map fun f => BitVec.ofNat 8 f.code) := by
  rw [State.stepShown, State.current_eq_some_iff.2 current]

theorem Context.step?_intervention {c : Context} (saved : ∃ j js, c.saved = .intervention j js) : c.step? = none := by
  obtain ⟨j, js, saved⟩ := saved
  rw [Context.step?, saved]

theorem Context.findSome?_step_interventions {cs : List Context} (saved : ∀ c ∈ cs, ∃ j js, c.saved = .intervention j js) :
    cs.findSome? Context.step? = none :=
  List.findSome?_eq_none_iff.2 fun c mem => Context.step?_intervention (saved c mem)

theorem State.current_intervention {k : Intervention} {cs : List Cause} {x : Option ParkProgress}
    (busy : (s.seq h).activity = some (.intervention k cs x)) : s.current h = none := by
  rw [State.current, busy]

theorem State.stepShown_saved {k : Intervention} {cs : List Cause} {x : Option ParkProgress} {front : List Context}
    {w : Working} {tr : Option Position} (busy : (s.seq h).activity = some (.intervention k cs x))
    (stack : (s.seq h).stack = front ++ [⟨.step w, tr⟩]) (above : ∀ c ∈ front, ∃ j js, c.saved = .intervention j js) :
    s.stepShown h = (some w.index, w.resume.map fun f => BitVec.ofNat 8 f.code) := by
  have found : (s.seq h).stack.findSome? Context.step? = some w := by
    rw [stack, List.findSome?_append, Context.findSome?_step_interventions above]
    rfl
  rw [State.stepShown, State.current_intervention busy, found]

theorem State.current_eq_none (other : ∀ w, (s.seq h).activity ≠ some (.step w)) : s.current h = none := by
  rw [Option.eq_none_iff_forall_ne_some]
  exact fun w is => other w (State.current_eq_some_iff.1 is)

theorem State.stepShown_lost (other : ∀ w, (s.seq h).activity ≠ some (.step w))
    (saved : ∀ c ∈ (s.seq h).stack, ∃ j js, c.saved = .intervention j js) : s.stepShown h =
      match (s.seq h).lost with
      | some l => (some l.index, some (Config.freeByte s.freeCount))
      | none => (none, none) := by
  rw [State.stepShown, State.current_eq_none other, Context.findSome?_step_interventions saved] <;> rfl

theorem Phase.code_eq (f : Phase) : f.code =
    [Phase.waitStation, .inTransit, .acquireLine, .keepoutWait, .gap, .polish, .overpolish, .dwell].idxOf f := by
  cases f <;> rfl

end

/-! ## Outputs -/

/-- The activities that keep the spray on (R89). -/
theorem Activity.sprays_iff {a : Activity} : a.sprays = true ↔
    (∃ w n, a = .step w ∧ w.record.kind = .dwell n) ∨ ∃ cs, a = .intervention .park cs (some .atRinse) := by
  cases a with
  | step w => cases kind : w.record.kind <;> simp [Activity.sprays, kind]
  | intervention k cs x =>
    unfold Activity.sprays
    grind

/-- The spray of RINSE (R89). -/
theorem State.spray_iff (s : State) : s.spray = true ↔ s.trip.tripped = false ∧
    ∃ h, (s.station .rinse).holder = some (.head h) ∧ (s.carrier h).position = .stands .rinse ∧
      ((∃ w n, (s.seq h).activity = some (.step w) ∧ w.record.kind = .dwell n) ∨
        ∃ cs, (s.seq h).activity = some (.intervention .park cs (some .atRinse))) := by
  have sprays (a : Option Activity) : (a.map Activity.sprays).getD false = true ↔
      (∃ w n, a = some (.step w) ∧ w.record.kind = .dwell n) ∨ ∃ cs, a = some (.intervention .park cs (some .atRinse)) := by
    cases a with
    | none => simp
    | some a => simpa using Activity.sprays_iff
  unfold State.spray
  split
  · next tripped => simp [tripped]
  · next clear =>
    rw [Bool.not_eq_true] at clear
    split
    · next h holder =>
      simp only [Bool.and_eq_true, decide_eq_true_eq, State.stands?_eq_some_iff, sprays, clear, holder, true_and,
        Option.some.injEq, Holder.head.injEq, exists_eq_left']
    · next other => exact iff_of_false Bool.false_ne_true fun ⟨_, h, holder, _⟩ => other h holder

/-- A rinsing step (R88). -/
theorem Working.rinsing_iff {w : Working} {p : PlatenId} : w.rinsing p = true ↔ ∃ r f, w.record.kind = .polish r ∧
    r.line = .rinse ∧ w.platen = some p ∧ w.phase = some f ∧ f.atPlaten = true := by
  unfold Working.rinsing Working.polish?
  grind

/-- The rinse valve of a nozzle (R88). -/
theorem State.rinseValve_iff (s : State) (p : PlatenId) : s.rinseValve p = true ↔ s.trip.tripped = false ∧
    ∃ h, s.headOn p = some h ∧
      ((∃ w, (s.seq h).state = .running ∧ (s.seq h).activity = some (.step w) ∧ w.rinsing p = true) ∨
        ∃ cs x, (s.seq h).activity = some (.intervention .rinse cs x)) := by
  unfold State.rinseValve State.isRunning
  grind

/-! ## Wait lists and bindings -/

theorem State.awaited_mem {s : State} {h : HeadId} {d : StationId} (awaited : s.awaited h = some d) :
    h ∈ (s.station d).wait := List.contains_iff_mem.1 (List.find?_some (p := fun d => (s.station d).wait.contains h) awaited)

theorem State.awaited_none {s : State} {h : HeadId} (none : s.awaited h = none) (d : StationId) :
    h ∉ (s.station d).wait := by
  have listed : d ∈ stationIds := by
    cases d with
    | platen p => cases p <;> decide
    | _ => decide
  exact fun mem => List.find?_eq_none.1 none d listed (List.contains_iff_mem.2 mem)

theorem mem_lineIds (l : LineId) : l ∈ lineIds := by cases l <;> decide

theorem Line.feeds_iff_bound {k : Line} {n : NozzleId} : k.feeds n = true ↔ ∃ h f, k.state = .bound n h f := by
  unfold Line.feeds
  grind

theorem State.boundLine_bound {s : State} {n : NozzleId} {l : LineId} (bound : s.boundLine n = some l) :
    ∃ h f, (s.line l).state = .bound n h f := Line.feeds_iff_bound.1 (List.find?_some (p := fun l => (s.line l).feeds n) bound)

theorem State.boundLine_none {s : State} {n : NozzleId} (none : s.boundLine n = none) (l : LineId) (h : HeadId) (f : Nat) :
    (s.line l).state ≠ .bound n h f := fun bound =>
  List.find?_eq_none.1 none l (mem_lineIds l) (Line.feeds_iff_bound.2 ⟨h, f, bound⟩)

theorem State.awaitedLine_mem {s : State} {n : NozzleId} {l : LineId} (awaited : s.awaitedLine n = some l) :
    n ∈ (s.line l).wait := List.contains_iff_mem.1 (List.find?_some (p := fun l => (s.line l).wait.contains n) awaited)

theorem State.awaitedLine_none {s : State} {n : NozzleId} (none : s.awaitedLine n = none) (l : LineId) :
    n ∉ (s.line l).wait := fun mem =>
  List.find?_eq_none.1 none l (mem_lineIds l) (List.contains_iff_mem.2 mem)

/-! ## Layouts -/

theorem flatten_put8 {α : Type} (f : α → Nat) (xs : List α) : (xs.map fun x => put8 (f x)).flatten = xs.map fun x => BitVec.ofNat 8 (f x) := by
  induction xs with
  | nil => rfl
  | cons x rest ih =>
    rw [List.map_cons, List.flatten_cons, ih]
    rfl

theorem append_congr {a b c d : List Byte} (front : a = b) (rest : c = d) : a ++ c = b ++ d := by rw [front, rest]

theorem put32_eq (n : Nat) : put32 n =
    [BitVec.ofNat 8 n, BitVec.ofNat 8 (n / 256), BitVec.ofNat 8 (n / 65536), BitVec.ofNat 8 (n / 16777216)] := by
  have top : n / 65536 / 256 = n / 16777216 := Nat.div_div_eq_div_mul ..
  rw [put32, put16, put16, top]
  rfl

theorem putCapture_length (c : Option Capture) : (putCapture c).length = 11 := by cases c <;> rfl

theorem putResultLine_length (l : StepLine) : (putResultLine l).length = 2 := by cases l <;> rfl

theorem putResult_length (r : ResultRecord) : (putResult r).length = 35 := by
  have platen : (putOpt 1 (r.platen.map fun p => put8 (PlatenId.code p))).length = 2 := by cases r.platen <;> rfl
  have byte (n : Nat) : (put8 n).length = 1 := rfl
  have word (n : Nat) : (put32 n).length = 4 := rfl
  simp only [putResult, List.length_append, putCapture_length, putResultLine_length, platen, byte, word]

theorem sent_length (rs : List ResultRecord) (first : Nat) : ((rs.drop first).take 7).length = min 7 (rs.length - first) := by
  rw [List.length_take, List.length_drop]

/-- Settles O10: each read answers the view it names, and each view is laid out field by field. -/
theorem readsChangeNothing : Obligations.ReadsChangeNothing := by
  refine ⟨⟨?listRead, ?listReadEnd, fun s q o => ⟨exec_stationRead o, exec_lineRead o⟩, ?resultRead, ?padRead, ?qualRead⟩,
    ?headRead, ?headBody, ?qualBody, ⟨?numbers, ?optional, rfl⟩, ⟨?spray, ?valve⟩, ⟨?station, ?carrier, ?awaited⟩,
    ⟨?line, ?nozzle, ?names, ?bool⟩, ?result, ⟨?pad, ?disk, ?conditioner⟩, ?record, rfl, rfl, rfl⟩
  case listRead => exact fun s b h r o len head at_ => exec_listRead o len head at_
  case listReadEnd => exact fun s b h o len head beyond => exec_listRead_outOfRange o len head beyond
  case resultRead =>
    intro s q b h o len head room
    rw [exec_resultRead o len head room, State.resultRead, show Config.resultsPerRead = 7 from rfl, sent_length]
  case padRead => exact fun s q b p o len platen => exec_padRead o len platen
  case qualRead => exact fun s b p o len platen => exec_qualRead o len platen
  case headRead =>
    intro s q b h o len head
    rw [exec_headRead o len head]
    refine ⟨fun kept => ?_, fun drawn => ?_⟩
    · rw [kept]
      rfl
    · rw [drawn]
      rfl
  case headBody =>
    intro s h q phases
    refine ⟨?body, fun w current => ?step, fun k cs x front w tr busy stack above => ?saved, fun other saved =>
      ⟨fun l lost => ?lost, fun none => ?none⟩⟩
    case body =>
      refine append_congr (append_congr (append_congr (append_congr (append_congr (append_congr (append_congr (append_congr
        (append_congr (append_congr (append_congr (append_congr ?state rfl) rfl) ?activity) rfl) ?mark) rfl) rfl) rfl)
        ?claim) rfl) rfl) rfl
      case state =>
        cases q.state with
        | closing e => rcases e with - | (_ | _ | _ | _) <;> rfl
        | halted r e => rcases r with _ | _ | _ | (_ | _ | _ | _) <;> rfl
        | _ => rfl
      case activity =>
        rcases q.activity with - | (w | ⟨k, cs, x⟩)
        · rfl
        · rfl
        · cases k <;> rfl
      case mark => cases q.lost <;> rfl
      case claim =>
        rcases q.claim with - | ⟨n, stopped, report⟩
        · rfl
        · cases report <;> rfl
    case step =>
      rw [State.stepShown_step current]
      simp only [Phase.code_eq]
      rfl
    case saved =>
      rw [State.stepShown_saved busy stack above]
      simp only [Phase.code_eq]
      rfl
    case lost =>
      rw [State.stepShown_lost other saved, lost]
      exact ⟨rfl, rfl⟩
    case none =>
      rw [State.stepShown_lost other saved, none]
  case qualBody =>
    intro s p q
    refine append_congr (append_congr (append_congr (append_congr (append_congr (append_congr (append_congr (append_congr
      (append_congr (append_congr (append_congr ?state rfl) rfl) ?kind) rfl) rfl) rfl) rfl) rfl) rfl) rfl) rfl
    case state => cases q.state <;> rfl
    case kind => rcases q.lastKind with - | (_ | _ | _) <;> rfl
  case numbers => exact fun n => ⟨rfl, rfl, put32_eq n⟩
  case optional => exact fun n b => ⟨rfl, rfl⟩
  case spray => exact State.spray_iff
  case valve =>
    intro s p
    simp only [State.rinseValve_iff, Working.rinsing_iff]
    grind
  case station =>
    intro k
    rw [putStation, putList, flatten_put8, List.length_map, ← List.append_assoc]
    refine append_congr (append_congr (append_congr ?_ ?_) rfl) rfl
    · rcases k.holder with - | (g | -) <;> rfl
    · cases k.inService <;> rfl
  case carrier =>
    intro s h
    refine append_congr (append_congr ?_ rfl) ?_
    · rcases (s.carrier h).position with - | d | ⟨o, d, _ | _ | _⟩ <;> rfl
    · cases s.awaited h <;> rfl
  case awaited => exact fun s h => ⟨fun d => State.awaited_mem, State.awaited_none⟩
  case line =>
    intro k
    rw [putLine, putList, flatten_put8, List.length_map, ← List.append_assoc]
    refine append_congr (append_congr (append_congr (append_congr (append_congr ?state rfl) ?ready) ?timer) rfl) rfl
    case state =>
      obtain ⟨cls, state, -, -, -⟩ := k
      have zero : put16 0 = [0, 0] := rfl
      cases state with
      | bound n h f => cases cls <;> rfl
      | _ =>
        simp only [Line.flow, zero]
        cases cls <;> rfl
    case ready => cases k.supplyReady <;> rfl
    case timer => rcases k.state with - | - | - | (- | n) <;> rfl
  case nozzle =>
    intro s n
    refine append_congr (append_congr (append_congr (append_congr ?_ ?_) ?_) ?_) rfl
    · rw [State.selector]
      cases s.boundLine n with
      | some l => rfl
      | none => cases s.rinseValve n <;> rfl
    · cases s.rinseValve n <;> rfl
    · cases s.boundLine n <;> rfl
    · cases s.awaitedLine n <;> rfl
  case names =>
    exact fun s n => ⟨fun l => State.boundLine_bound, State.boundLine_none, fun l => State.awaitedLine_mem, State.awaitedLine_none⟩
  case bool => rintro (_ | _) <;> rfl
  case result =>
    refine fun r => ⟨putResult_length r, append_congr (append_congr (append_congr (append_congr (append_congr (append_congr
      (append_congr (append_congr (append_congr (append_congr rfl ?_) rfl) rfl) rfl) ?_) rfl) rfl) rfl) ?_) ?_⟩
    · cases r.outcome <;> rfl
    · cases r.capture <;> rfl
    · cases r.platen <;> rfl
    · cases r.line <;> rfl
  case pad =>
    refine fun k => append_congr (append_congr (append_congr (append_congr (append_congr (append_congr (append_congr
      (append_congr (append_congr (append_congr (append_congr rfl ?_) rfl) rfl) rfl) rfl) rfl) rfl) rfl) rfl) rfl) ?_
    · cases k.state <;> rfl
    · cases k.polishMark <;> rfl
  case disk =>
    refine fun k => append_congr (append_congr (append_congr rfl ?_) rfl) rfl
    cases k.state <;> rfl
  case conditioner =>
    intro c mode motion head
    refine append_congr (append_congr (append_congr (append_congr (append_congr (append_congr ?arm ?direction) rfl) ?outer)
      ?head) ?run) rfl
    case arm =>
      rcases c.arm with - | m | m | - | ⟨m, x⟩
      · rfl
      · cases m <;> rfl
      · cases m <;> rfl
      · rfl
      · cases m <;> cases x <;> rfl
    case direction => cases c.direction <;> rfl
    case outer => cases c.outer <;> rfl
    case head =>
      rcases c.arm with - | m | m | - | ⟨m, x⟩
      · rfl
      · cases m <;> rfl
      · cases m <;> rfl
      · rfl
      · cases m <;> rfl
    case run => cases c.runHeld <;> rfl
  case record =>
    intro r
    refine append_congr (append_congr (append_congr ?_ ?_) ?_) ?_
    · cases r.kind <;> rfl
    · rcases r.guard with - | ⟨flag, sense⟩
      · rfl
      · cases flag <;> cases sense <;> rfl
    · rcases r.action with - | ⟨flag, value⟩
      · rfl
      · cases flag <;> cases value <;> rfl
    · cases r.kind with
      | move d => rfl
      | dwell n => rfl
      | polish k =>
        refine append_congr (append_congr (append_congr (append_congr (append_congr (append_congr (append_congr
          (append_congr (append_congr (append_congr (append_congr (append_congr (append_congr (append_congr
          (append_congr (append_congr ?_ rfl) ?_) rfl) rfl) rfl) rfl) ?_) rfl) rfl) rfl) rfl) rfl) rfl) rfl)
          rfl) ?_
        · cases k.clock <;> rfl
        · cases k.termination <;> rfl
        · cases k.line <;> rfl
        · cases k.inSitu <;> rfl

end Sys2Proof.Machine
end

section
/-!
PROOFS. What the heads of a cascade can write. `Acts W D s t` says that t is made from s by the heads in W, which may ask for the
stations in D, together with the POLISH heads that a line is handed on to (R82, R83): each head writes its own sequencer, zones
and carrier, leaves and takes stations, gives lines back and takes them, and stows or deploys its own in-situ sweep.
-/
namespace Sys2Proof.Machine

/-- The parts of a timebase that a head does not write: configuration, angle, drive and stall (R49). -/
structure DriveKept (a b : Timebase) : Prop extends BaseKept a b where
  speed : b.speed = a.speed
  stallTimer : b.stallTimer = a.stallTimer
  stalled : b.stalled = a.stalled

inductive Acts : (HeadId → Prop) → (StationId → Prop) → State → State → Prop
  | refl {W : HeadId → Prop} {D : StationId → Prop} (s : State) : Acts W D s s
  | trans {W : HeadId → Prop} {D : StationId → Prop} {s t u : State} : Acts W D s t → Acts W D t u → Acts W D s u
  | seq {W : HeadId → Prop} {D : StationId → Prop} {s : State} {j : HeadId} (w : W j) (x : Sequencer) : Acts W D s (s.setSeq j x)
  | zone {W : HeadId → Prop} {D : StationId → Prop} {s : State} {j : HeadId} (w : W j) (x : ZoneMonitor) :
      Acts W D s (s.setZone j x)
  | carrier {W : HeadId → Prop} {D : StationId → Prop} {s : State} {j : HeadId} (w : W j) (x : Carrier)
      (place : ∀ d, x.position = .stands d → (s.carrier j).position = .stands d) : Acts W D s (s.setCarrier j x)
  | port {W : HeadId → Prop} {D : StationId → Prop} {s : State} (q : Port) (x : PortUnit) : Acts W D s (s.setPort q x)
  | qual {W : HeadId → Prop} {D : StationId → Prop} {s : State} (p : PlatenId) (x : Qualifier) : Acts W D s (s.setQual p x)
  | base {W : HeadId → Prop} {D : StationId → Prop} {s : State} (p : PlatenId) (x : Timebase) (kept : DriveKept (s.base p) x) :
      Acts W D s (s.setBase p x)
  | speed {W : HeadId → Prop} {D : StationId → Prop} {s : State} (p : PlatenId) : Acts W D s (s.refreshSpeed p)
  | outer {W : HeadId → Prop} {D : StationId → Prop} {s : State} (p : PlatenId) : Acts W D s (s.refreshOuter p)
  | stow {W : HeadId → Prop} {D : StationId → Prop} {s : State} {j : HeadId} (p : PlatenId)
      (mode : (s.cond p).arm.mode = some (.inSitu j)) : Acts W D s (s.setCond p ((s.cond p).stow (s.base p).config))
  | sweep {W : HeadId → Prop} {D : StationId → Prop} {s : State} {j : HeadId} {p : PlatenId}
      (stands : (s.carrier j).position = .stands (.platen p)) :
      Acts W D s (s.setCond p ((s.cond p).beginSweep (s.base p).config (.inSitu j)))
  | leave {W : HeadId → Prop} {D : StationId → Prop} {s : State} {j : HeadId} (w : W j) : Acts W D s (s.leaveWaits j)
  | take {W : HeadId → Prop} {D : StationId → Prop} {s : State} {d : StationId} (j : HeadId) (asked : D d)
      (free : (s.station d).holder = none) (unowed : s.keptForRun d = false) :
      Acts W D s (s.setStation d { s.station d with holder := some (.head j) })
  | join {W : HeadId → Prop} {D : StationId → Prop} {s : State} {d : StationId} (j : HeadId) (asked : D d) :
      Acts W D s (s.setStation d ((s.station d).join j))
  | lines {W : HeadId → Prop} {D : StationId → Prop} {s : State} (f : Line → Line)
      (shut : ∀ k, k.state = .disabled → (f k).state = .disabled) (fewer : ∀ k, (f k).wait ⊆ k.wait)
      (faults : ∀ k n, (f k).state = .faulted n → k.state = .faulted n) :
      Acts W D s { s with lines := s.lines.map f }
  | line {W : HeadId → Prop} {D : StationId → Prop} {s : State} (l : LineId) (x : Line)
      (enabled : (s.line l).state ≠ .disabled) (faults : ∀ n, x.state = .faulted n → (s.line l).state = .faulted n) :
      Acts W D s (s.setLine l x)
  | called {W : HeadId → Prop} {D : StationId → Prop} {s t : State} {g : HeadId} (polishes : (s.polishing g).isSome = true)
      (acts : Acts (fun j => W j ∨ j = g) D s t) : Acts W D s t

section
variable {W : HeadId → Prop} {D : StationId → Prop} {h : HeadId}

theorem Acts.foldl {α : Type} {f : State → α → State} (k : ∀ s x, Acts W D s (f s x)) :
    ∀ (xs : List α) (s : State), Acts W D s (xs.foldl f s)
  | [], s => .refl s
  | x :: xs, s => (k s x).trans (Acts.foldl k xs (f s x))

/-! ## Blocks -/

section
variable (s : State)

theorem Acts.raise (q : Port) (n : Notice) : Acts W D s (s.raise q n) := .port ..

theorem Acts.closeWatch (p : PlatenId) : Acts W D s (s.closeWatch p) := by
  unfold State.closeWatch
  split
  · exact .refl s
  · exact Acts.trans (t := s.setQual p { s.qual p with state := .idle }) (.qual ..) (.raise ..)

theorem Acts.closeWatchOf (h : HeadId) : Acts W D s (s.closeWatchOf h) :=
  .foldl (fun t p => by
    split
    · exact .closeWatch ..
    · exact .refl t) _ _

theorem Acts.armWatch (p : PlatenId) (h : HeadId) (n : Nat) : Acts W D s (s.armWatch p h n) :=
  Acts.trans (.qual p _) (.raise ..)

theorem Acts.disown (h : HeadId) : Acts W D s (s.disown h) := by
  unfold State.disown
  cases s.ownedPlaten h with
  | none => exact .refl s
  | some p => exact .base p _ ⟨⟨rfl, rfl, rfl, rfl⟩, rfl, rfl, rfl⟩

theorem Acts.own (p : PlatenId) (h : HeadId) (a l : Nat) (c : StepClock) :
    Acts W D s (s.modBase p fun b => b.own h a l c) := .base p _ ⟨⟨rfl, rfl, rfl, rfl⟩, rfl, rfl, rfl⟩

theorem Acts.withdraw (h : HeadId) : Acts W D s (s.withdraw h) :=
  .foldl (fun t p => by
    rw [State.modCond_eq, Conditioner.withdraw]
    split
    · next mode => exact .stow p mode
    · rw [State.setCond_cond]
      exact .refl t) _ _

theorem Acts.dropLine (h : HeadId) : Acts W D s (s.dropLine h) := by
  have released : Acts W D s { s with lines := s.lines.map fun k => k.release h } := by
    refine .lines _ (fun k shut => ?_) (fun k => ?_) fun k n faulted => ?_
    · rw [Line.release, if_neg (by simp [Line.serves, shut])]
      exact shut
    · rw [Line.release]
      split <;> exact List.Subset.refl _
    · rw [Line.release] at faulted
      split at faulted
      · cases faulted
      · exact faulted
  unfold State.dropLine
  cases s.platenOf h with
  | none => exact released
  | some n =>
    exact Acts.trans (t := { s with lines := s.lines.map fun k => k.release h }) released
      (.lines (fun k => k.leave n) (fun _ shut => shut) (fun k => by
        rw [Line.leave]
        exact List.filter_subset_self _) fun _ _ faulted => faulted)

theorem Acts.keepLine (h : HeadId) (f : Nat) : Acts W D s (s.keepLine h f) := by
  refine .lines _ (fun k shut => ?_) (fun k => ?_) fun k n faulted => ?_
  · rw [Line.keep, shut]
    exact shut
  · unfold Line.keep
    grind
  · unfold Line.keep at faulted
    grind

theorem Acts.suspendStep (h : HeadId) : Acts W D s (s.suspendStep h) :=
  (((Acts.disown ..).trans (.closeWatchOf ..)).trans (.withdraw ..)).trans (.dropLine ..)

theorem ArmState.inSitu_of_moving {a : ArmState} (moving : a.inSituMoving = true) : ∃ j, a.mode = some (.inSitu j) := by
  unfold ArmState.inSituMoving at moving
  split at moving
  · exact ⟨_, rfl⟩
  · exact ⟨_, rfl⟩
  · cases moving

theorem Acts.inSituRequest {p : PlatenId} (stands : (s.carrier h).position = .stands (.platen p)) :
    Acts W D s (s.inSituRequest h p) := by
  unfold State.inSituRequest
  split
  · exact .sweep stands
  · split
    · next moving =>
      obtain ⟨j, mode⟩ := ArmState.inSitu_of_moving moving
      exact .stow p mode
    · exact .refl s

theorem Line.state_join (k : Line) (n : NozzleId) : (k.join n).state = k.state := by
  unfold Line.join
  split <;> rfl

theorem Acts.acquireLine (l : LineId) (n : NozzleId) (h : HeadId) (f : Nat) (r : Bool) :
    Acts W D s (s.acquireLine l n h f r).1 := by
  have joined (enabled : (s.line l).state ≠ .disabled) :
      Acts W D s (((s.modLine l fun k => k.join n)).raise .recipe (.lineWait h)) :=
    (Acts.line l _ enabled fun x faulted => by rw [← Line.state_join]; exact faulted).trans (.raise ..)
  unfold State.acquireLine
  dsimp only
  split
  · exact .refl s
  · cases state : (s.line l).state with
    | disabled => exact .refl s
    | idle =>
      dsimp only
      split
      · exact .line l _ (by rw [state]; simp) nofun
      · exact joined (by rw [state]; simp)
    | faulted x =>
      dsimp only
      split
      · exact .refl s
      · exact joined (by rw [state]; simp)
    | bound m g f => exact joined (by rw [state]; simp)

theorem Acts.refreshHere (h : HeadId) : Acts W D s (s.refreshHere h) := by
  unfold State.refreshHere
  cases s.platenOf h with
  | none => exact .refl s
  | some p => exact .speed p

end

/-! ## A head's own blocks -/

section
variable (w : W h) (s : State)
include w

theorem Acts.modSeq (f : Sequencer → Sequencer) : Acts W D s (s.modSeq h f) := .seq w _
theorem Acts.setWorking (x : Working) : Acts W D s (s.setWorking h x) := .seq w _
theorem Acts.setHead (x : HeadState) : Acts W D s (s.setHead h x) := .seq w _
theorem Acts.setPark (x : ParkProgress) : Acts W D s (s.setPark h x) := .seq w _
theorem Acts.applySet (x : ZoneSet) : Acts W D s (s.applySet h x) := .zone w _

theorem Acts.modWorking (f : Working → Working) : Acts W D s (s.modWorking h f) := by
  unfold State.modWorking
  cases s.current h with
  | none => exact .refl s
  | some x => exact .setWorking w ..

theorem Acts.liftUp : Acts W D s (s.liftUp h) := by
  unfold State.liftUp
  split
  · dsimp only
    cases s.platenOf h with
    | none => exact .zone w _
    | some p => exact Acts.trans (.zone w _) (.outer p)
  · exact .refl s

theorem Acts.touchDown (p : PlatenId) (n : Nat) : Acts W D s (s.touchDown h p n) := by
  unfold State.touchDown
  split
  · exact .refl s
  · exact Acts.trans (.zone w _) (.outer p)

theorem Acts.haltMove : Acts W D s (s.haltMove h) := by
  refine .carrier w _ fun d stands => ?_
  unfold Carrier.halt at stands
  split at stands
  · cases stands
  · exact stands

theorem Acts.sendMove (o d : StationId) : Acts W D s (s.sendMove h o d) := by
  refine .carrier w _ fun e stands => ?_
  unfold Carrier.send at stands
  split at stands <;> cases stands

theorem Acts.forwardMove : Acts W D s (s.forwardMove h) := by
  unfold State.forwardMove
  split
  · exact .sendMove w ..
  · exact .sendMove w ..
  · exact .refl s

theorem Acts.reverseMove (o d : StationId) : Acts W D s (s.reverseMove h o d) := (Acts.haltMove w s).trans (.sendMove w ..)

theorem Acts.acquire {d : StationId} (asked : D d) : Acts W D s (s.acquire h d).1 := by
  unfold State.acquire
  split
  · exact .refl s
  · split
    · exact .forwardMove w s
    · split
      · exact .reverseMove w ..
      · exact .refl s
  · split
    · exact .refl s
    · split
      · exact .refl s
      · cases free : (s.station d).holder with
        | none =>
          dsimp only
          split
          · exact .refl s
          · next unowed => exact (Acts.take h asked free (Bool.not_eq_true _ ▸ unowed)).trans (.sendMove w ..)
        | some x =>
          dsimp only
          split
          · exact .refl s
          · split
            · exact .refl s
            · exact .join h asked

theorem Acts.haltResumable (r : HaltReason) : Acts W D s (s.haltResumable h r) :=
  (((Acts.leave w).trans (.liftUp w _)).trans (.modSeq w ..)).trans (.raise ..)

theorem Acts.haltRequest (r : HaltReason) : Acts W D s (s.haltRequest h r) := (Acts.modWorking w s _).trans (.haltResumable w ..)

theorem Acts.enterPolish : Acts W D s (s.enterPolish h) := by
  unfold State.enterPolish
  split
  · exact .refl s
  · dsimp only
    have pressed (x : ZoneSet) (v : Working) : Acts W D s ((s.applySet h x).setWorking h v) :=
      (Acts.applySet w s x).trans (.setWorking w ..)
    repeat' split
    · exact pressed ..
    · exact (pressed ..).trans (.armWatch ..)
    · exact pressed ..

theorem Acts.enterGap : Acts W D s (s.enterGap h).1 := by
  unfold State.enterGap
  split
  · exact .refl s
  · dsimp only
    repeat' split
    · exact ((Acts.setWorking w s _).trans (.applySet w ..)).trans (.enterPolish w _)
    · exact (Acts.setWorking w s _).trans (.applySet w ..)
    · exact ((Acts.setWorking w s _).trans (.touchDown w ..)).trans (.enterPolish w _)
    · exact (Acts.setWorking w s _).trans (.touchDown w ..)

theorem Acts.enterKeepout : Acts W D s (s.enterKeepout h).1 := by
  unfold State.enterKeepout
  split
  · exact .refl s
  · dsimp only
    split
    · exact ((Acts.setWorking w s _).trans (.outer _)).trans (.enterGap w _)
    · exact (Acts.setWorking w s _).trans (.outer _)

theorem Acts.pushContext (c : Context) : Acts W D s (s.pushContext h c) := by
  rw [State.pushContext_eq]
  split
  · exact (Acts.seq w _).trans (.raise ..)
  · exact .seq w _

theorem Acts.parkAsk (rinse : D .rinse) : Acts W D s (s.parkAsk h) := by
  have asked := ((Acts.liftUp w s).trans (.acquire w _ rinse)).trans (.setPark w _ ((s.liftUp h).acquire h .rinse).2.park)
  unfold State.parkAsk
  dsimp only
  split
  · exact asked.trans (.raise ..)
  · exact asked

theorem Acts.enterClass {k : Intervention} (asked : k = .park → D .rinse) : Acts W D s (s.enterClass h k) := by
  cases k with
  | rinse => exact .applySet w ..
  | lift => exact .liftUp w s
  | park => exact .parkAsk w s (asked rfl)
  | trip => exact .liftUp w s

theorem Acts.beginIntervention (a : Activity) {c : Cause} (asked : c.cls = .park → D .rinse) :
    Acts W D s (s.beginIntervention h a c) :=
  (((((((Acts.suspendStep s h).trans (.leave w)).trans (.haltMove w _)).trans (.pushContext w ..)).trans
    (.modSeq w ..)).trans (.enterClass w _ asked)).trans (.modSeq w ..)).trans (.raise ..)

theorem Acts.takeCause {c : Cause} (asked : c.cls = .park → D .rinse) : Acts W D s (s.takeCause h c) := by
  unfold State.takeCause
  split
  · exact .refl s
  · split
    · exact .refl s
    · split
      · exact .beginIntervention w _ _ asked
      · split
        · exact .modSeq w ..
        · exact .refl s

theorem Acts.takeCauses {cs : List Cause} (lift : ∀ c ∈ cs, c.cls = .lift) :
    Acts W D s (cs.foldl (fun t c => t.takeCause h c) s) := by
  induction cs generalizing s with
  | nil => exact .refl s
  | cons c rest ih =>
    refine (Acts.takeCause w s fun park => ?_).trans (ih _ fun k mem => lift k (List.mem_cons_of_mem _ mem))
    rw [lift c List.mem_cons_self] at park
    cases park

theorem Acts.toKeepout : Acts W D s (s.toKeepout h) :=
  (Acts.enterKeepout w s).trans (.takeCauses w _ fun _ => State.lift_enterKeepout)

end

/-! ## Handing lines on -/

theorem Acts.handOn (l : LineId) (n : Nat) (s : State) : Acts W D s (s.handOn l n) := by
  induction n generalizing s with
  | zero => exact .refl s
  | succ n ih =>
    unfold State.handOn
    split
    · next p rest _ idle _ =>
      have enabled : (s.line l).state ≠ .disabled := by rw [idle]; simp
      have dropped : Acts W D s (s.modLine l fun k => { k with wait := rest }) :=
        .line l _ enabled fun _ faulted => faulted
      dsimp only
      split
      · exact dropped.trans (ih _)
      · split
        · exact dropped.trans (ih _)
        · next g _ _ _ r _ polishes =>
          have enabled' : ((s.modLine l fun k => { k with wait := rest }).line l).state ≠ .disabled := by
            rw [State.modLine_eq, State.line_setLine_self]
            exact enabled
          have bound {V : HeadId → Prop} : Acts V D (s.modLine l fun k => { k with wait := rest })
              ((s.modLine l fun k => { k with wait := rest }).modLine l fun k => { k with state := .bound p g r.flow }) :=
            .line l _ enabled' nofun
          refine (dropped.trans (.called (g := g) ?_ (bound.trans (.toKeepout (.inr rfl) _)))).trans (ih _)
          rw [polishes]
          rfl
    · exact .refl s

theorem Acts.handOnAll (s : State) : Acts W D s s.handOnAll := Acts.foldl (fun t l => Acts.handOn l _ t) lineIds s

/-! ## The Head Sequencer -/

theorem State.stands_of_platenOf {s : State} {h : HeadId} {p : PlatenId} (on : s.platenOf h = some p) :
    (s.carrier h).position = .stands (.platen p) := by
  unfold State.platenOf at on
  grind

theorem State.stands_of_polishing {s : State} {h : HeadId} {x : Working} {r : PolishRecord} {p : PlatenId}
    (polishes : s.polishing h = some (x, r, p)) : (s.carrier h).position = .stands (.platen p) := by
  unfold State.polishing at polishes
  split at polishes
  · next v n _ on =>
    split at polishes
    · rw [State.stands_of_platenOf on]
      cases polishes
      rfl
    · cases polishes
  · cases polishes

section
variable (w : W h) (s : State)
include w

theorem Acts.raiseCause {c : Cause} (asked : c.cls = .park → D .rinse) : Acts W D s (s.raiseCause h c) :=
  (Acts.takeCause w s asked).trans (.handOnAll _)

theorem Acts.askInSitu {p : PlatenId} (stands : (s.carrier h).position = .stands (.platen p)) :
    Acts W D s (s.askInSitu h p) := by
  refine (Acts.modWorking w s _).trans (.inSituRequest _ ?_)
  unfold State.modWorking
  cases s.current h <;> exact stands

theorem Acts.lineAnswered (l : LineId) (a : LineAnswer) : Acts W D s (s.lineAnswered h l a) := by
  cases a with
  | bound => exact .toKeepout w s
  | queued => exact .liftUp w s
  | faulted => exact .takeCause w s fun park => by cases park
  | unavailable => exact (Acts.withdraw s h).trans (.haltResumable w ..)

theorem Acts.enterAcquire : Acts W D s (s.enterAcquire h) := by
  unfold State.enterAcquire
  split
  · exact .refl s
  · next x r p polishes =>
    have stands := State.stands_of_polishing polishes
    dsimp only
    have asked : Acts W D s (if r.inSitu = true then
        (s.setWorking h { x with phase := some .acquireLine, resume := none }).askInSitu h p
        else s.setWorking h { x with phase := some .acquireLine, resume := none }) := by
      split
      · exact (Acts.setWorking w s _).trans (.askInSitu w _ stands)
      · exact .setWorking w ..
    split
    · exact (asked.trans (.toKeepout w _)).trans (.handOnAll _)
    · exact (asked.trans (.toKeepout w _)).trans (.handOnAll _)
    · exact ((asked.trans (.acquireLine ..)).trans (.lineAnswered w ..)).trans (.handOnAll _)

theorem Acts.endRun (o : StepOutcome) : Acts W D s (s.endRun h o) :=
  (((Acts.seq w _).trans (.suspendStep ..)).trans (.leave w)).trans (.liftUp w _)

theorem Acts.takeEnd (e : EndState) : Acts W D s (s.takeEnd h e) := by
  cases e with
  | idle =>
    refine Acts.trans (t := s.setHead h .idle) (.setHead w ..) ?_
    rw [State.takeEnd, State.enterIdle, State.idleNotices]
    split
    · exact (Acts.raise ..).trans (.raise ..)
    · exact .raise ..
  | halted r => exact (Acts.setHead w s _).trans (.raise ..)

theorem Acts.close (e : EndState) : Acts W D s (s.close h e) := by
  unfold State.close
  split
  · exact (Acts.setHead w s _).trans (.forwardMove w _)
  · exact .takeEnd w ..

theorem Acts.finalHalt (r : FinalReason) : Acts W D s (s.finalHalt h r) :=
  ((Acts.endRun w s _).trans (.close w ..)).trans (.handOnAll _)

theorem Acts.leaveBehind (p : Option StepLine) (n : Option StepRecord) : Acts W D s (s.leaveBehind h p n) := by
  unfold State.leaveBehind
  split
  · exact .refl s
  · dsimp only
    split
    · refine Acts.trans ?_ (.handOnAll _)
      have kept (b : Bool) (x : ZoneSet) (f : Nat) :
          Acts W D s (if b then (s.applySet h x).keepLine h f else (s.applySet h x).dropLine h) := by
        cases b
        · exact (Acts.applySet w s x).trans (.dropLine ..)
        · exact (Acts.applySet w s x).trans (.keepLine ..)
      repeat' split
      · exact (Acts.applySet w s _).trans (.keepLine ..)
      · exact (Acts.applySet w s _).trans (.dropLine ..)
      · exact ((Acts.applySet w s _).trans (.keepLine ..)).trans (.withdraw ..)
      · exact ((Acts.applySet w s _).trans (.dropLine ..)).trans (.withdraw ..)
    · exact (((Acts.liftUp w s).trans (.withdraw ..)).trans (.dropLine ..)).trans (.handOnAll _)

theorem Acts.moveAnswered (a : Answer) : Acts W D s (s.moveAnswered h a) := by
  cases a with
  | alreadyHeld => exact .refl s
  | granted | forward | reversed | queued => exact .modWorking w ..
  | inTransit => exact (Acts.modWorking w s _).trans (.forwardMove w _)
  | cycle => exact (Acts.raise ..).trans (.haltRequest w ..)
  | unavailable => exact .haltRequest w ..

theorem Acts.polishChecks (r : PolishRecord) : Acts W D s (s.polishChecks h r) := by
  unfold State.polishChecks
  split
  · exact .finalHalt w ..
  · dsimp only
    split
    · exact ((Acts.modWorking w s _).trans (.own ..)).trans (.enterAcquire w _)
    · exact (Acts.modWorking w s _).trans (.finalHalt w ..)

theorem Acts.closeStep (o : StepOutcome) : Acts W D s (s.closeStep h o) := by
  unfold State.closeStep
  split
  · exact .refl s
  · exact ((Acts.disown ..).trans (.closeWatchOf ..)).trans (.modSeq w ..)

theorem Acts.advance (rs : List StepRecord) (asked : ∀ x ∈ rs, ∀ d, x.kind = .move d → D d) (i : Nat) (p : Option StepLine) :
    Acts W D s (State.advance h rs i p s) := by
  induction rs generalizing s i p with
  | nil => exact (Acts.leaveBehind w s ..).trans (.takeEnd w _ .idle)
  | cons rec rest ih =>
    have later : ∀ x ∈ rest, ∀ d, x.kind = .move d → D d := fun x mem => asked x (List.mem_cons_of_mem _ mem)
    unfold State.advance
    split
    · exact (Acts.modSeq w s _).trans (ih _ later ..)
    · dsimp only
      have taken : Acts W D s ((s.leaveBehind h p (some rec)).setWorking h
          (Working.fresh i rec (s.stationOf h) s.beat.counter (rec.continues p))) :=
        (Acts.leaveBehind w s ..).trans (.setWorking w ..)
      split
      · exact taken.trans (.refreshHere ..)
      · exact taken.trans (.polishChecks w ..)
      · next d kind =>
        have answered := (taken.trans (.refreshHere _ h)).trans (.acquire w _ (asked rec List.mem_cons_self d kind))
        split
        · exact (answered.trans (.closeStep w ..)).trans (ih _ later ..)
        · exact answered.trans (.moveAnswered w ..)

theorem Acts.finishStep (asked : ∀ x ∈ (s.seq h).steps, ∀ d, x.kind = .move d → D d) (o : StepOutcome) :
    Acts W D s (s.finishStep h o) := by
  unfold State.finishStep
  split
  · exact .refl s
  · exact (Acts.closeStep w s o).trans (.advance w _ _ (fun x mem => asked x (List.mem_of_mem_drop mem)) _ _)

end

/-! ## Resuming, where every station may be asked for -/

section
variable (w : W h) (s : State)
include w

theorem Acts.arrived : Acts W (fun _ => True) s (s.arrived h) := by
  unfold State.arrived
  split
  · exact .refl s
  · split
    · exact .finishStep w _ (fun _ _ _ _ => trivial) _
    · exact .setWorking w ..
    · split
      · split
        · exact (Acts.own ..).trans (.enterAcquire w _)
        · exact .refl s
      · exact .finalHalt w ..

theorem Acts.askStation : Acts W (fun _ => True) s (s.askStation h) := by
  unfold State.askStation
  split
  · exact .refl s
  · dsimp only
    split
    · exact (Acts.acquire w s trivial).trans (.arrived w _)
    · exact (Acts.acquire w s trivial).trans (.moveAnswered w ..)

theorem Acts.resumeStep (x : Working) : Acts W (fun _ => True) s (s.resumeStep h x) :=
  ((Acts.liftUp w s).trans (.setWorking w ..)).trans (.askStation w _)

theorem Acts.resumeIntervention (k : Intervention) (cs : List Cause) :
    Acts W (fun _ => True) s (s.resumeIntervention h k cs) := by
  unfold State.resumeIntervention
  dsimp only
  cases k with
  | park => exact (Acts.modSeq w s _).trans (.parkAsk w _ trivial)
  | rinse | lift | trip => exact .modSeq w ..

theorem Acts.unwind (cs : List Context) : Acts W (fun _ => True) s (State.unwind h cs s) := by
  induction cs generalizing s with
  | nil => exact .finalHalt w ..
  | cons c rest ih =>
    unfold State.unwind
    dsimp only
    split
    · exact (Acts.modSeq w s _).trans (.resumeStep w ..)
    · exact (Acts.modSeq w s _).trans (ih _)
    · exact (Acts.modSeq w s _).trans (.resumeIntervention w ..)

theorem Acts.endIntervention : Acts W (fun _ => True) s (s.endIntervention h) :=
  ((Acts.leave w).trans (.modSeq w ..)).trans (.unwind w ..)

theorem Acts.endIfClear : Acts W (fun _ => True) s (s.endIfClear h) := by
  unfold State.endIfClear
  split
  · exact .endIntervention w s
  · exact .refl s

theorem Acts.recoverHead (l : LineId) : Acts W (fun _ => True) s (s.recoverHead l h) :=
  (Acts.modSeq w s _).trans (.endIfClear w _)

theorem Acts.clearInterlock : Acts W (fun _ => True) s (s.clearInterlock h) := by
  unfold State.clearInterlock
  split
  · split
    · exact .endIntervention w s
    · exact .refl s
  · exact .refl s

end

end

end Sys2Proof.Machine
end

section
/-!
PROOFS. The handing on of lines and the touch-down: a line that is not idle, or has no waiter, is handed on to no one (R82,
R83), and a waiting step that takes its line goes by the arm into KEEPOUT_WAIT or DOWN into GAP (R33, R34, R67).
-/
namespace Sys2Proof.Machine

/-! ## Lines that are handed on to no one -/

section
variable {s : State} {l : LineId}

theorem State.handOn_still (still : (s.line l).state = .idle → (s.line l).wait = []) (n : Nat) : s.handOn l n = s := by
  cases n with
  | zero => rfl
  | succ n =>
    unfold State.handOn
    split
    · next idle wait =>
      rw [still idle] at wait
      cases wait
    · rfl

theorem State.handOn_stills {ks : List LineId} (still : ∀ k ∈ ks, (s.line k).state = .idle → (s.line k).wait = []) :
    ks.foldl (fun t k => t.handOn k (t.line k).wait.length) s = s := by
  induction ks with
  | nil => rfl
  | cons k ks ih =>
    rw [List.foldl_cons, State.handOn_still (still k List.mem_cons_self)]
    exact ih fun j mem => still j (List.mem_cons_of_mem _ mem)

theorem State.handOnAll_of_free (free : s.IdleLinesFree) : s.handOnAll = s := State.handOn_stills fun k _ => free k

theorem State.idleLinesFree_of_empty (empty : ∀ k, (s.line k).wait = []) : s.IdleLinesFree := fun k _ => empty k

/-- Where no other line can be handed on, and none can after it, the handing on is that of one line. -/
theorem State.handOnAll_alone (others : ∀ k, k ≠ l → (s.line k).state = .idle → (s.line k).wait = [])
    (after : (s.handOn l (s.line l).wait.length).IdleLinesFree) :
    s.handOnAll = s.handOn l (s.line l).wait.length := by
  obtain ⟨pre, post, split⟩ := List.append_of_mem (mem_lineIds l)
  have nodup : (pre ++ l :: post).Nodup := split ▸ (by decide : lineIds.Nodup)
  have new : l ∉ pre := fun mem => (List.nodup_append.1 nodup).2.2 l mem l List.mem_cons_self rfl
  have first : pre.foldl (fun t k => t.handOn k (t.line k).wait.length) s = s :=
    State.handOn_stills fun k mem => others k fun e => new (e ▸ mem)
  rw [State.handOnAll, split, List.foldl_append, first, List.foldl_cons]
  exact State.handOn_stills fun k _ => after k

end

/-! ## Touch-down -/

/-- The working record of a step that has entered GAP (R34). -/
def Working.inGap (w : Working) (r : PolishRecord) (lead : Nat) : Working :=
  { w with
    phase := some .gap
    gapRemaining := (effectiveGap r lead w.keptLine).1
    flags := { w.flags with gapExtended := w.flags.gapExtended || (effectiveGap r lead w.keptLine).2 } }

/-- The step waits for the arm (R33). -/
def Working.waitsForArm (w : Working) : Working := { w with phase := some .keepoutWait }

theorem Working.inGap_waitsForArm (w : Working) (r : PolishRecord) (lead : Nat) :
    w.waitsForArm.inGap r lead = w.inGap r lead := rfl

theorem effectiveGap_eq (r : PolishRecord) (lead : Nat) (kept : Bool) :
    effectiveGap r lead kept =
      if r.line = .none ∨ kept = true ∨ lead ≤ r.gap then (r.gap, false) else (lead, true) := by
  unfold effectiveGap
  cases r.line <;> cases kept <;> simp <;> grind

theorem effectiveGap_pos {r : PolishRecord} (pos : 0 < r.gap) (lead : Nat) (kept : Bool) :
    0 < (effectiveGap r lead kept).1 := by
  rw [effectiveGap_eq]
  split
  · exact pos
  · show 0 < lead
    omega

section
variable {s : State} {h : HeadId} {w : Working} {r : PolishRecord} {p : PlatenId}

theorem State.polishing_eq_some_iff :
    s.polishing h = some (w, r, p) ↔
      s.runningStep h = some w ∧ s.platenOf h = some p ∧ w.polish? = some r := by
  unfold State.polishing
  constructor
  · intro polishes
    split at polishes
    · next v n step on =>
      split at polishes
      · next k kind =>
        cases polishes
        exact ⟨step, on, kind⟩
      · cases polishes
    · cases polishes
  · rintro ⟨step, on, kind⟩
    rw [step, on]
    dsimp only
    rw [kind]

theorem State.runningStep_eq_some_iff :
    s.runningStep h = some w ↔ (s.seq h).state = .running ∧ (s.seq h).activity = some (.step w) := by
  unfold State.runningStep State.isRunning
  rw [← State.current_eq_some_iff]
  split <;> simp_all

theorem State.platenOf_eq_some_iff : s.platenOf h = some p ↔ (s.carrier h).position = .stands (.platen p) := by
  unfold State.platenOf
  grind

/-- A head polishes: it RUNS a POLISH step at the platen it stands on. -/
theorem State.polishing_iff :
    s.polishing h = some (w, r, p) ↔
      (s.seq h).state = .running ∧ (s.seq h).activity = some (.step w) ∧
        (s.carrier h).position = .stands (.platen p) ∧ w.record.kind = .polish r := by
  rw [State.polishing_eq_some_iff, State.runningStep_eq_some_iff, State.platenOf_eq_some_iff, Working.polish?_eq_some_iff,
    and_assoc]

theorem State.polishing_setWorking (polishes : s.polishing h = some (w, r, p)) {v : Working}
    (kind : v.record.kind = .polish r) : (s.setWorking h v).polishing h = some (v, r, p) := by
  obtain ⟨running, -, stands, -⟩ := State.polishing_iff.1 polishes
  refine State.polishing_iff.2 ⟨?_, ?_, stands, kind⟩
  · rw [State.setWorking, State.modSeq_eq, State.seq_setSeq_self]
    exact running
  · rw [State.setWorking, State.modSeq_eq, State.seq_setSeq_self]

theorem State.touchDownCauses_nil (moving : (s.base p).stalled = false) (forward : (s.base p).direction = .forward) :
    s.touchDownCauses p = [] := by
  simp [State.touchDownCauses, moving, forward]

/-- The head goes DOWN on the GAP set, its step in GAP (R34, R67). -/
def State.lowered (s : State) (h : HeadId) (p : PlatenId) (w : Working) (r : PolishRecord) : State :=
  (s.setWorking h (w.inGap r (s.base p).config.lead)).touchDown h p r.gapPressure

theorem State.enterGap_up (polishes : s.polishing h = some (w, r, p)) (up : s.isDown h = false)
    (still : s.touchDownCauses p = []) :
    s.enterGap h =
      (if (effectiveGap r (s.base p).config.lead w.keptLine).1 = 0 then (s.lowered h p w r).enterPolish h
        else s.lowered h p w r, []) := by
  unfold State.enterGap
  rw [polishes]
  dsimp only
  rw [up, if_neg Bool.false_ne_true, still]
  simp only [and_true]
  rfl

/-- The step enters KEEPOUT_WAIT (R33). -/
def State.armAwaited (s : State) (h : HeadId) (p : PlatenId) (w : Working) : State :=
  (s.setWorking h w.waitsForArm).refreshOuter p

theorem State.armPosition_refreshOuter (s : State) (p j : PlatenId) :
    ((s.refreshOuter p).cond j).position = (s.cond j).position := ((Cascade.refreshOuter s p).arm j).position

theorem State.enterKeepout_eq (polishes : s.polishing h = some (w, r, p)) (up : s.isDown h = false) :
    s.enterKeepout h =
      if (s.cond p).position ≤ (s.base p).config.keepOut then (s.armAwaited h p w).enterGap h
      else (s.armAwaited h p w, []) := by
  have arm : ((s.armAwaited h p w).cond p).position = (s.cond p).position := State.armPosition_refreshOuter ..
  have base : (s.armAwaited h p w).base p = s.base p := State.base_refreshOuter ..
  unfold State.enterKeepout
  rw [polishes]
  dsimp only
  rw [up]
  simp only [Bool.false_eq_true, false_or]
  rw [← arm, ← base]
  rfl

theorem State.aside_armAwaited (s : State) (h g : HeadId) (p : PlatenId) (w : Working) (ne : h ≠ g) :
    Aside g s (s.armAwaited h p w) := (Aside.setWorking s _ ne).trans (.refreshOuter ..)

theorem State.polishing_armAwaited (polishes : s.polishing h = some (w, r, p)) :
    (s.armAwaited h p w).polishing h = some (w.waitsForArm, r, p) := by
  rw [State.armAwaited, (Aside.refreshOuter (h := h) _ p).polishing]
  exact State.polishing_setWorking polishes (State.polishing_iff.1 polishes).2.2.2

theorem State.isDown_armAwaited (s : State) (h : HeadId) (p : PlatenId) (w : Working) (g : HeadId) :
    (s.armAwaited h p w).isDown g = s.isDown g :=
  (Aside.isDown (.refreshOuter _ p)).trans (State.isDown_setSeq ..)

theorem State.base_armAwaited (s : State) (h : HeadId) (p : PlatenId) (w : Working) (j : PlatenId) :
    (s.armAwaited h p w).base j = s.base j :=
  State.base_refreshOuter ..

end

/-! ## What the phases write -/

section
variable (s : State) (h : HeadId) (p : PlatenId)

theorem State.touchDown_writes (n : Nat) :
    ∃ z c k x, s.touchDown h p n = { s with zones := z, conds := c, disks := k, ports := x } := by
  unfold State.touchDown
  split
  · exact ⟨_, _, _, _, rfl⟩
  · obtain ⟨c, k, x, e⟩ := State.refreshOuter_writes (s.modZone h fun z =>
      { z with lift := .down (.gap n) (BandTimer.start z.inBand.allTrue) }) p
    exact ⟨_, c, k, x, e⟩

theorem State.enterPolish_writes :
    ∃ q z x y, s.enterPolish h = { s with seqs := q, zones := z, quals := x, ports := y } := by
  unfold State.enterPolish
  split
  · exact ⟨_, _, _, _, rfl⟩
  · dsimp only
    repeat' split
    all_goals exact ⟨_, _, _, _, rfl⟩

theorem State.enterGap_writes :
    ∃ q z x c k y, (s.enterGap h).1 =
      { s with seqs := q, zones := z, quals := x, conds := c, disks := k, ports := y } := by
  unfold State.enterGap
  split
  · exact ⟨_, _, _, _, _, _, rfl⟩
  · next w r p _ =>
    dsimp only
    split
    · split
      · obtain ⟨q, z, x, y, e⟩ := State.enterPolish_writes ((s.setWorking h
          (w.inGap r (s.base p).config.lead)).applySet h (.gap r.gapPressure)) h
        exact ⟨q, z, x, _, _, y, e⟩
      · exact ⟨_, _, _, _, _, _, rfl⟩
    · obtain ⟨z, c, k, y, touched⟩ := State.touchDown_writes (s.setWorking h (w.inGap r (s.base p).config.lead)) h p
        r.gapPressure
      split
      · obtain ⟨q, z', x, y', e⟩ := State.enterPolish_writes
          ((s.setWorking h (w.inGap r (s.base p).config.lead)).touchDown h p r.gapPressure) h
        refine ⟨q, z', x, c, k, y', e.trans ?_⟩
        rw [touched]
        rfl
      · exact ⟨_, z, _, c, k, y, touched⟩

theorem State.enterKeepout_writes :
    ∃ q z x c k y, (s.enterKeepout h).1 =
      { s with seqs := q, zones := z, quals := x, conds := c, disks := k, ports := y } := by
  unfold State.enterKeepout
  split
  · exact ⟨_, _, _, _, _, _, rfl⟩
  · next w _ p _ =>
    obtain ⟨c, k, y, awaited⟩ := State.refreshOuter_writes (s.setWorking h w.waitsForArm) p
    dsimp only
    split
    · obtain ⟨q, z, x, c', k', y', e⟩ := State.enterGap_writes ((s.setWorking h w.waitsForArm).refreshOuter p) h
      refine ⟨q, z, x, c', k', y', e.trans ?_⟩
      rw [awaited]
      rfl
    · exact ⟨_, _, _, c, k, y, awaited⟩

end

section
variable {s : State} {h : HeadId} {w : Working} {r : PolishRecord} {p : PlatenId}

/-- Without a stall and without reverse, or with the arm in the way of an UP head, no cause is raised (R33, R56, R57). -/
theorem State.causes_enterGap (polishes : s.polishing h = some (w, r, p))
    (calm : s.touchDownCauses p = []) : (s.enterGap h).2 = [] := by
  unfold State.enterGap
  rw [polishes]
  dsimp only
  split
  · rfl
  · exact calm

theorem State.toKeepout_calm (polishes : s.polishing h = some (w, r, p))
    (calm : s.isDown h = false ∧ (s.base p).config.keepOut < (s.cond p).position ∨
      (s.base p).stalled = false ∧ (s.base p).direction = .forward) : s.toKeepout h = (s.enterKeepout h).1 := by
  have quiet : (s.enterKeepout h).2 = [] := by
    unfold State.enterKeepout
    rw [polishes]
    dsimp only
    split
    · next goes =>
      obtain ⟨up, beyond⟩ | ⟨moving, forward⟩ := calm
      · exfalso
        have arm := State.armPosition_refreshOuter (s.setWorking h { w with phase := some .keepoutWait }) p p
        have base := State.base_refreshOuter (s.setWorking h { w with phase := some .keepoutWait }) p p
        have within := goes.resolve_left (by rw [up]; exact Bool.false_ne_true)
        rw [arm, base] at within
        exact absurd beyond (Nat.not_lt.2 within)
      · have base := State.base_armAwaited s h p w p
        exact State.causes_enterGap (State.polishing_armAwaited polishes) (State.touchDownCauses_nil
          ((congrArg Timebase.stalled base).trans moving) ((congrArg Timebase.direction base).trans forward))
    · rfl
  rw [State.toKeepout, quiet]
  rfl

/-- A step that goes on by the arm without a cause raised leaves the lines, the timebases and the stations as they are. -/
theorem State.toKeepout_writes (polishes : s.polishing h = some (w, r, p))
    (calm : s.isDown h = false ∧ (s.base p).config.keepOut < (s.cond p).position ∨
      (s.base p).stalled = false ∧ (s.base p).direction = .forward) :
    ∃ q z x c k y, s.toKeepout h =
      { s with seqs := q, zones := z, quals := x, conds := c, disks := k, ports := y } := by
  rw [State.toKeepout_calm polishes calm]
  exact State.enterKeepout_writes s h

theorem State.lines_toKeepout (polishes : s.polishing h = some (w, r, p))
    (calm : s.isDown h = false ∧ (s.base p).config.keepOut < (s.cond p).position ∨
      (s.base p).stalled = false ∧ (s.base p).direction = .forward) : (s.toKeepout h).lines = s.lines := by
  obtain ⟨q, z, x, c, k, y, e⟩ := State.toKeepout_writes polishes calm
  rw [e]

theorem State.base_toKeepout (polishes : s.polishing h = some (w, r, p))
    (calm : s.isDown h = false ∧ (s.base p).config.keepOut < (s.cond p).position ∨
      (s.base p).stalled = false ∧ (s.base p).direction = .forward) : (s.toKeepout h).bases = s.bases := by
  obtain ⟨q, z, x, c, k, y, e⟩ := State.toKeepout_writes polishes calm
  rw [e]

/-! ## The step goes on -/

/-- The head's step stays the POLISH step it was. -/
def State.stepKept (s t : State) (h : HeadId) : Prop :=
  ∃ v : Working, t.seq h = { s.seq h with activity := some (.step v) }

theorem State.stepKept_enterPolish (polishes : s.polishing h = some (w, r, p)) : s.stepKept (s.enterPolish h) h :=
  ⟨_, (State.enterPolish_aside polishes).seq.trans (State.seq_pressed ..)⟩

theorem State.stepKept.trans {s t u : State} (a : s.stepKept t h) (b : t.stepKept u h) : s.stepKept u h := by
  obtain ⟨v, e⟩ := a
  obtain ⟨v', e'⟩ := b
  exact ⟨v', by rw [e', e]⟩

theorem State.stepKept_setWorking (s : State) (h : HeadId) (v : Working) : s.stepKept (s.setWorking h v) h :=
  ⟨v, State.seq_setSeq_self ..⟩

theorem State.stepKept.of_aside {s t u : State} (a : s.stepKept t h) (b : Aside h t u) : s.stepKept u h := by
  obtain ⟨v, e⟩ := a
  exact ⟨v, b.seq.trans e⟩

theorem State.stepKept_enterGap (polishes : s.polishing h = some (w, r, p)) : s.stepKept (s.enterGap h).1 h := by
  obtain ⟨-, -, stands, kind⟩ := State.polishing_iff.1 polishes
  have gap := State.polishing_setWorking polishes (v := w.inGap r (s.base p).config.lead) kind
  have kept := State.stepKept_setWorking s h (w.inGap r (s.base p).config.lead)
  have pressed {t : State} (seq : t.seq h = (s.setWorking h (w.inGap r (s.base p).config.lead)).seq h)
      (carrier : t.carrier h = s.carrier h) : s.stepKept (t.enterPolish h) h ∧ s.stepKept t h := by
    have here : s.stepKept t h := ⟨_, seq.trans (State.seq_setSeq_self ..)⟩
    refine ⟨here.trans (State.stepKept_enterPolish (w := w.inGap r (s.base p).config.lead) (r := r) (p := p)
      (State.polishing_iff.2 ⟨?_, ?_, carrier ▸ stands, kind⟩)), here⟩
    · rw [seq]
      exact (State.polishing_iff.1 gap).1
    · rw [seq]
      exact (State.polishing_iff.1 gap).2.1
  have touched := State.touchDown_writes (s.setWorking h (w.inGap r (s.base p).config.lead)) h p r.gapPressure
  obtain ⟨z, c, k, y, e⟩ := touched
  unfold State.enterGap
  rw [polishes]
  dsimp only
  split
  · have both := pressed (t := (s.setWorking h (w.inGap r (s.base p).config.lead)).applySet h (.gap r.gapPressure))
      rfl rfl
    split
    · exact both.1
    · exact both.2
  · have both := pressed (t := (s.setWorking h (w.inGap r (s.base p).config.lead)).touchDown h p r.gapPressure)
      (by rw [e]; rfl) (by rw [e]; rfl)
    split
    · exact both.1
    · exact both.2

theorem State.stepKept_toKeepout (polishes : s.polishing h = some (w, r, p))
    (calm : s.isDown h = false ∧ (s.base p).config.keepOut < (s.cond p).position ∨
      (s.base p).stalled = false ∧ (s.base p).direction = .forward) : s.stepKept (s.toKeepout h) h := by
  have awaited : s.stepKept (s.armAwaited h p w) h :=
    (State.stepKept_setWorking s h w.waitsForArm).of_aside (.refreshOuter ..)
  rw [State.toKeepout_calm polishes calm]
  unfold State.enterKeepout
  rw [polishes]
  dsimp only
  split
  · exact awaited.trans (State.stepKept_enterGap (State.polishing_armAwaited polishes))
  · exact awaited

end

/-! ## Out of ACQUIRE_LINE -/

section
variable {s : State} {h : HeadId} {w : Working} {r : PolishRecord} {p : PlatenId}

/-- The arm stands beyond K: the step waits for it, the head UP (R33). -/
theorem State.toKeepout_waits (polishes : s.polishing h = some (w, r, p)) (up : s.isDown h = false)
    (beyond : (s.base p).config.keepOut < (s.cond p).position) : s.toKeepout h = s.armAwaited h p w := by
  rw [State.toKeepout, State.enterKeepout_eq polishes up, if_neg (Nat.not_le.2 beyond)]
  rfl

/-- The arm stands at K or below: the head goes DOWN, its step into GAP (R33, R34, R67). -/
theorem State.toKeepout_lowers (polishes : s.polishing h = some (w, r, p)) (up : s.isDown h = false)
    (within : (s.cond p).position ≤ (s.base p).config.keepOut) (moving : (s.base p).stalled = false)
    (forward : (s.base p).direction = .forward) :
    s.toKeepout h =
      if (effectiveGap r (s.base p).config.lead w.keptLine).1 = 0 then
        ((s.armAwaited h p w).lowered h p w.waitsForArm r).enterPolish h
      else (s.armAwaited h p w).lowered h p w.waitsForArm r := by
  have base : (s.armAwaited h p w).base p = s.base p := State.base_armAwaited ..
  rw [State.toKeepout, State.enterKeepout_eq polishes up, if_pos within,
    State.enterGap_up (State.polishing_armAwaited polishes) ((State.isDown_armAwaited ..).trans up)
      (State.touchDownCauses_nil (base ▸ moving) (base ▸ forward)), base]
  rfl

theorem State.seq_lowered (s : State) (h : HeadId) (p : PlatenId) (w : Working) (r : PolishRecord) :
    (s.lowered h p w r).seq h = { s.seq h with activity := some (.step (w.inGap r (s.base p).config.lead)) } := by
  have set : (s.setWorking h (w.inGap r (s.base p).config.lead)).seq h =
      { s.seq h with activity := some (.step (w.inGap r (s.base p).config.lead)) } := State.seq_setSeq_self ..
  rw [← set, State.lowered, State.touchDown]
  split
  · rfl
  · exact (Aside.refreshOuter (h := h) _ p).seq

theorem State.carrier_lowered (s : State) (h : HeadId) (p : PlatenId) (w : Working) (r : PolishRecord) (g : HeadId) :
    (s.lowered h p w r).carrier g = s.carrier g := by
  rw [State.lowered, State.touchDown]
  split
  · rfl
  · exact (Aside.refreshOuter (h := g) _ p).carrier

theorem State.zone_lowered (clear : s.trip.tripped = false) (h : HeadId) (p : PlatenId) (w : Working) (r : PolishRecord) :
    (s.lowered h p w r).zone h =
      { s.zone h with lift := .down (.gap r.gapPressure) ⟨0, !(s.zone h).inBand.allTrue, false⟩ } := by
  rw [State.lowered, State.touchDown, if_neg (by rw [State.setWorking, State.modSeq_eq, State.trip_setSeq, clear]; simp)]
  exact (Aside.refreshOuter (h := h) _ p).zone.trans (State.zone_setZone_self ..)

theorem State.seq_armAwaited (s : State) (h : HeadId) (p : PlatenId) (w : Working) :
    (s.armAwaited h p w).seq h = { s.seq h with activity := some (.step w.waitsForArm) } :=
  (Aside.refreshOuter (h := h) _ p).seq.trans (State.seq_setSeq_self ..)

theorem State.zone_armAwaited (s : State) (h : HeadId) (p : PlatenId) (w : Working) (g : HeadId) :
    (s.armAwaited h p w).zone g = s.zone g := (Aside.refreshOuter (h := g) _ p).zone

theorem State.carrier_armAwaited (s : State) (h : HeadId) (p : PlatenId) (w : Working) (g : HeadId) :
    (s.armAwaited h p w).carrier g = s.carrier g := (Aside.refreshOuter (h := g) _ p).carrier

theorem State.trip_armAwaited (s : State) (h : HeadId) (p : PlatenId) (w : Working) : (s.armAwaited h p w).trip = s.trip :=
  (Cascade.refreshOuter (s.setWorking h w.waitsForArm) p).trip

/-- The head goes DOWN into a GAP that does not end at once (R34, R67). -/
theorem State.toKeepout_gap (polishes : s.polishing h = some (w, r, p)) (up : s.isDown h = false)
    (within : (s.cond p).position ≤ (s.base p).config.keepOut) (moving : (s.base p).stalled = false)
    (forward : (s.base p).direction = .forward) (clear : s.trip.tripped = false)
    (long : 0 < (effectiveGap r (s.base p).config.lead w.keptLine).1) :
    (s.toKeepout h).seq h = { s.seq h with activity := some (.step (w.inGap r (s.base p).config.lead)) } ∧
      (s.toKeepout h).zone h =
        { s.zone h with lift := .down (.gap r.gapPressure) ⟨0, !(s.zone h).inBand.allTrue, false⟩ } ∧
      (s.toKeepout h).carrier h = s.carrier h := by
  have base : (s.armAwaited h p w).base p = s.base p := State.base_armAwaited ..
  rw [State.toKeepout_lowers polishes up within moving forward, if_neg (Nat.ne_of_gt long)]
  refine ⟨?_, ?_, ?_⟩
  · rw [State.seq_lowered, State.seq_armAwaited, base, Working.inGap_waitsForArm]
  · rw [State.zone_lowered (by rw [State.trip_armAwaited]; exact clear), State.zone_armAwaited]
  · rw [State.carrier_lowered, State.carrier_armAwaited]

end

/-! ## A line handed on -/

section
variable {s : State} {l : LineId} {n : NozzleId} {rest : List NozzleId} {g : HeadId} {w : Working} {r : PolishRecord}

/-- Line l bound to the nozzle that waited longest. -/
def State.boundTo (s : State) (l : LineId) (n : NozzleId) (rest : List NozzleId) (g : HeadId) (f : Nat) : State :=
  s.setLine l { s.line l with state := .bound n g f, wait := rest }

theorem State.polishing_boundTo (s : State) (l : LineId) (n : NozzleId) (rest : List NozzleId) (g : HeadId) (f : Nat)
    (j : HeadId) : (s.boundTo l n rest g f).polishing j = s.polishing j := Aside.polishing {}

/-- The handing on of one line to a head that can go on at once: it is that head's KEEPOUT_WAIT or touch-down. -/
theorem State.handOn_bound (clear : s.trip.tripped = false) (idle : (s.line l).state = .idle)
    (wait : (s.line l).wait = n :: rest) (on : s.headOn n = some g) (polishes : s.polishing g = some (w, r, n))
    (calm : s.isDown g = false ∧ (s.base n).config.keepOut < (s.cond n).position ∨
      (s.base n).stalled = false ∧ (s.base n).direction = .forward) :
    s.handOn l (s.line l).wait.length = (s.boundTo l n rest g r.flow).toKeepout g := by
  have lines : ((s.boundTo l n rest g r.flow).toKeepout g).lines = (s.boundTo l n rest g r.flow).lines :=
    State.lines_toKeepout ((State.polishing_boundTo ..).trans polishes) calm
  have bound : (((s.boundTo l n rest g r.flow).toKeepout g).line l).state = .bound n g r.flow := by
    rw [State.line, lines]
    show ((s.boundTo l n rest g r.flow).line l).state = _
    rw [State.boundTo, State.line_setLine_self]
  have on' : (s.modLine l fun k => { k with wait := rest }).headOn n = some g := on
  have polishes' : (s.modLine l fun k => { k with wait := rest }).polishing g = some (w, r, n) :=
    (Aside.polishing (.modLine ..)).trans polishes
  have both : (s.modLine l fun k => { k with wait := rest }).modLine l (fun k => { k with state := .bound n g r.flow }) =
      s.boundTo l n rest g r.flow := by
    rw [State.modLine_eq, State.modLine_eq, State.setLine_setLine, State.line_setLine_self]
    rfl
  rw [wait, List.length_cons, State.handOn, clear, idle, wait]
  dsimp only
  rw [on']
  dsimp only
  rw [polishes']
  dsimp only
  rw [both]
  exact State.handOn_still (fun free => by rw [bound] at free; cases free) _

theorem State.handOnAll_bound (clear : s.trip.tripped = false) (idle : (s.line l).state = .idle)
    (others : ∀ k, k ≠ l → (s.line k).state = .idle → (s.line k).wait = [])
    (wait : (s.line l).wait = n :: rest) (on : s.headOn n = some g) (polishes : s.polishing g = some (w, r, n))
    (calm : s.isDown g = false ∧ (s.base n).config.keepOut < (s.cond n).position ∨
      (s.base n).stalled = false ∧ (s.base n).direction = .forward) :
    s.handOnAll = (s.boundTo l n rest g r.flow).toKeepout g ∧
      s.handOnAll.lines = (s.boundTo l n rest g r.flow).lines := by
  have lines : ((s.boundTo l n rest g r.flow).toKeepout g).lines = (s.boundTo l n rest g r.flow).lines :=
    State.lines_toKeepout ((State.polishing_boundTo ..).trans polishes) calm
  have one := State.handOn_bound clear idle wait on polishes calm
  have after : (s.handOn l (s.line l).wait.length).IdleLinesFree := by
    intro k
    rw [one, State.line, lines]
    show ((s.boundTo l n rest g r.flow).line k).state = .idle → ((s.boundTo l n rest g r.flow).line k).wait = []
    rw [State.boundTo, State.line_setLine]
    split
    · exact fun free => by cases free
    · next ne => exact others k ne
  have all := (State.handOnAll_alone others after).trans one
  exact ⟨all, all ▸ lines⟩

/-- What State.HandedOn says of the oldest waiting nozzle. -/
structure State.Handed (s t : State) (l : LineId) (n : NozzleId) (rest : List NozzleId) (g : HeadId) (w : Working)
    (r : PolishRecord) : Prop where
  line : t.line l = { s.line l with state := .bound n g r.flow, wait := rest }
  waits : (s.base n).config.keepOut < (s.cond n).position →
    t.isDown g = false ∧ t.seq g = { s.seq g with activity := some (.step w.waitsForArm) }
  lowers : (s.cond n).position ≤ (s.base n).config.keepOut → 0 < r.gap →
    (t.zone g).lift = .down (.gap r.gapPressure) ⟨0, !(s.zone g).inBand.allTrue, false⟩ ∧
      t.seq g = { s.seq g with activity := some (.step (w.inGap r (s.base n).config.lead)) }

/-- A line that is alone to be handed on is handed on (R82, R83). -/
theorem State.handed_handOnAll (clear : s.trip.tripped = false) (idle : (s.line l).state = .idle)
    (others : ∀ k, k ≠ l → (s.line k).state = .idle → (s.line k).wait = [])
    (wait : (s.line l).wait = n :: rest) (on : s.headOn n = some g) (polishes : s.polishing g = some (w, r, n))
    (up : s.isDown g = false)
    (calm : (s.base n).config.keepOut < (s.cond n).position ∨
      (s.base n).stalled = false ∧ (s.base n).direction = .forward) : s.Handed s.handOnAll l n rest g w r := by
  obtain ⟨all, lines⟩ := State.handOnAll_bound clear idle others wait on polishes (calm.imp_left fun beyond => ⟨up, beyond⟩)
  have polishes' := (State.polishing_boundTo s l n rest g r.flow g).trans polishes
  refine ⟨?_, fun beyond => ?_, fun within pos => ?_⟩
  · rw [State.line, lines]
    exact State.line_setLine_self ..
  · rw [all, State.toKeepout_waits polishes' up beyond]
    exact ⟨(State.isDown_congr (State.zone_armAwaited ..)).trans up, State.seq_armAwaited ..⟩
  · obtain ⟨moving, forward⟩ := calm.resolve_left (Nat.not_lt.2 within)
    obtain ⟨gap, down, -⟩ := State.toKeepout_gap polishes' up within moving forward clear (effectiveGap_pos pos ..)
    exact ⟨by rw [all, down]; rfl, by rw [all]; exact gap⟩

/-- The handing on as it is seen from a state before it and a state after it. -/
theorem State.Handed.congr {u v t : State} (k : u.Handed v l n rest g w r)
    (back : ∀ x y, { u.line l with state := x, wait := y } = { s.line l with state := x, wait := y })
    (aside : Aside g s u) (config : (u.base n).config = (s.base n).config)
    (arm : (u.cond n).position = (s.cond n).position) (line : t.line l = v.line l) (after : t.zone g = v.zone g)
    (seq : t.seq g = v.seq g) : s.Handed t l n rest g w r := by
  have moved : t.isDown g = v.isDown g := State.isDown_congr after
  refine ⟨?_, fun beyond => ?_, fun within pos => ?_⟩
  · rw [line, k.line, back]
  · rw [moved, seq, ← aside.seq]
    exact k.waits (by rw [config, arm]; exact beyond)
  · rw [after, seq, ← aside.seq, ← aside.zone, ← config]
    exact k.lowers (by rw [config, arm]; exact within) pos

end

end Sys2Proof.Machine
end

section
/-!
PROOFS. ACQUIRE_LINE (R32, R79 to R81): what a POLISH step that asks for its line writes, and how it goes on by the answer.
-/
namespace Sys2Proof.Machine

/-- The working record of a step that has entered ACQUIRE_LINE (R32). -/
def Working.acquiring (w : Working) (r : PolishRecord) (usable : Bool) : Working :=
  { w with
    phase := some .acquireLine
    resume := none
    flags := { w.flags with noInsitu := w.flags.noInsitu || (r.inSitu && !usable) } }

/-- The disk of a platen may be used (R142). -/
def State.diskUsable (s : State) (p : PlatenId) : Bool := decide ((s.disk p).state = .active)

/-- A step that has entered ACQUIRE_LINE and has asked for its in-situ sweep (R32). -/
def State.asked (s : State) (h : HeadId) (p : PlatenId) (w : Working) (r : PolishRecord) : State :=
  let t := s.setWorking h { w with phase := some .acquireLine, resume := none }
  if r.inSitu then t.askInSitu h p else t

/-- The line of a step is bound to its nozzle, where the step has one. -/
def State.takeLine (s : State) (x : StepLine) (p : PlatenId) (h : HeadId) (f : Nat) : State :=
  match x with
  | .line l => if (s.line l).feeds p then s else s.setLine l { s.line l with state := .bound p h f }
  | .none => s
  | .rinse => s

/-- The step needs no line, or its line feeds it, or is free for it (R79). -/
def State.lineReady (s : State) (p : PlatenId) : StepLine → Prop
  | .line l => (s.line l).feeds p = true ∨ (s.line l).state = .idle ∧ (s.line l).wait = [] ∧ s.trip.tripped = false
  | .none => True
  | .rinse => True

section
variable {s : State} {h : HeadId} {w : Working} {r : PolishRecord} {p : PlatenId}

theorem State.inSituRequest_writes (s : State) (h : HeadId) (p : PlatenId) :
    ∃ c, s.inSituRequest h p = { s with conds := c } := by
  unfold State.inSituRequest
  repeat' split
  all_goals exact ⟨_, rfl⟩

theorem State.modWorking_setWorking (s : State) (h : HeadId) (w : Working) (f : Working → Working) :
    (s.setWorking h w).modWorking h f = s.setWorking h (f w) := by
  rw [State.modWorking, State.current_setWorking]
  dsimp only
  rw [State.setWorking, State.setWorking, State.setWorking, State.modSeq_eq, State.modSeq_eq, State.modSeq_eq,
    State.setSeq_setSeq, State.seq_setSeq_self]

theorem Working.acquiring_noSweep (w : Working) {r : PolishRecord} (off : r.inSitu = false) (usable : Bool) :
    w.acquiring r usable = { w with phase := some .acquireLine, resume := none } := by
  simp [Working.acquiring, off]

/-- The step writes its own record and the arm of its platen. -/
theorem State.asked_writes (s : State) (h : HeadId) (p : PlatenId) (w : Working) (r : PolishRecord) :
    ∃ c, s.asked h p w r = { s.setWorking h (w.acquiring r (s.diskUsable p)) with conds := c } := by
  unfold State.asked
  dsimp only
  split
  · next on =>
    obtain ⟨c, e⟩ := State.inSituRequest_writes (s.setWorking h (w.acquiring r (s.diskUsable p))) h p
    refine ⟨c, Eq.trans ?_ e⟩
    rw [State.askInSitu, State.modWorking_setWorking, Working.acquiring, on, Bool.true_and]
    rfl
  · next off =>
    rw [Working.acquiring_noSweep w (Bool.not_eq_true _ ▸ off)]
    exact ⟨_, rfl⟩

theorem State.seq_asked (s : State) (h : HeadId) (p : PlatenId) (w : Working) (r : PolishRecord) :
    (s.asked h p w r).seq h = { s.seq h with activity := some (.step (w.acquiring r (s.diskUsable p))) } := by
  obtain ⟨c, e⟩ := State.asked_writes s h p w r
  rw [e]
  exact State.seq_setSeq_self ..

theorem State.aside_asked (s : State) {h g : HeadId} (p : PlatenId) (w : Working) (r : PolishRecord) (ne : h ≠ g) :
    Aside g s (s.asked h p w r) := by
  obtain ⟨c, e⟩ := State.asked_writes s h p w r
  rw [e]
  exact (Aside.setWorking s _ ne).trans {}

theorem State.zone_asked (s : State) (h : HeadId) (p : PlatenId) (w : Working) (r : PolishRecord) :
    (s.asked h p w r).zones = s.zones := by
  obtain ⟨c, e⟩ := State.asked_writes s h p w r
  rw [e]
  rfl

theorem State.carriers_asked (s : State) (h : HeadId) (p : PlatenId) (w : Working) (r : PolishRecord) :
    (s.asked h p w r).carriers = s.carriers := by
  obtain ⟨c, e⟩ := State.asked_writes s h p w r
  rw [e]
  rfl

theorem State.bases_asked (s : State) (h : HeadId) (p : PlatenId) (w : Working) (r : PolishRecord) :
    (s.asked h p w r).bases = s.bases := by
  obtain ⟨c, e⟩ := State.asked_writes s h p w r
  rw [e]
  rfl

theorem State.lines_asked (s : State) (h : HeadId) (p : PlatenId) (w : Working) (r : PolishRecord) :
    (s.asked h p w r).lines = s.lines := by
  obtain ⟨c, e⟩ := State.asked_writes s h p w r
  rw [e]
  rfl

theorem State.trip_asked (s : State) (h : HeadId) (p : PlatenId) (w : Working) (r : PolishRecord) :
    (s.asked h p w r).trip = s.trip := by
  obtain ⟨c, e⟩ := State.asked_writes s h p w r
  rw [e]
  rfl

theorem State.armPosition_asked (s : State) (h : HeadId) (p : PlatenId) (w : Working) (r : PolishRecord) (j : PlatenId) :
    ((s.asked h p w r).cond j).position = (s.cond j).position := by
  unfold State.asked
  dsimp only
  split
  · exact (((Cascade.setWorking s h _).trans (.askInSitu _ h p)).arm j).position
  · rfl

theorem State.polishing_asked (polishes : s.polishing h = some (w, r, p)) :
    (s.asked h p w r).polishing h = some (w.acquiring r (s.diskUsable p), r, p) := by
  obtain ⟨running, -, stands, kind⟩ := State.polishing_iff.1 polishes
  refine State.polishing_iff.2 ⟨?_, ?_, ?_, kind⟩
  · rw [State.seq_asked]
    exact running
  · rw [State.seq_asked]
  · rw [State.carrier, State.carriers_asked]
    exact stands

theorem State.isDown_asked (s : State) (h : HeadId) (p : PlatenId) (w : Working) (r : PolishRecord) (g : HeadId) :
    (s.asked h p w r).isDown g = s.isDown g :=
  State.isDown_congr (congrArg (fun x => PerHead.get x g) (State.zone_asked s h p w r))

/-! ## The answer to the request -/

theorem State.enterAcquire_eq (polishes : s.polishing h = some (w, r, p)) :
    s.enterAcquire h =
      match r.line with
      | .none => ((s.asked h p w r).toKeepout h).handOnAll
      | .rinse => ((s.asked h p w r).toKeepout h).handOnAll
      | .line l =>
        (((s.asked h p w r).acquireLine l p h r.flow w.resuming).1.lineAnswered h l
          ((s.asked h p w r).acquireLine l p h r.flow w.resuming).2).handOnAll := by
  unfold State.enterAcquire
  rw [polishes]
  rfl

theorem State.line_asked (s : State) (h : HeadId) (p : PlatenId) (w : Working) (r : PolishRecord) (l : LineId) :
    (s.asked h p w r).line l = s.line l := congrArg (fun x => PerLine.get x l) (State.lines_asked s h p w r)

/-- Bound, or in need of no line: the step goes on by the arm (R32, R79). -/
theorem State.enterAcquire_ready (polishes : s.polishing h = some (w, r, p)) (ready : s.lineReady p r.line) :
    s.enterAcquire h = (((s.asked h p w r).takeLine r.line p h r.flow).toKeepout h).handOnAll := by
  rw [State.enterAcquire_eq polishes]
  cases line : r.line with
  | none => rfl
  | rinse => rfl
  | line l =>
    rw [line] at ready
    dsimp only
    rw [State.takeLine, State.line_asked]
    by_cases feeds : (s.line l).feeds p = true
    · rw [State.acquireLine_kept h r.flow w.resuming (by rw [State.line_asked]; exact feeds), if_pos feeds]
      rfl
    · obtain ⟨idle, empty, clear⟩ := Or.resolve_left ready feeds
      rw [State.acquireLine_of h r.flow w.resuming (by rw [State.line_asked]; exact Bool.not_eq_true _ ▸ feeds),
        State.line_asked, State.trip_asked, idle, empty, clear, if_neg feeds]
      rfl

/-- Bound to another nozzle, or FAULTED for a step that does not resume: the step waits UP for its line (R79). -/
theorem State.enterAcquire_queues {l : LineId} (polishes : s.polishing h = some (w, r, p)) (line : r.line = .line l)
    (other : (s.line l).feeds p = false) (up : s.isDown h = false)
    (busy : (∃ n g f, (s.line l).state = .bound n g f) ∨ (∃ x, (s.line l).state = .faulted x) ∧ w.resuming = false) :
    s.enterAcquire h =
      (((s.asked h p w r).setLine l ((s.line l).join p)).raise .recipe (.lineWait h)).handOnAll := by
  have queued : (s.asked h p w r).acquireLine l p h r.flow w.resuming =
      (((s.asked h p w r).setLine l ((s.line l).join p)).raise .recipe (.lineWait h), .queued) := by
    rw [State.acquireLine_of h r.flow w.resuming (by rw [State.line_asked]; exact other), State.line_asked]
    obtain ⟨n, g, f, bound⟩ | ⟨⟨x, faulted⟩, first⟩ := busy
    · rw [bound]
    · rw [faulted, first]
      rfl
  rw [State.enterAcquire_eq polishes, line]
  dsimp only
  rw [queued]
  show State.handOnAll (State.liftUp _ h) = _
  rw [State.liftUp, if_neg (by rw [State.isDown_raise]; exact (State.isDown_asked s h p w r h).trans up ▸ Bool.false_ne_true)]

/-- FAULTED for a step that resumes: the fault reaches the head (R81). -/
theorem State.enterAcquire_faults {l : LineId} {x : Option Nat} (polishes : s.polishing h = some (w, r, p))
    (line : r.line = .line l) (faulted : (s.line l).state = .faulted x) (resumes : w.resuming = true) :
    s.enterAcquire h = ((s.asked h p w r).takeCause h (.lineFault l)).handOnAll := by
  have other : ((s.asked h p w r).line l).feeds p = false := by
    rw [State.line_asked, Line.feeds, faulted]
  rw [State.enterAcquire_eq polishes, line]
  dsimp only
  rw [State.acquireLine_of h r.flow w.resuming other, State.line_asked, faulted, resumes]
  rfl

/-- DISABLED: the head halts (R80). -/
theorem State.enterAcquire_unavailable {l : LineId} (polishes : s.polishing h = some (w, r, p)) (line : r.line = .line l)
    (disabled : (s.line l).state = .disabled) :
    s.enterAcquire h = (((s.asked h p w r).withdraw h).haltResumable h .stationUnavailable).handOnAll := by
  have other : ((s.asked h p w r).line l).feeds p = false := by
    rw [State.line_asked, Line.feeds, disabled]
  rw [State.enterAcquire_eq polishes, line]
  dsimp only
  rw [State.acquireLine_of h r.flow w.resuming other, State.line_asked, disabled]
  rfl

/-! ## The step that goes on -/

theorem State.takeLine_writes (s : State) (x : StepLine) (p : PlatenId) (h : HeadId) (f : Nat) :
    ∃ k, s.takeLine x p h f = { s with lines := k } := by
  unfold State.takeLine
  repeat' split
  all_goals exact ⟨_, rfl⟩

theorem State.line_takeLine_other (s : State) {x : StepLine} (p : PlatenId) (h : HeadId) (f : Nat) {l : LineId}
    (other : x ≠ .line l) : (s.takeLine x p h f).line l = s.line l := by
  unfold State.takeLine
  split
  · split
    · rfl
    · exact State.line_setLine_ne _ _ fun e => other (by rw [e])
  · rfl
  · rfl

theorem State.line_takeLine (s : State) (p : PlatenId) (h : HeadId) (f : Nat) {l : LineId}
    (idle : (s.line l).state = .idle) :
    (s.takeLine (.line l) p h f).line l = { s.line l with state := .bound p h f } := by
  rw [State.takeLine, if_neg (by rw [Line.feeds, idle]; exact Bool.false_ne_true), State.line_setLine_self]

theorem State.idleLinesFree_takeLine (free : s.IdleLinesFree) (x : StepLine) (p : PlatenId) (h : HeadId) (f : Nat) :
    (s.takeLine x p h f).IdleLinesFree := by
  intro l
  by_cases own : x = .line l
  · subst own
    by_cases feeds : (s.line l).feeds p = true
    · rw [State.takeLine, if_pos feeds]
      exact free l
    · rw [State.takeLine, if_neg feeds, State.line_setLine_self]
      exact fun idle => by cases idle
  · rw [State.line_takeLine_other s p h f own]
    exact free l

/-- The state in which a step that has its line goes on by the arm (R32). -/
def State.supplied (s : State) (h : HeadId) (p : PlatenId) (w : Working) (r : PolishRecord) : State :=
  (s.asked h p w r).takeLine r.line p h r.flow

/-- A step that has its line has written its own record, the arm of its platen and the line. -/
theorem State.supplied_writes (s : State) (h : HeadId) (p : PlatenId) (w : Working) (r : PolishRecord) :
    ∃ c k, s.supplied h p w r = { s.setWorking h (w.acquiring r (s.diskUsable p)) with conds := c, lines := k } := by
  obtain ⟨k, taken⟩ := State.takeLine_writes (s.asked h p w r) r.line p h r.flow
  obtain ⟨c, asked⟩ := State.asked_writes s h p w r
  exact ⟨c, k, by rw [State.supplied, taken, asked]⟩

theorem State.idleLinesFree_supplied (free : s.IdleLinesFree) (h : HeadId) (p : PlatenId) (w : Working) (r : PolishRecord) :
    (s.supplied h p w r).IdleLinesFree := by
  have asked : (s.asked h p w r).IdleLinesFree := fun k => by
    rw [State.line_asked]
    exact free k
  exact State.idleLinesFree_takeLine asked r.line p h r.flow

theorem State.line_supplied_other (s : State) (h : HeadId) (p : PlatenId) (w : Working) {r : PolishRecord} {l : LineId}
    (other : r.line ≠ .line l) : (s.supplied h p w r).line l = s.line l :=
  (State.line_takeLine_other _ p h r.flow other).trans (State.line_asked ..)

theorem State.line_supplied (s : State) (h : HeadId) (p : PlatenId) (w : Working) {r : PolishRecord} {l : LineId}
    (line : r.line = .line l) (idle : (s.line l).state = .idle) :
    (s.supplied h p w r).line l = { s.line l with state := .bound p h r.flow } := by
  rw [State.supplied, line, State.line_takeLine _ p h r.flow (by rw [State.line_asked]; exact idle), State.line_asked]

section
variable (polishes : s.polishing h = some (w, r, p)) (up : s.isDown h = false)
include polishes up

theorem State.supplied_ready :
    (s.supplied h p w r).polishing h = some (w.acquiring r (s.diskUsable p), r, p) ∧
      (s.supplied h p w r).isDown h = false ∧ (s.supplied h p w r).base p = s.base p ∧
      ((s.supplied h p w r).cond p).position = (s.cond p).position := by
  obtain ⟨k, taken⟩ := State.takeLine_writes (s.asked h p w r) r.line p h r.flow
  refine ⟨?_, ?_, ?_, ?_⟩
  · rw [State.supplied, taken]
    exact (Aside.polishing {}).trans (State.polishing_asked polishes)
  · rw [State.supplied, taken]
    exact (State.isDown_asked s h p w r h).trans up
  · rw [State.supplied, taken]
    exact congrArg (fun x => PerPlaten.get x p) (State.bases_asked s h p w r)
  · rw [State.supplied, taken]
    exact State.armPosition_asked ..

/-- A step that has its line goes on by the arm, and no line is handed on (R32, R79). -/
theorem State.enterAcquire_goes (ready : s.lineReady p r.line) (free : s.IdleLinesFree)
    (calm : (s.base p).config.keepOut < (s.cond p).position ∨
      (s.base p).stalled = false ∧ (s.base p).direction = .forward) :
    s.enterAcquire h = (s.supplied h p w r).toKeepout h := by
  obtain ⟨polishes', up', base, arm⟩ := State.supplied_ready polishes up
  have lines := State.lines_toKeepout polishes'
    (by rw [base, arm]; exact calm.imp_left fun beyond => ⟨up', beyond⟩)
  have quiet : ((s.supplied h p w r).toKeepout h).IdleLinesFree := by
    intro k
    rw [State.line, lines]
    exact State.idleLinesFree_supplied free h p w r k
  rw [State.enterAcquire_ready polishes ready]
  exact State.handOnAll_of_free quiet

/-- The arm stands beyond K: the step goes into KEEPOUT_WAIT (R33). -/
theorem State.enterAcquire_waits (ready : s.lineReady p r.line) (free : s.IdleLinesFree)
    (beyond : (s.base p).config.keepOut < (s.cond p).position) :
    s.enterAcquire h = (s.supplied h p w r).armAwaited h p (w.acquiring r (s.diskUsable p)) := by
  obtain ⟨polishes', up', base, arm⟩ := State.supplied_ready polishes up
  rw [State.enterAcquire_goes polishes up ready free (.inl beyond)]
  exact State.toKeepout_waits polishes' up' (by rw [base, arm]; exact beyond)

end

end

end Sys2Proof.Machine
end

section
/-!
PROOFS. The supply of a line (R90, R91) and its recovery (R92, R93, R121): a fault that takes the step of a bound line into
RINSE, and a recovery that ends no intervention where every intervention keeps another cause.
-/
namespace Sys2Proof.Machine

/-! ## A recovery that ends no intervention -/

/-- A head without the fault of line l (R121). -/
def Sequencer.forget (q : Sequencer) (l : LineId) : Sequencer :=
  { q with
    activity := q.activity.map fun a => a.dropCause (.lineFault l)
    stack := q.stack.map fun x => x.dropCause (.lineFault l) }

/-- The recovery of line l leaves the intervention of head g a cause, or finds none (R121). -/
def State.stays (s : State) (l : LineId) (g : HeadId) : Prop :=
  s.isRunning g = true → ∀ k cs x, (s.seq g).activity = some (.intervention k cs x) → ∃ c ∈ cs, c ≠ .lineFault l

section
variable {s : State} {l : LineId} {g : HeadId}

theorem State.forgetFault_eq (s : State) (l : LineId) (g : HeadId) :
    s.forgetFault l g = s.setSeq g ((s.seq g).forget l) := rfl

theorem Activity.dropCause_kept {a : Activity} {c : Cause}
    (kept : ∀ k cs x, a = .intervention k cs x → ∃ d ∈ cs, d ≠ c) (k : Intervention) (x : Option ParkProgress) :
    a.dropCause c ≠ .intervention k [] x := by
  cases a with
  | step w => exact fun e => by cases e
  | intervention j cs y =>
    obtain ⟨d, mem, ne⟩ := kept j cs y rfl
    intro e
    have gone : Machine.dropCause c cs = [] := by
      simp only [Activity.dropCause, Activity.intervention.injEq] at e
      exact e.2.1
    have : d ∈ Machine.dropCause c cs := List.mem_filter.2 ⟨mem, by simp [ne]⟩
    rw [gone] at this
    exact absurd this List.not_mem_nil

theorem State.recoverHead_stays (stays : s.stays l g) : s.recoverHead l g = s.setSeq g ((s.seq g).forget l) := by
  rw [State.recoverHead, State.forgetFault_eq, State.endIfClear]
  refine if_neg fun clear => ?_
  obtain ⟨running, gone⟩ := Bool.and_eq_true_iff.1 clear
  have running' : s.isRunning g = true := by
    rw [State.isRunning, State.seq_setSeq_self] at running
    exact running
  unfold State.causesGone at gone
  rw [State.seq_setSeq_self] at gone
  split at gone
  · next k x busy =>
    cases activity : (s.seq g).activity with
    | none =>
      rw [Sequencer.forget, activity] at busy
      cases busy
    | some a =>
      rw [Sequencer.forget, activity] at busy
      exact Activity.dropCause_kept (fun j cs y e => stays running' j cs y (by rw [activity, e])) k x
        (Option.some.inj busy)
  · cases gone

theorem State.recoverHeads_stay {gs : List HeadId} (nodup : gs.Nodup) (stay : ∀ g ∈ gs, s.stays l g) :
    ∃ q, gs.foldl (fun t g => t.recoverHead l g) s = { s with seqs := q } ∧
      ∀ g, (gs.foldl (fun t g => t.recoverHead l g) s).seq g = if g ∈ gs then (s.seq g).forget l else s.seq g := by
  induction gs generalizing s with
  | nil => exact ⟨s.seqs, rfl, fun g => by simp⟩
  | cons g gs ih =>
    obtain ⟨new, rest⟩ := List.nodup_cons.1 nodup
    have other : ∀ j ∈ gs, (s.setSeq g ((s.seq g).forget l)).seq j = s.seq j := fun j mem =>
      State.seq_setSeq_ne _ _ fun e => new (e ▸ mem)
    obtain ⟨q, e, kept⟩ := ih (s := s.setSeq g ((s.seq g).forget l)) rest fun j mem => by
      have stays := stay j (List.mem_cons_of_mem _ mem)
      unfold State.stays State.isRunning at stays ⊢
      rw [other j mem]
      exact stays
    rw [List.foldl_cons, State.recoverHead_stays (stay g List.mem_cons_self)]
    refine ⟨q, e, fun j => ?_⟩
    rw [kept j]
    by_cases own : j = g
    · subst own
      rw [if_neg new, if_pos List.mem_cons_self, State.seq_setSeq_self]
    · rw [State.seq_setSeq_ne _ _ own]
      simp [own]

/-- A recovery that ends no intervention takes the fault from every head and does nothing else (R121). -/
theorem State.deliverRecovery_stays (stay : ∀ g, s.stays l g) :
    ∃ q, s.deliverRecovery l = { s with seqs := q } ∧ ∀ g, (s.deliverRecovery l).seq g = (s.seq g).forget l := by
  obtain ⟨q, e, kept⟩ := State.recoverHeads_stay (s := s) (l := l) (gs := headIds) (by decide) fun g _ => stay g
  exact ⟨q, e, fun g => (kept g).trans (if_pos (by cases g <;> decide))⟩

/-- Line l is IDLE again (R92). -/
def State.lineBack (s : State) (l : LineId) : State := s.setLine l { s.line l with state := .idle }

theorem State.recoverLine_eq (s : State) (l : LineId) : s.recoverLine l = (s.lineBack l).handOnAll.deliverRecovery l := rfl

theorem State.idleLinesFree_lineBack (empty : ∀ k, (s.line k).wait = []) : (s.lineBack l).IdleLinesFree := by
  intro k _
  rw [State.lineBack, State.line_setLine]
  split
  · exact empty l
  · exact empty k

/-- The recovery of a line that no nozzle waits for (R92), where it ends no intervention. -/
theorem State.recoverLine_stays (empty : ∀ k, (s.line k).wait = []) (stay : ∀ g, s.stays l g) :
    (s.recoverLine l).line l = { s.line l with state := .idle } ∧
      ∀ g, ((s.recoverLine l).seq g).state = (s.seq g).state := by
  have none : (s.lineBack l).handOnAll = s.lineBack l := State.handOnAll_of_free (State.idleLinesFree_lineBack empty)
  obtain ⟨q, e, kept⟩ := State.deliverRecovery_stays (s := s.lineBack l) (l := l) stay
  rw [State.recoverLine_eq, none]
  refine ⟨?_, fun g => ?_⟩
  · rw [e]
    exact State.line_setLine_self ..
  · rw [kept g]
    rfl

end

/-! ## O42 -/

theorem exec_supplyReadyChange_lost {s : State} {l : LineId} (ready : (s.line l).supplyReady = true) :
    exec (.supplyReadyChange l false) s = .next (s.supplyLost l).settle := by
  show Host.Outcome.next (if false = (s.line l).supplyReady then _ else _) = _
  rw [ready]
  rfl

theorem exec_supplyReadyChange_back {s : State} {l : LineId} (lost : (s.line l).supplyReady = false) :
    exec (.supplyReadyChange l true) s = .next (s.supplyBack l).settle := by
  show Host.Outcome.next (if true = (s.line l).supplyReady then _ else _) = _
  rw [lost]
  rfl

section
variable {s : State} {h : HeadId} {w : Working} {c : Cause}

/-- A cause of class RINSE over a step saves it and leaves the lift as it is (R117, R118). -/
theorem State.raiseCause_rinse (rinse : c.cls = .rinse) (running : (s.seq h).state = .running)
    (current : (s.seq h).activity = some (.step w)) (room : (s.seq h).stack.length < 2) :
    (s.raiseCause h c).seq h = Sequencer.bump { s.seq h with
        activity := some (.intervention .rinse [c] none)
        stack := ⟨.step (s.collect h w).suspended, (s.carrier h).halt.position.transit?⟩ :: (s.seq h).stack } ∧
      (s.raiseCause h c).isDown h = s.isDown h ∧ .intervened h ∈ ((s.raiseCause h c).port .recipe).notices := by
  have own : c.cls ≠ .park := by rw [rinse]; decide
  have begins := State.takeCause_begins (c := c) running current (by rw [rinse]; exact Nat.zero_lt_one)
  have seq : (s.beginIntervention h (.step w) c).seq h = Sequencer.bump { s.seq h with
      activity := some (.intervention .rinse [c] none)
      stack := ⟨.step (s.collect h w).suspended, (s.carrier h).halt.position.transit?⟩ :: (s.seq h).stack } := by
    rw [State.seq_beginIntervention own, Sequencer.push_of_room room, rinse]
    rfl
  have aside : Aside h (s.beginIntervention h (.step w) c) (s.beginIntervention h (.step w) c).handOnAll :=
    .handOnAll _ (State.polishing_of_intervention (k := .rinse) (cs := [c]) (x := none) (by rw [seq]; rfl))
  rw [State.raiseCause, begins]
  exact ⟨aside.seq.trans seq, aside.isDown.trans (State.isDown_beginRinse rinse),
    (Cascade.handOnAll _).notice (State.notice_beginIntervention ..)⟩

end

section
variable {s : State} {l : LineId} {n : NozzleId} {h : HeadId} {f : Nat}

/-- The line FAULTED, its notice raised (R91). -/
def State.faulted (s : State) (l : LineId) : State :=
  (s.setLine l { s.line l with supplyReady := false, state := .faulted none }).raise .recipe (.lineFault l)

theorem State.supplyLost_bound (bound : (s.line l).state = .bound n h f) :
    s.supplyLost l = (s.faulted l).raiseCause h (.lineFault l) := by
  rw [State.supplyLost]
  dsimp only
  rw [bound]
  rfl

theorem State.line_faulted (s : State) (l : LineId) :
    (s.faulted l).line l = { s.line l with supplyReady := false, state := .faulted none } := by
  rw [State.faulted, State.line_raise, State.line_setLine_self]

theorem State.collect_faulted (s : State) (l : LineId) (h : HeadId) (w : Working) :
    (s.faulted l).collect h w = s.collect h w :=
  State.collect_congr (fun p => by rw [State.faulted, State.base_raise]; rfl)
    (fun p => by rw [State.faulted, State.base_raise]; rfl) (fun p => by rw [State.faulted, State.base_raise]; rfl) h w

theorem State.supplyLost_effect (bound : (s.line l).state = .bound n h f) :
    ((s.supplyLost l).line l).state = .faulted none ∧ ((s.supplyLost l).line l).supplyReady = false ∧
      .lineFault l ∈ ((s.supplyLost l).port .recipe).notices := by
  have cascade := Cascade.raiseCause (s.faulted l) h (.lineFault l)
  rw [State.supplyLost_bound bound]
  refine ⟨(cascade.line l).faulted none ?_, (cascade.line l).ready.trans ?_, cascade.notice State.notice_raise⟩
  · rw [State.line_faulted]
  · rw [State.line_faulted]

end

/-- Settles O42: the rows of the table of R91 are the branches of the model; a bound line hands its fault to the step it
serves, and a recovery time of 0 recovers a line whose fault no intervention rests on alone. -/
theorem supplyReadyChange : Obligations.SupplyReadyChange := by
  unfold Obligations.SupplyReadyChange
  intro s l
  refine ⟨fun v same => ?_, fun ready => ⟨fun n h f bound => ?_, fun idle => ?_, fun x faulted => ?_, fun disabled => ?_⟩,
    fun lost => ⟨fun faulted slow => ?_, fun faulted fast empty stay => ?_, fun disabled => ?_⟩⟩
  case _ =>
    show Host.Outcome.next (if v = (s.line l).supplyReady then s else _) = _
    rw [if_pos same.symm]
  case _ =>
    obtain ⟨state, supply, notice⟩ := State.supplyLost_effect bound
    refine ⟨_, exec_supplyReadyChange_lost ready, by rw [State.line_settle]; exact state,
      by rw [State.line_settle]; exact supply, State.notice_settle notice, fun w running current room => ?_⟩
    obtain ⟨seq, down, intervened⟩ := State.raiseCause_rinse (s := s.faulted l) (c := .lineFault l) rfl running current room
    rw [State.seq_settle, State.isDown_settle, State.supplyLost_bound bound, seq, State.collect_faulted]
    exact ⟨rfl, down, State.notice_settle intervened⟩
  case _ =>
    rw [exec_supplyReadyChange_lost ready, State.supplyLost]
    dsimp only
    rw [idle]
  case _ =>
    rw [exec_supplyReadyChange_lost ready, State.supplyLost]
    dsimp only
    rw [faulted]
  case _ =>
    rw [exec_supplyReadyChange_lost ready, State.supplyLost]
    dsimp only
    rw [disabled]
  case _ =>
    rw [exec_supplyReadyChange_back lost, State.supplyBack]
    dsimp only
    rw [faulted]
    dsimp only
    rw [if_neg (Nat.ne_of_gt slow)]
  case _ =>
    have back : s.supplyBack l =
        (s.setLine l { s.line l with supplyReady := true, state := .faulted (some 0) }).recoverLine l := by
      rw [State.supplyBack]
      dsimp only
      rw [faulted]
      dsimp only
      rw [if_pos fast]
    have recovered := (State.recoverLine_stays (l := l)
      (s := s.setLine l { s.line l with supplyReady := true, state := .faulted (some 0) }) (fun k => by
        rw [State.line_setLine]
        split
        · exact empty l
        · exact empty k) stay).1
    refine ⟨_, exec_supplyReadyChange_back lost, ?_⟩
    rw [State.line_settle, back, recovered, State.line_setLine_self]
  case _ =>
    rw [exec_supplyReadyChange_back lost, State.supplyBack]
    dsimp only
    rw [disabled]

end Sys2Proof.Machine
end

section
/-!
PROOFS. Resuming (R120 to R124): the end of an intervention by the context on top of the stack, and the POLISH step that takes
its clock back at its platen; then the recovery of a line (R92, R93).
-/
namespace Sys2Proof.Machine

/-! ## The end of an intervention -/

section
variable {s : State} {h : HeadId}

/-- The head has left its wait lists and works on nothing, with the contexts given still saved (R122). -/
def State.exited (s : State) (h : HeadId) (rest : List Context) : State :=
  (s.leaveWaits h).setSeq h { s.seq h with activity := none, stack := rest }

theorem State.endIfClear_of {k : Intervention} {x : Option ParkProgress} (running : (s.seq h).state = .running)
    (clear : (s.seq h).activity = some (.intervention k [] x)) : s.endIfClear h = s.endIntervention h := by
  rw [State.endIfClear, State.causesGone, clear, State.isRunning, running]
  rfl

theorem State.endIfClear_not {k : Intervention} {c : Cause} {cs : List Cause} {x : Option ParkProgress}
    (busy : (s.seq h).activity = some (.intervention k (c :: cs) x)) : s.endIfClear h = s := by
  rw [State.endIfClear, State.causesGone, busy, Bool.and_false]
  exact if_neg Bool.false_ne_true

theorem State.endIntervention_eq (s : State) (h : HeadId) :
    s.endIntervention h = State.unwind h (s.seq h).stack (s.exited h (s.seq h).stack) := by
  have left : (s.leaveWaits h).modSeq h (fun q => { q with activity := none }) = s.exited h (s.seq h).stack := rfl
  rw [State.endIntervention, left, State.exited, State.seq_setSeq_self]

theorem State.exited_setStack (s : State) (h : HeadId) (cs rest : List Context) :
    (s.exited h cs).modSeq h (fun q => { q with activity := none, stack := rest }) = s.exited h rest := by
  rw [State.exited, State.modSeq_eq, State.setSeq_setSeq, State.seq_setSeq_self]
  rfl

theorem State.unwind_step (s : State) (h : HeadId) (cs : List Context) (w : Working) (tr : Option Position)
    (rest : List Context) :
    State.unwind h (⟨.step w, tr⟩ :: rest) (s.exited h cs) = (s.exited h rest).resumeStep h w := by
  rw [State.unwind]
  dsimp only
  rw [State.exited_setStack]

theorem State.unwind_intervention (s : State) (h : HeadId) (cs : List Context) (k : Intervention) (c : Cause)
    (ks : List Cause) (tr : Option Position) (rest : List Context) :
    State.unwind h (⟨.intervention k (c :: ks), tr⟩ :: rest) (s.exited h cs) =
      (s.exited h rest).resumeIntervention h k (c :: ks) := by
  rw [State.unwind]
  dsimp only
  rw [State.exited_setStack]

theorem State.unwind_empties (s : State) (h : HeadId) {xs : List Context} (cs : List Context)
    (spent : ∀ c ∈ xs, ∃ j, c.saved = .intervention j []) (none : xs = [] → cs = []) :
    State.unwind h xs (s.exited h cs) = (s.exited h []).finalHalt h .lost := by
  induction xs generalizing cs with
  | nil => rw [State.unwind, none rfl]
  | cons c rest ih =>
    obtain ⟨j, saved⟩ := spent c List.mem_cons_self
    rw [State.unwind, saved, State.exited_setStack]
    exact ih rest (fun x mem => spent x (List.mem_cons_of_mem _ mem)) id

theorem State.aside_exited (s : State) {h g : HeadId} (rest : List Context) (ne : h ≠ g) : Aside g s (s.exited h rest) :=
  (Aside.leaveWaits s h).trans (.setSeq _ _ ne)

theorem State.seq_exited (s : State) (h : HeadId) (rest : List Context) :
    (s.exited h rest).seq h = { s.seq h with activity := none, stack := rest } := State.seq_setSeq_self ..

/-! ## A step that resumes where it stands -/

theorem State.askStation_here {w : Working} (current : s.current h = some w)
    (stands : (s.carrier h).position = .stands w.station) : s.askStation h = s.arrived h := by
  rw [State.askStation, current]
  dsimp only
  rw [State.acquire_here stands]
  rfl

theorem State.arrived_dwell {w : Working} {n : Nat} (current : s.current h = some w) (kind : w.record.kind = .dwell n) :
    s.arrived h = s.setWorking h { w with phase := some .dwell, resume := none } := by
  rw [State.arrived, current]
  dsimp only
  rw [kind]

/-- A POLISH step takes its clock back (R123). -/
def State.reowned (s : State) (h : HeadId) (p : PlatenId) (w : Working) (r : PolishRecord) : State :=
  s.setBase p ((s.base p).own h w.accrued w.limit r.clock)

theorem State.arrived_polish {w : Working} {r : PolishRecord} {p : PlatenId} (current : s.current h = some w)
    (kind : w.record.kind = .polish r) (platen : w.platen = some p) (vacuum : (s.seq h).vacuum = true) :
    s.arrived h = (s.reowned h p w r).enterAcquire h := by
  rw [State.arrived, current]
  dsimp only
  rw [kind]
  dsimp only
  rw [vacuum, platen]
  rfl

theorem State.arrived_lost {w : Working} {r : PolishRecord} (current : s.current h = some w)
    (kind : w.record.kind = .polish r) (lost : (s.seq h).vacuum = false) : s.arrived h = s.finalHalt h .waferLost := by
  rw [State.arrived, current]
  dsimp only
  rw [kind]
  dsimp only
  rw [lost, if_neg Bool.false_ne_true]

theorem Timebase.own_accumulator (b : Timebase) (h : HeadId) (a l : Nat) (c : StepClock) :
    (b.own h a l c).accumulator = a ∧ (b.own h a l c).owner = some ⟨h, l, c⟩ := ⟨rfl, rfl⟩

theorem State.polishing_reowned (s : State) (h g : HeadId) (p : PlatenId) (w : Working) (r : PolishRecord) :
    (s.reowned h p w r).polishing g = s.polishing g := Aside.polishing {}

/-- The state in which a step popped from the stack asks for its station (R67, R123). -/
def State.popped (s : State) (h : HeadId) (rest : List Context) (w : Working) : State :=
  ((s.exited h rest).liftUp h).setWorking h w.popped

theorem State.resumeStep_exited (s : State) (h : HeadId) (rest : List Context) (w : Working) :
    (s.exited h rest).resumeStep h w = (s.popped h rest w).askStation h := rfl

theorem State.seq_popped (s : State) (h : HeadId) (rest : List Context) (w : Working) :
    (s.popped h rest w).seq h = { s.seq h with activity := some (.step w.popped), stack := rest } := by
  rw [State.popped, State.setWorking, State.modSeq_eq, State.seq_setSeq_self, State.seq_liftUp, State.seq_exited]

theorem State.carrier_popped (s : State) (h : HeadId) (rest : List Context) (w : Working) (g : HeadId) :
    (s.popped h rest w).carrier g = s.carrier g := State.carrier_liftUp (s.exited h rest) h g

theorem State.isDown_popped (s : State) (h : HeadId) (rest : List Context) (w : Working) :
    (s.popped h rest w).isDown h = false :=
  (State.isDown_setSeq ..).trans ((State.isDown_liftUp ..).trans (if_pos rfl))

theorem State.aside_popped (s : State) {h g : HeadId} (rest : List Context) (w : Working) (ne : h ≠ g) :
    Aside g s (s.popped h rest w) :=
  ((State.aside_exited s rest ne).trans (.liftUp _ ne)).trans (.setWorking _ _ ne)

theorem State.current_popped (s : State) (h : HeadId) (rest : List Context) (w : Working) :
    (s.popped h rest w).current h = some w.popped := State.current_setWorking ..

theorem State.lines_liftUp (s : State) (h : HeadId) : (s.liftUp h).lines = s.lines := by
  obtain ⟨z, c, k, x, e⟩ := State.liftUp_writes s h
  rw [e]

theorem State.bases_liftUp (s : State) (h : HeadId) : (s.liftUp h).bases = s.bases := by
  obtain ⟨z, c, k, x, e⟩ := State.liftUp_writes s h
  rw [e]

theorem State.armPosition_liftUp (s : State) (h : HeadId) (p : PlatenId) :
    ((s.liftUp h).cond p).position = (s.cond p).position := ((Cascade.liftUp s h).arm p).position

theorem State.lines_popped (s : State) (h : HeadId) (rest : List Context) (w : Working) :
    (s.popped h rest w).lines = s.lines := State.lines_liftUp (s.exited h rest) h

theorem State.bases_popped (s : State) (h : HeadId) (rest : List Context) (w : Working) :
    (s.popped h rest w).bases = s.bases := State.bases_liftUp (s.exited h rest) h

theorem State.trip_popped (s : State) (h : HeadId) (rest : List Context) (w : Working) :
    (s.popped h rest w).trip = s.trip := (Cascade.liftUp (s.exited h rest) h).trip

theorem State.armPosition_popped (s : State) (h : HeadId) (rest : List Context) (w : Working) (p : PlatenId) :
    ((s.popped h rest w).cond p).position = (s.cond p).position := State.armPosition_liftUp (s.exited h rest) h p

theorem Working.station_popped (w : Working) : w.popped.station = w.station ∧ w.popped.record = w.record ∧
    w.popped.platen = w.platen := ⟨rfl, rfl, rfl⟩

/-- The state in which a POLISH step resumed at its platen enters ACQUIRE_LINE (R123). -/
def State.reclaimed (s : State) (h : HeadId) (rest : List Context) (w : Working) (r : PolishRecord) (p : PlatenId) : State :=
  (s.popped h rest w).reowned h p w.popped r

section
variable {w : Working} {r : PolishRecord} {p : PlatenId} {tr : Option Position} {rest : List Context}

/-- An intervention over a POLISH step that stands at its platen ends, and the step enters ACQUIRE_LINE (R122, R123). -/
theorem State.endIntervention_polish (saved : (s.seq h).stack = ⟨.step w, tr⟩ :: rest) (kind : w.record.kind = .polish r)
    (platen : w.platen = some p) (station : w.station = .platen p)
    (stands : (s.carrier h).position = .stands (.platen p)) (vacuum : (s.seq h).vacuum = true) :
    s.endIntervention h = (s.reclaimed h rest w r p).enterAcquire h := by
  have stands' : ((s.popped h rest w).carrier h).position = .stands w.popped.station := by
    rw [State.carrier_popped, stands, ← station]
    rfl
  rw [State.endIntervention_eq, saved, State.unwind_step, State.resumeStep_exited,
    State.askStation_here (State.current_popped ..) stands']
  exact State.arrived_polish (State.current_popped ..) kind platen (by rw [State.seq_popped]; exact vacuum)

theorem State.polishing_reclaimed (running : (s.seq h).state = .running)
    (stands : (s.carrier h).position = .stands (.platen p)) (kind : w.record.kind = .polish r) (rest : List Context) :
    (s.reclaimed h rest w r p).polishing h = some (w.popped, r, p) := by
  rw [State.reclaimed, State.polishing_reowned]
  refine State.polishing_iff.2 ⟨?_, ?_, ?_, kind⟩
  · rw [State.seq_popped]
    exact running
  · rw [State.seq_popped]
  · rw [State.carrier_popped]
    exact stands

theorem State.isDown_reclaimed (s : State) (h : HeadId) (rest : List Context) (w : Working) (r : PolishRecord)
    (p : PlatenId) : (s.reclaimed h rest w r p).isDown h = false := State.isDown_popped s h rest w

theorem State.seq_reclaimed (s : State) (h : HeadId) (rest : List Context) (w : Working) (r : PolishRecord)
    (p : PlatenId) :
    (s.reclaimed h rest w r p).seq h = { s.seq h with activity := some (.step w.popped), stack := rest } :=
  State.seq_popped s h rest w

theorem State.lines_reclaimed (s : State) (h : HeadId) (rest : List Context) (w : Working) (r : PolishRecord)
    (p : PlatenId) : (s.reclaimed h rest w r p).lines = s.lines := State.lines_popped s h rest w

theorem State.base_reclaimed (s : State) (h : HeadId) (rest : List Context) (w : Working) (r : PolishRecord)
    (p : PlatenId) :
    (s.reclaimed h rest w r p).base p = (s.base p).own h w.accrued w.limit r.clock := by
  rw [State.reclaimed, State.reowned, State.base_setBase_self, State.base, State.bases_popped]
  rfl

theorem State.aside_reclaimed (s : State) {h g : HeadId} (rest : List Context) (w : Working) (r : PolishRecord)
    (p : PlatenId) (ne : h ≠ g) : Aside g s (s.reclaimed h rest w r p) :=
  (State.aside_popped s rest w ne).trans {}

theorem State.trip_reclaimed (s : State) (h : HeadId) (rest : List Context) (w : Working) (r : PolishRecord)
    (p : PlatenId) : (s.reclaimed h rest w r p).trip = s.trip := State.trip_popped s h rest w

theorem State.armPosition_reclaimed (s : State) (h : HeadId) (rest : List Context) (w : Working) (r : PolishRecord)
    (p j : PlatenId) : ((s.reclaimed h rest w r p).cond j).position = (s.cond j).position :=
  State.armPosition_popped s h rest w j

end

end

end Sys2Proof.Machine
end

section
/-!
PROOFS. The recovery of a line (R92, R93, R121, R123), with the step that its fault suspended and with the nozzles that wait.
-/
namespace Sys2Proof.Machine

section
variable {s : State} {l : LineId} {h : HeadId}

theorem State.line_withSeqs (s : State) (q : PerHead Sequencer) (l : LineId) :
    ({ s with seqs := q } : State).line l = s.line l := rfl

theorem State.zone_withSeqs (s : State) (q : PerHead Sequencer) (h : HeadId) :
    ({ s with seqs := q } : State).zone h = s.zone h := rfl

/-! ## A recovery that ends one intervention -/

/-- A recovery that ends the intervention of head h alone, whose resuming leaves the other sequencers as they are: every
other head forgets the fault (R92, R121). -/
theorem State.deliverRecovery_one (stay : ∀ g, g ≠ h → s.stays l g)
    (apart : ∀ q, ({ s with seqs := q } : State).seq h = s.seq h → ∀ g, g ≠ h →
      (({ s with seqs := q } : State).recoverHead l h).seq g = ({ s with seqs := q } : State).seq g) :
    ∃ q q', ({ s with seqs := q } : State).seq h = s.seq h ∧
      s.deliverRecovery l = { ({ s with seqs := q } : State).recoverHead l h with seqs := q' } ∧
      (s.deliverRecovery l).seq h = (({ s with seqs := q } : State).recoverHead l h).seq h := by
  obtain ⟨pre, post, split⟩ := List.append_of_mem (show h ∈ headIds by cases h <;> decide)
  have nodup : (pre ++ h :: post).Nodup := split ▸ (by decide : headIds.Nodup)
  obtain ⟨first, second, distinct⟩ := List.nodup_append.1 nodup
  obtain ⟨later, last⟩ := List.nodup_cons.1 second
  have earlier : h ∉ pre := fun mem => distinct h mem h List.mem_cons_self rfl
  obtain ⟨q, before, kept⟩ := State.recoverHeads_stay (s := s) (l := l) first fun g mem =>
    stay g fun e => earlier (e ▸ mem)
  have own : ({ s with seqs := q } : State).seq h = s.seq h := by
    rw [← before, kept h, if_neg earlier]
  have stays : ∀ g ∈ post, (({ s with seqs := q } : State).recoverHead l h).stays l g := fun g mem => by
    have ne : g ≠ h := fun e => later (e ▸ mem)
    have new : g ∉ pre := fun mem' => distinct g mem' g (List.mem_cons_of_mem _ mem) rfl
    have same : (({ s with seqs := q } : State).recoverHead l h).seq g = s.seq g := by
      rw [apart q own g ne, ← before, kept g, if_neg new]
    unfold State.stays State.isRunning
    rw [same]
    exact stay g ne
  obtain ⟨q', after, kept'⟩ := State.recoverHeads_stay last stays
  have all : s.deliverRecovery l =
      post.foldl (fun t g => t.recoverHead l g) (({ s with seqs := q } : State).recoverHead l h) := by
    rw [State.deliverRecovery, split, List.foldl_append, before, List.foldl_cons]
  exact ⟨q, q', own, all.trans after, by rw [all, kept' h, if_neg later]⟩

section
variable {k : Intervention} {x : Option ParkProgress} {w : Working} {r : PolishRecord} {p : PlatenId}
  {tr : Option Position}

/-- The recovery reaches the head whose step the fault suspended: its POLISH step enters ACQUIRE_LINE again (R121, R123). -/
theorem State.recoverHead_polish (running : (s.seq h).state = .running)
    (busy : (s.seq h).activity = some (.intervention k [.lineFault l] x)) (saved : (s.seq h).stack = [⟨.step w, tr⟩])
    (kind : w.record.kind = .polish r) (platen : w.platen = some p) (station : w.station = .platen p)
    (stands : (s.carrier h).position = .stands (.platen p)) (vacuum : (s.seq h).vacuum = true) :
    s.recoverHead l h = ((s.setSeq h ((s.seq h).forget l)).reclaimed h [] w r p).enterAcquire h := by
  have clear : ((s.setSeq h ((s.seq h).forget l)).seq h).activity = some (.intervention k [] x) := by
    rw [State.seq_setSeq_self, Sequencer.forget, busy]
    simp [Activity.dropCause, Machine.dropCause]
  have running' : ((s.setSeq h ((s.seq h).forget l)).seq h).state = .running := by
    rw [State.seq_setSeq_self]
    exact running
  have stack : ((s.setSeq h ((s.seq h).forget l)).seq h).stack = ⟨.step w, tr⟩ :: [] := by
    rw [State.seq_setSeq_self, Sequencer.forget, saved]
    rfl
  rw [State.recoverHead, State.forgetFault_eq, State.endIfClear_of running' clear]
  exact State.endIntervention_polish stack kind platen station stands (by rw [State.seq_setSeq_self]; exact vacuum)

/-- The state in which the step that the fault of line l suspended enters ACQUIRE_LINE (R121, R123). -/
def State.restored (s : State) (l : LineId) (h : HeadId) (w : Working) (r : PolishRecord) (p : PlatenId) : State :=
  (s.setSeq h ((s.seq h).forget l)).reclaimed h [] w r p

theorem State.seq_restored (s : State) (l : LineId) (h : HeadId) (w : Working) (r : PolishRecord) (p : PlatenId) :
    (s.restored l h w r p).seq h = { s.seq h with activity := some (.step w.popped), stack := [] } := by
  rw [State.restored, State.seq_reclaimed, State.seq_setSeq_self]
  rfl

theorem State.line_restored (s : State) (l : LineId) (h : HeadId) (w : Working) (r : PolishRecord) (p : PlatenId)
    (k : LineId) : (s.restored l h w r p).line k = s.line k :=
  congrArg (fun x => PerLine.get x k) (State.lines_reclaimed (s.setSeq h ((s.seq h).forget l)) h [] w r p)

theorem State.aside_restored (s : State) (l : LineId) {h g : HeadId} (w : Working) (r : PolishRecord) (p : PlatenId)
    (ne : h ≠ g) : Aside g s (s.restored l h w r p) :=
  (Aside.setSeq s _ ne).trans (State.aside_reclaimed _ [] w r p ne)

end

end

/-! ## A supplied step -/

section
variable {s : State} {h : HeadId} {w : Working} {r : PolishRecord} {p : PlatenId}

theorem State.aside_supplied (s : State) {h g : HeadId} (p : PlatenId) (w : Working) (r : PolishRecord) (ne : h ≠ g) :
    Aside g s (s.supplied h p w r) := by
  obtain ⟨c, k, e⟩ := State.supplied_writes s h p w r
  rw [e]
  exact (Aside.setWorking s _ ne).trans {}

theorem State.seq_supplied (s : State) (h : HeadId) (p : PlatenId) (w : Working) (r : PolishRecord) :
    (s.supplied h p w r).seq h = { s.seq h with activity := some (.step (w.acquiring r (s.diskUsable p))) } := by
  obtain ⟨c, k, e⟩ := State.supplied_writes s h p w r
  rw [e]
  exact State.seq_setSeq_self ..

theorem State.trip_supplied (s : State) (h : HeadId) (p : PlatenId) (w : Working) (r : PolishRecord) :
    (s.supplied h p w r).trip = s.trip := by
  obtain ⟨c, k, e⟩ := State.supplied_writes s h p w r
  rw [e]
  rfl

/-- The head is set DOWN, its step in a GAP that does not end at once, its line bound (R32 to R34, R67). -/
theorem State.enterAcquire_gap (polishes : s.polishing h = some (w, r, p)) (up : s.isDown h = false)
    (ready : s.lineReady p r.line) (free : s.IdleLinesFree)
    (within : (s.cond p).position ≤ (s.base p).config.keepOut) (moving : (s.base p).stalled = false)
    (forward : (s.base p).direction = .forward) (clear : s.trip.tripped = false)
    (long : 0 < (effectiveGap r (s.base p).config.lead w.keptLine).1) :
    (s.enterAcquire h).seq h = { s.seq h with
        activity := some (.step ((w.acquiring r (s.diskUsable p)).inGap r (s.base p).config.lead)) } ∧
      (s.enterAcquire h).isDown h = true ∧ (∀ l, (s.enterAcquire h).line l = (s.supplied h p w r).line l) ∧
      (∀ j, (s.enterAcquire h).base j = s.base j) := by
  obtain ⟨polishes', up', base, arm⟩ := State.supplied_ready polishes up
  have calm : (s.supplied h p w r).isDown h = false ∧
        ((s.supplied h p w r).base p).config.keepOut < ((s.supplied h p w r).cond p).position ∨
      ((s.supplied h p w r).base p).stalled = false ∧ ((s.supplied h p w r).base p).direction = .forward :=
    .inr (by rw [base]; exact ⟨moving, forward⟩)
  obtain ⟨seq, zone, -⟩ := State.toKeepout_gap polishes' up' (by rw [base, arm]; exact within) (by rw [base]; exact moving)
    (by rw [base]; exact forward) (by rw [State.trip_supplied]; exact clear) (by rw [base]; exact long)
  have kept : ∀ j, (s.supplied h p w r).base j = s.base j := by
    obtain ⟨c, k, e⟩ := State.supplied_writes s h p w r
    intro j
    rw [e]
    rfl
  rw [State.enterAcquire_goes polishes up ready free (.inr ⟨moving, forward⟩)]
  refine ⟨?_, ?_, fun l => ?_, fun j => ?_⟩
  · rw [seq, base, State.seq_supplied]
  · rw [State.isDown, zone]
  · rw [State.line, State.lines_toKeepout polishes' calm]
    rfl
  · rw [State.base, State.base_toKeepout polishes' calm]
    exact kept j

end

/-! ## O43 -/

section
variable {s : State} {l : LineId} {n : Nat}

theorem State.recoveryExpiry_of (faulted : (s.line l).state = .faulted (some n)) :
    s.recoveryExpiry l = s.recoverLine l := by
  rw [State.recoveryExpiry, faulted]

theorem State.recoveryExpiry_not (still : ∀ n, (s.line l).state ≠ .faulted (some n)) : s.recoveryExpiry l = s := by
  unfold State.recoveryExpiry
  split
  · next n faulted => exact absurd faulted (still n)
  · rfl

theorem State.others_lineBack (free : s.IdleLinesFree) (k : LineId) (ne : k ≠ l) :
    ((s.lineBack l).line k).state = .idle → ((s.lineBack l).line k).wait = [] := by
  rw [State.lineBack, State.line_setLine_ne _ _ ne]
  exact free k

theorem Sequencer.forget_step {q : Sequencer} {w : Working} (step : q.activity = some (.step w)) (empty : q.stack = [])
    (l : LineId) : q.forget l = q := by
  cases q
  simp_all [Sequencer.forget, Activity.dropCause]

theorem State.line_lineBack (s : State) (l : LineId) : (s.lineBack l).line l = { s.line l with state := .idle } :=
  State.line_setLine_self ..

/-- The recovery hands the line to the oldest waiting nozzle (R92 step 2), where it ends no intervention. -/
theorem State.handedOn_recovery (clear : s.trip.tripped = false) (free : s.IdleLinesFree) (stay : ∀ g, s.stays l g) :
    s.HandedOn (s.recoverLine l).settle l := by
  intro m rest g w r wait on polishes up empty _ calm
  have wait' : ((s.lineBack l).line l).wait = m :: rest := by rw [State.line_lineBack]; exact wait
  have idle : ((s.lineBack l).line l).state = .idle := by rw [State.line_lineBack]
  have polishes' : (s.lineBack l).polishing g = some (w, r, m) := (Aside.polishing {}).trans polishes
  have calm' := calm.imp_left fun beyond => And.intro up beyond
  obtain ⟨all, -⟩ := State.handOnAll_bound (s := s.lineBack l) clear idle (State.others_lineBack free) wait' on polishes' calm'
  have handed := State.handed_handOnAll (s := s.lineBack l) clear idle (State.others_lineBack free) wait' on polishes' up calm
  obtain ⟨v, kept⟩ : (s.lineBack l).stepKept (s.lineBack l).handOnAll g := by
    rw [all]
    exact State.stepKept_toKeepout (s := (s.lineBack l).boundTo l m rest g r.flow)
      ((State.polishing_boundTo ..).trans polishes') calm'
  have stay' : ∀ j, (s.lineBack l).handOnAll.stays l j := by
    intro j
    by_cases own : j = g
    · subst own
      intro _ k cs x busy
      rw [kept] at busy
      cases busy
    · have aside : (s.lineBack l).handOnAll.seq j = s.seq j := by
        rw [all]
        exact (Aside.toKeepout _ (Ne.symm own)).seq
      unfold State.stays State.isRunning
      rw [aside]
      exact stay j
  obtain ⟨q, delivered, forgotten⟩ := State.deliverRecovery_stays stay'
  have seq : ((s.lineBack l).handOnAll.deliverRecovery l).seq g = (s.lineBack l).handOnAll.seq g := by
    rw [forgotten g]
    exact Sequencer.forget_step (by rw [kept]) (by rw [kept]; exact empty) l
  have line : (s.recoverLine l).settle.line l = (s.lineBack l).handOnAll.line l := by
    rw [State.line_settle, State.recoverLine_eq, delivered, State.line_withSeqs]
  have zone : (s.recoverLine l).settle.zone g = (s.lineBack l).handOnAll.zone g := by
    rw [State.zone_settle, State.recoverLine_eq, delivered, State.zone_withSeqs]
  have aside : Aside g s (s.lineBack l) := {}
  have k := handed.congr (s := s) (fun x y => by rw [State.line_lineBack]) aside rfl rfl line zone
    ((State.seq_settle ..).trans seq)
  exact ⟨k.line, k.waits, k.lowers⟩

variable {h : HeadId} {p : PlatenId} {w : Working} {r : PolishRecord} {tr : Option Position}

/-- What the recovery finds of the step that the fault of line l suspended (R121, R123). -/
structure State.FaultSaved (s : State) (l : LineId) (h : HeadId) (p : PlatenId) (w : Working) (r : PolishRecord)
    (tr : Option Position) : Prop where
  running : (s.seq h).state = .running
  busy : (s.seq h).activity = some (.intervention .rinse [.lineFault l] none)
  saved : (s.seq h).stack = [⟨.step w, tr⟩]
  kind : w.record.kind = .polish r
  line : r.line = .line l
  platen : w.platen = some p
  station : w.station = .platen p
  stands : (s.carrier h).position = .stands (.platen p)
  vacuum : (s.seq h).vacuum = true
  clear : s.trip.tripped = false

theorem State.FaultSaved.congr (k : s.FaultSaved l h p w r tr) {t : State} (aside : Aside h s t) (trip : t.trip = s.trip) :
    t.FaultSaved l h p w r tr :=
  ⟨aside.seq ▸ k.running, aside.seq ▸ k.busy, aside.seq ▸ k.saved, k.kind, k.line, k.platen, k.station,
    aside.carrier ▸ k.stands, aside.seq ▸ k.vacuum, trip ▸ k.clear⟩

theorem State.FaultSaved.recovers (k : s.FaultSaved l h p w r tr) :
    s.recoverHead l h = (s.restored l h w r p).enterAcquire h :=
  State.recoverHead_polish k.running k.busy k.saved k.kind k.platen k.station k.stands k.vacuum

theorem State.FaultSaved.polishes (k : s.FaultSaved l h p w r tr) :
    (s.restored l h w r p).polishing h = some (w.popped, r, p) :=
  State.polishing_reclaimed (s := s.setSeq h ((s.seq h).forget l)) (by rw [State.seq_setSeq_self]; exact k.running)
    k.stands k.kind []

theorem State.FaultSaved.up (_ : s.FaultSaved l h p w r tr) : (s.restored l h w r p).isDown h = false :=
  State.isDown_reclaimed ..


theorem State.base_restored (s : State) (l : LineId) (h : HeadId) (w : Working) (r : PolishRecord) (p : PlatenId) :
    (s.restored l h w r p).base p = (s.base p).own h w.accrued w.limit r.clock :=
  State.base_reclaimed (s.setSeq h ((s.seq h).forget l)) h [] w r p

/-- The step binds its line again and goes DOWN into GAP (R92, R123). -/
theorem State.FaultSaved.regains (k : s.FaultSaved l h p w r tr) (idle : (s.line l).state = .idle)
    (empty : ∀ j, (s.line j).wait = []) (moving : (s.base p).stalled = false)
    (forward : (s.base p).direction = .forward) (within : (s.cond p).position ≤ (s.base p).config.keepOut)
    (gap : 0 < r.gap) :
    (∀ g, g ≠ h → (s.recoverHead l h).seq g = s.seq g) ∧
      (s.recoverHead l h).line l = { s.line l with state := .bound p h r.flow } ∧
      (s.recoverHead l h).isDown h = true ∧
      (s.recoverHead l h).base p = (s.base p).own h w.accrued w.limit r.clock ∧
      ∃ v : Working, (s.recoverHead l h).seq h = { s.seq h with activity := some (.step v), stack := [] } ∧
        v.phase = some .gap ∧ v.index = w.index ∧ v.interventions = w.interventions ∧
        v.gapRemaining = if r.gap < (s.base p).config.lead then (s.base p).config.lead else r.gap := by
  have line : ∀ j, (s.restored l h w r p).line j = s.line j := fun j => State.line_restored s l h w r p j
  have base := State.base_restored s l h w r p
  have arm : ((s.restored l h w r p).cond p).position = (s.cond p).position :=
    State.armPosition_reclaimed (s.setSeq h ((s.seq h).forget l)) h [] w r p p
  have trip : (s.restored l h w r p).trip = s.trip := State.trip_reclaimed (s.setSeq h ((s.seq h).forget l)) h [] w r p
  have free : (s.restored l h w r p).IdleLinesFree := State.idleLinesFree_of_empty fun j => by rw [line]; exact empty j
  have ready : (s.restored l h w r p).lineReady p r.line := by
    rw [k.line]
    exact .inr ⟨by rw [line]; exact idle, by rw [line]; exact empty l, by rw [trip]; exact k.clear⟩
  have calm : ((s.restored l h w r p).base p).stalled = false ∧
      ((s.restored l h w r p).base p).direction = .forward := by
    rw [base]
    exact ⟨moving, forward⟩
  obtain ⟨seq, down, lines, bases⟩ := State.enterAcquire_gap k.polishes k.up ready free (by rw [arm, base]; exact within)
    calm.1 calm.2 (by rw [trip]; exact k.clear) (effectiveGap_pos gap ..)
  have others : ∀ g, g ≠ h → Aside g s ((s.restored l h w r p).enterAcquire h) := fun g ne => by
    rw [State.enterAcquire_goes k.polishes k.up ready free (.inr calm)]
    exact ((State.aside_restored s l w r p (Ne.symm ne)).trans (State.aside_supplied _ p _ r (Ne.symm ne))).trans
      (.toKeepout _ (Ne.symm ne))
  rw [k.recovers]
  refine ⟨fun g ne => (others g ne).seq, ?_, down, (bases p).trans base,
    (w.popped.acquiring r ((s.restored l h w r p).diskUsable p)).inGap r ((s.restored l h w r p).base p).config.lead,
    ?_, rfl, rfl, rfl, ?_⟩
  · rw [lines, State.line_supplied _ h p w.popped k.line (by rw [line]; exact idle), line]
  · rw [seq, State.seq_restored]
  · show (effectiveGap r ((s.restored l h w r p).base p).config.lead false).1 = _
    rw [base, effectiveGap_eq, k.line]
    simp only [reduceCtorEq, Bool.false_eq_true, false_or]
    show (if (s.base p).config.lead ≤ r.gap then (r.gap, false) else ((s.base p).config.lead, true)).1 = _
    by_cases long : (s.base p).config.lead ≤ r.gap
    · rw [if_pos long, if_neg (Nat.not_lt.2 long)]
    · rw [if_neg long, if_pos (Nat.not_le.1 long)]

/-- The step joins the tail of the wait list of its line, which is bound to another nozzle (R79, R92, R123). -/
theorem State.FaultSaved.rejoins (k : s.FaultSaved l h p w r tr) {m : NozzleId} {g : HeadId} {f : Nat}
    (bound : (s.line l).state = .bound m g f) (other : m ≠ p) (new : p ∉ (s.line l).wait) (free : s.IdleLinesFree) :
    (∀ g, g ≠ h → (s.recoverHead l h).seq g = s.seq g) ∧
      (s.recoverHead l h).line l = { s.line l with wait := (s.line l).wait ++ [p] } ∧
      (s.recoverHead l h).isDown h = false ∧ .lineWait h ∈ ((s.recoverHead l h).port .recipe).notices ∧
      ∃ v : Working, (s.recoverHead l h).seq h = { s.seq h with activity := some (.step v), stack := [] } ∧
        v.phase = some .acquireLine ∧ v.index = w.index := by
  have line : ∀ j, (s.restored l h w r p).line j = s.line j := fun j => State.line_restored s l h w r p j
  have queues := State.enterAcquire_queues k.polishes k.line
    (by rw [line, Line.feeds, bound]; exact decide_eq_false other) k.up (.inl ⟨m, g, f, by rw [line]; exact bound⟩)
  have quiet : ((((s.restored l h w r p).asked h p w.popped r).setLine l (((s.restored l h w r p).line l).join p)).raise
      .recipe (.lineWait h)).IdleLinesFree := by
    intro j
    rw [State.line_raise, State.line_setLine]
    split
    · rw [Line.join_of_not_mem (by rw [line]; exact new), line, bound]
      exact fun idle => by cases idle
    · rw [State.line_asked, line]
      exact free j
  have asked := State.seq_asked (s.restored l h w r p) h p w.popped r
  rw [State.seq_restored] at asked
  rw [k.recovers, queues, State.handOnAll_of_free quiet]
  refine ⟨fun g ne => ?_, ?_, ?_, State.notice_raise, w.popped.acquiring r ((s.restored l h w r p).diskUsable p), ?_, rfl,
    rfl⟩
  · exact ((State.aside_restored s l w r p (Ne.symm ne)).trans (State.aside_asked _ p _ r (Ne.symm ne))).seq
  · rw [State.line_raise, State.line_setLine_self, Line.join_of_not_mem (by rw [line]; exact new), line]
  · rw [State.isDown_raise]
    exact (State.isDown_asked ..).trans k.up
  · rw [State.seq_raise]
    exact asked

theorem State.FaultSaved.withSeqs (k : s.FaultSaved l h p w r tr) {q : PerHead Sequencer}
    (own : ({ s with seqs := q } : State).seq h = s.seq h) : ({ s with seqs := q } : State).FaultSaved l h p w r tr :=
  k.congr { seq := own } rfl

theorem State.FaultSaved.deliver_regains (k : s.FaultSaved l h p w r tr) (idle : (s.line l).state = .idle)
    (empty : ∀ j, (s.line j).wait = []) (moving : (s.base p).stalled = false)
    (forward : (s.base p).direction = .forward) (within : (s.cond p).position ≤ (s.base p).config.keepOut)
    (gap : 0 < r.gap) (stay : ∀ g, g ≠ h → s.stays l g) :
    (s.deliverRecovery l).line l = { s.line l with state := .bound p h r.flow } ∧
      (s.deliverRecovery l).isDown h = true ∧
      (s.deliverRecovery l).base p = (s.base p).own h w.accrued w.limit r.clock ∧
      ∃ v : Working, (s.deliverRecovery l).seq h = { s.seq h with activity := some (.step v), stack := [] } ∧
        v.phase = some .gap ∧ v.index = w.index ∧ v.interventions = w.interventions ∧
        v.gapRemaining = if r.gap < (s.base p).config.lead then (s.base p).config.lead else r.gap := by
  have regains (q : PerHead Sequencer) (own : ({ s with seqs := q } : State).seq h = s.seq h) :=
    (k.withSeqs own).regains idle empty moving forward within gap
  obtain ⟨q, q', own, delivered, seq⟩ := State.deliverRecovery_one stay fun q own => (regains q own).1
  obtain ⟨-, bound, down, base, v, resumed, facts⟩ := regains q own
  refine ⟨?_, ?_, ?_, v, ?_, facts⟩
  · rw [delivered]
    exact bound
  · rw [delivered]
    exact down
  · rw [delivered]
    exact base
  · rw [seq, resumed, own]

theorem State.FaultSaved.deliver_rejoins (k : s.FaultSaved l h p w r tr) {m : NozzleId} {g : HeadId} {f : Nat}
    (bound : (s.line l).state = .bound m g f) (other : m ≠ p) (new : p ∉ (s.line l).wait) (free : s.IdleLinesFree)
    (stay : ∀ g, g ≠ h → s.stays l g) :
    (s.deliverRecovery l).line l = { s.line l with wait := (s.line l).wait ++ [p] } ∧
      (s.deliverRecovery l).isDown h = false ∧ .lineWait h ∈ ((s.deliverRecovery l).port .recipe).notices ∧
      ∃ v : Working, (s.deliverRecovery l).seq h = { s.seq h with activity := some (.step v), stack := [] } ∧
        v.phase = some .acquireLine ∧ v.index = w.index := by
  have rejoins (q : PerHead Sequencer) (own : ({ s with seqs := q } : State).seq h = s.seq h) :=
    (k.withSeqs own).rejoins bound other new free
  obtain ⟨q, q', own, delivered, seq⟩ := State.deliverRecovery_one stay fun q own => (rejoins q own).1
  obtain ⟨-, joined, up, notice, v, resumed, facts⟩ := rejoins q own
  refine ⟨?_, ?_, ?_, v, ?_, facts⟩
  · rw [delivered]
    exact joined
  · rw [delivered]
    exact up
  · rw [delivered]
    exact notice
  · rw [seq, resumed, own]

end

/-- Settles O43: a recovery that finds no timer does nothing; otherwise the line is free again, goes to the nozzle that
waited longest, and the step that its fault suspended asks for it again. -/
theorem lineRecovery : Obligations.LineRecovery := by
  unfold Obligations.LineRecovery
  refine ⟨fun s l still => ?_, fun s l n faulted empty stay => ?_,
    fun s l n h p w r tr faulted empty stay running busy saved kind line noSweep platen station stands vacuum clear moving
      forward within gap => ?_,
    fun s l n faulted clear free stay => ?_,
    fun s l n h p w r tr m rest g x k faulted wait new free on polishes empty moving forward stay running busy saved kind
      line platen station stands vacuum clear => ?_⟩
  case _ =>
    show Host.Outcome.next (s.recoveryExpiry l).settle = _
    rw [State.recoveryExpiry_not still]
  case _ =>
    obtain ⟨back, states⟩ := State.recoverLine_stays empty stay
    refine ⟨(s.recoverLine l).settle, ?_, ?_, fun g => ?_⟩
    · show Host.Outcome.next (s.recoveryExpiry l).settle = _
      rw [State.recoveryExpiry_of faulted]
    · rw [State.line_settle, back]
    · rw [State.seq_settle, states]
  case _ =>
    have none : (s.lineBack l).handOnAll = s.lineBack l := State.handOnAll_of_free (State.idleLinesFree_lineBack empty)
    have fault : (s.lineBack l).FaultSaved l h p w r tr :=
      ⟨running, busy, saved, kind, line, platen, station, stands, vacuum, clear⟩
    obtain ⟨bound, down, base, v, resumed, phase, index, interventions, remaining⟩ := fault.deliver_regains
      (congrArg Line.state (State.line_lineBack s l)) (fun j => by
        rw [State.lineBack, State.line_setLine]
        split
        · exact empty l
        · exact empty j) moving forward within gap stay
    rw [State.line_lineBack] at bound
    rw [← none, ← State.recoverLine_eq] at bound down base resumed
    refine ⟨(s.recoverLine l).settle, v, ?_, ?_, ?_, ?_, ?_, phase, index, interventions, remaining, ?_, ?_⟩
    · show Host.Outcome.next (s.recoveryExpiry l).settle = _
      rw [State.recoveryExpiry_of faulted]
    · exact (State.line_settle ..).trans bound
    · exact (State.isDown_settle ..).trans down
    · rw [State.seq_settle, resumed]
    · rw [State.seq_settle, resumed]
    · rw [(SettleKept.settle _).accumulator, base]
      rfl
    · rw [(SettleKept.settle _).owner, base]
      rfl
  case _ =>
    refine ⟨(s.recoverLine l).settle, ?_, State.handedOn_recovery clear free stay⟩
    show Host.Outcome.next (s.recoveryExpiry l).settle = _
    rw [State.recoveryExpiry_of faulted]
  case _ =>
    have wait' : ((s.lineBack l).line l).wait = m :: rest := by rw [State.line_lineBack]; exact wait
    have idle : ((s.lineBack l).line l).state = .idle := by rw [State.line_lineBack]
    have polishes' : (s.lineBack l).polishing g = some (x, k, m) := (Aside.polishing {}).trans polishes
    have ne : g ≠ h := fun e => by
      rw [e, State.polishing_of_intervention busy] at polishes
      cases polishes
    obtain ⟨all, lines⟩ := State.handOnAll_bound (s := s.lineBack l) clear idle (State.others_lineBack free) wait' on
      polishes' (.inr ⟨moving, forward⟩)
    obtain ⟨y, kept⟩ : (s.lineBack l).stepKept (s.lineBack l).handOnAll g := by
      rw [all]
      exact State.stepKept_toKeepout (s := (s.lineBack l).boundTo l m rest g k.flow)
        ((State.polishing_boundTo ..).trans polishes') (.inr ⟨moving, forward⟩)
    have aside : ∀ j, j ≠ g → Aside j s (s.lineBack l).handOnAll := fun j other => by
      have given : Aside j s ((s.lineBack l).boundTo l m rest g k.flow) := {}
      rw [all]
      exact given.trans (.toKeepout _ (Ne.symm other))
    have line' : ∀ j, (s.lineBack l).handOnAll.line j =
        if j = l then { s.line l with state := .bound m g k.flow, wait := rest } else s.line j := fun j => by
      rw [State.line, lines]
      show ((s.lineBack l).setLine l { (s.lineBack l).line l with state := .bound m g k.flow, wait := rest }).line j = _
      rw [State.line_setLine, State.line_lineBack]
      split
      · rfl
      · next other => exact State.line_setLine_ne _ _ other
    have fault : (s.lineBack l).handOnAll.FaultSaved l h p w r tr :=
      State.FaultSaved.congr (s := s) ⟨running, busy, saved, kind, line, platen, station, stands, vacuum, clear⟩
        (aside h (Ne.symm ne)) (Cascade.handOnAll (s.lineBack l)).trip
    have stay' : ∀ j, j ≠ h → (s.lineBack l).handOnAll.stays l j := fun j other => by
      by_cases own : j = g
      · subst own
        intro _ i cs z busy
        rw [kept] at busy
        cases busy
      · unfold State.stays State.isRunning
        rw [(aside j own).seq]
        exact stay j other
    rw [wait] at new
    obtain ⟨other, new⟩ := not_or.1 (mt List.mem_cons.2 new)
    obtain ⟨joined, up, notice, v, resumed, phase, index⟩ := fault.deliver_rejoins
      (by rw [line' l, if_pos rfl]) (Ne.symm other) (by rw [line' l, if_pos rfl]; exact new)
      (fun j => by
        rw [line' j]
        split
        · exact fun bound => by cases bound
        · exact free j) stay'
    rw [line' l, if_pos rfl] at joined
    refine ⟨(s.recoverLine l).settle, v, ?_, ?_, ?_, ?_, ?_, phase, index, State.notice_settle notice⟩
    · show Host.Outcome.next (s.recoveryExpiry l).settle = _
      rw [State.recoveryExpiry_of faulted]
    · exact (State.line_settle ..).trans joined
    · exact (State.isDown_settle ..).trans up
    · rw [State.seq_settle, State.recoverLine_eq, resumed]
    · rw [State.seq_settle, State.recoverLine_eq, resumed]

end Sys2Proof.Machine
end

section
/-!
PROOFS. HOLD (R114 to R119): the PARK and the question it asks, and the contexts that a hold over interventions discards.
-/
namespace Sys2Proof.Machine

/-! ## PARK -/

section
variable {s : State} {h : HeadId} {a : Activity} {c : Cause}

theorem State.acquire_writes (s : State) (h : HeadId) (d : StationId) :
    ∃ x c, (s.acquire h d).1 = { s with stations := x, carriers := c } := by
  obtain ⟨c, forward⟩ := State.forwardMove_writes s h
  unfold State.acquire
  split
  · exact ⟨_, _, rfl⟩
  · split
    · exact ⟨_, c, forward⟩
    · split
      · exact ⟨_, _, rfl⟩
      · exact ⟨_, _, rfl⟩
  · repeat' split
    all_goals exact ⟨_, _, rfl⟩

/-- How the question of a PARK is answered (R119). -/
def State.parkAnswer (s : State) (h : HeadId) : ParkProgress := ((s.liftUp h).acquire h .rinse).2.park

theorem State.parkAsk_aside (s : State) (h g : HeadId) :
    Aside g (((s.liftUp h).acquire h .rinse).1.setPark h (s.parkAnswer h)) (s.parkAsk h) := by
  unfold State.parkAsk
  dsimp only
  split
  · exact .raise ..
  · exact .refl ..

theorem State.seq_parkAsk {k : Intervention} {cs : List Cause} {x : Option ParkProgress}
    (busy : (s.seq h).activity = some (.intervention k cs x)) :
    (s.parkAsk h).seq h = { s.seq h with activity := some (.intervention k cs (some (s.parkAnswer h))) } := by
  obtain ⟨x, c, e⟩ := State.acquire_writes (s.liftUp h) h .rinse
  have seq : ((s.liftUp h).acquire h .rinse).1.seq h = s.seq h := by
    rw [e]
    exact State.seq_liftUp ..
  rw [(State.parkAsk_aside s h h).seq, State.setPark, State.modSeq_eq, State.seq_setSeq_self, seq, busy]
  rfl

theorem State.isDown_parkAsk (s : State) (h : HeadId) : (s.parkAsk h).isDown h = false := by
  obtain ⟨x, c, e⟩ := State.acquire_writes (s.liftUp h) h .rinse
  have up : (((s.liftUp h).acquire h .rinse).1.setPark h (s.parkAnswer h)).isDown h = false := by
    rw [e]
    exact (State.isDown_setSeq ..).trans ((State.isDown_liftUp ..).trans (if_pos rfl))
  exact (State.parkAsk_aside s h h).isDown.trans up

/-- RINSE is free: the move there is sent (R4, R119). -/
theorem State.parkAsk_granted {o : StationId} (stands : (s.carrier h).position = .stands o) (away : o ≠ .rinse)
    (clear : s.trip.tripped = false) (free : (s.station .rinse).holder = none)
    (inn : (s.station .rinse).inService = true) :
    s.parkAnswer h = .moving ∧
      ((s.parkAsk h).carrier h).position = .inTransit o .rinse (.moving 0 (s.carrier h).moveLimit) := by
  have granted := State.acquire_granted (s := s.liftUp h) (h := h) (d := .rinse) (o := o)
    (by rw [State.carrier_liftUp]; exact stands) away
    (by
      rw [← Bool.not_eq_true, State.closedTo_iff, State.station_liftUp, inn]
      rintro (shut | ⟨p, d, -⟩)
      · cases shut
      · cases d)
    (by rw [State.station_liftUp]; exact free) rfl
  refine ⟨by rw [State.parkAnswer, granted]; rfl, ?_⟩
  rw [(State.parkAsk_aside s h h).carrier, granted]
  show (((((s.liftUp h).modStation .rinse fun r => { r with holder := some (.head h) }).sendMove h o .rinse)).carrier
    h).position = _
  rw [State.sendMove_clear (by
    rw [State.modStation_eq, State.trip_setStation, State.trip_liftUp]
    exact clear), State.modCarrier_eq, State.carrier_setCarrier_self]
  show Position.inTransit o .rinse (.moving 0 ((s.liftUp h).carrier h).moveLimit) = _
  rw [State.carrier_liftUp]

/-! ## A PARK begins -/

theorem Cascade.intervene (s : State) (h : HeadId) (a : Activity) (c : Cause) : Cascade s (s.intervene h a c) :=
  ((((Cascade.suspendStep s h).trans (.leaveWaits ..)).trans (.haltMove ..)).trans (.pushContext ..)).trans (.modSeq {})

theorem State.station_suspendStep (s : State) (h : HeadId) (d : StationId) : (s.suspendStep h).station d = s.station d := by
  obtain ⟨b, q, c, k, r, e⟩ := State.suspendStep_writes s h
  rw [e]
  rfl

theorem State.station_intervene (s : State) (h : HeadId) (a : Activity) (c : Cause) (d : StationId) :
    (s.intervene h a c).station d = (s.station d).leave h := by
  rw [State.intervene, State.modSeq_eq, State.station_setSeq, State.station_pushContext, State.station_haltMove,
    State.station_leaveWaits, State.station_suspendStep]

section
variable (park : c.cls = .park)
include park

theorem State.beginPark_eq (s : State) (h : HeadId) (a : Activity) :
    s.beginIntervention h a c =
      (((s.intervene h a c).parkAsk h).modSeq h Sequencer.bump).raise .recipe (.intervened h) := by
  rw [State.beginIntervention_eq, park]
  rfl

theorem State.seq_beginPark (s : State) (h : HeadId) (a : Activity) :
    (s.beginIntervention h a c).seq h = Sequencer.bump
      { ((s.seq h).push ⟨s.saved h a, (s.carrier h).halt.position.transit?⟩).1 with
        activity := some (.intervention .park [c] (some ((s.intervene h a c).parkAnswer h))) } := by
  rw [State.beginPark_eq park, State.seq_raise, State.modSeq_eq, State.seq_setSeq_self,
    State.seq_parkAsk (k := .park) (cs := [c]) (x := some .queued) (by rw [State.seq_intervene, park]; rfl),
    State.seq_intervene]

theorem State.isDown_beginPark (s : State) (h : HeadId) (a : Activity) : (s.beginIntervention h a c).isDown h = false := by
  rw [State.beginPark_eq park, State.isDown_raise, State.modSeq_eq, State.isDown_setSeq]
  exact State.isDown_parkAsk ..

theorem State.carrier_beginPark (s : State) (h : HeadId) (a : Activity) :
    (s.beginIntervention h a c).carrier h = ((s.intervene h a c).parkAsk h).carrier h := by
  rw [State.beginPark_eq park]
  rfl

/-- What a PARK that begins leaves, whatever lines it frees (R117, R119). -/
theorem State.raiseCause_park (running : (s.seq h).state = .running) (busy : (s.seq h).activity = some a)
    (lower : a.rank < 3) :
    (s.raiseCause h c).seq h = Sequencer.bump
        { ((s.seq h).push ⟨s.saved h a, (s.carrier h).halt.position.transit?⟩).1 with
          activity := some (.intervention .park [c] (some ((s.intervene h a c).parkAnswer h))) } ∧
      (s.raiseCause h c).isDown h = false ∧
      (s.raiseCause h c).carrier h = ((s.intervene h a c).parkAsk h).carrier h ∧
      .intervened h ∈ ((s.raiseCause h c).port .recipe).notices ∧
      (((s.seq h).push ⟨s.saved h a, (s.carrier h).halt.position.transit?⟩).2 = true →
        .contextLost h ∈ ((s.raiseCause h c).port .recipe).notices) := by
  have aside : Aside h (s.beginIntervention h a c) (s.beginIntervention h a c).handOnAll :=
    .handOnAll _ (State.polishing_of_intervention (k := .park) (cs := [c]) (x := some ((s.intervene h a c).parkAnswer h))
      (by rw [State.seq_beginPark park]; rfl))
  rw [State.raiseCause, State.takeCause_begins running busy (by rw [park]; exact lower)]
  exact ⟨aside.seq.trans (State.seq_beginPark park ..), aside.isDown.trans (State.isDown_beginPark park ..),
    aside.carrier.trans (State.carrier_beginPark park ..),
    (Cascade.handOnAll _).notice (State.notice_beginIntervention ..),
    fun full => (Cascade.handOnAll _).notice (State.contextLost_beginIntervention _ _ _ _ full)⟩

end

end

/-! ## O12 -/

section
variable {s : State} {b : List Byte} {h : HeadId} {c : Cause}

theorem exec_hold (o : s.opens .recipe) (len : b.length = 2) (head : headOf (le8 b 0) = some h)
    (cause : holdOf (le8 b 1) = some c) : exec (.hold .recipe b) s = .next (s.reply .recipe (s.hold h c)) := by
  have arm : exec (.hold .recipe b) s = execHold .recipe b s := rfl
  rw [arm, execHold, State.takeRequest_recipe o len, requireField_of head, requireField_of cause]

theorem State.isRunning_of (running : (s.seq h).state = .running) : s.isRunning h = true := decide_eq_true running

theorem State.isRunning_not (other : (s.seq h).state ≠ .running) : s.isRunning h = false := decide_eq_false other

/-- A HOLD that finds its conditions raises its cause (R114). -/
theorem exec_hold_raises (o : s.opens .recipe) (len : b.length = 2) (head : headOf (le8 b 0) = some h)
    (cause : holdOf (le8 b 1) = some c) (running : (s.seq h).state = .running) (rank : s.activityRank h ≤ c.cls.rank)
    (phase : c ≠ .holdRinse ∨ s.inPolishPhase h = true) :
    exec (.hold .recipe b) s = .next ((s.raiseCause h c).accepted .recipe) := by
  have phase' : (!decide (c = .holdRinse) || s.inPolishPhase h) = true := by
    rw [Bool.or_eq_true, Bool.not_eq_true', decide_eq_false_iff_not]
    exact phase
  rw [exec_hold o len head cause, State.hold, require_of (State.isRunning_of running),
    require_of (decide_eq_true rank), State.reply_require_accept phase']

theorem State.activityRank_of {a : Activity} (busy : (s.seq h).activity = some a) : s.activityRank h = a.rank := by
  rw [State.activityRank, busy]
  rfl

theorem Sequencer.bump_step {q : Sequencer} {w : Working} {tr : Option Position} {x : Activity} (lost : q.lost = none) :
    Sequencer.bump { q with activity := some x, stack := [⟨.step w, tr⟩] } =
      { q with activity := some x, stack := [⟨.step w.bump, tr⟩] } := by
  simp only [Sequencer.bump, lost]
  rfl

theorem Sequencer.push_discards {q : Sequencer} {k : Context} {ks : Context} {w : Working} {tw : Option Position}
    (full : q.stack = [ks, ⟨.step w, tw⟩]) :
    q.push k = ({ q with stack := [k, ks], lost := some w.lose }, true) := by
  rw [Sequencer.push, full]
  rfl

theorem Working.lostBy_eq (w : Working) :
    w.lostBy = { w.lose with interventions := satSucc 255 w.lose.interventions } := by
  unfold Working.lostBy Working.lose
  congr 1
  unfold StepRecord.line
  cases w.record.kind <;> rfl

theorem State.takeCause_joins {k : Intervention} {cs : List Cause} {x : Option ParkProgress}
    (running : (s.seq h).state = .running) (busy : (s.seq h).activity = some (.intervention k cs x)) (same : c.cls = k) :
    s.takeCause h c = s.modSeq h fun q =>
      { q with activity := some (.intervention k (if c ∈ cs then cs else cs ++ [c]) x) } := by
  have on : s.isRunning h = true := decide_eq_true running
  have joins : (Activity.intervention k cs x).addCause c = .intervention k (if c ∈ cs then cs else cs ++ [c]) x := by
    rw [Activity.addCause]
    split <;> rfl
  rw [State.takeCause, on, busy]
  subst same
  show (if c.cls.rank < c.cls.rank then _ else if c.cls.rank = c.cls.rank then
    s.modSeq h fun q => { q with activity := some ((Activity.intervention c.cls cs x).addCause c) } else s) = _
  rw [if_neg (Nat.lt_irrefl _), if_pos rfl, joins]

end

/-- Settles O12: HOLD raises its cause, which begins the intervention of its class over the step, or over an intervention of a
lower class, and joins the causes of an intervention of its own. -/
theorem holdSuspendsTheStep : Obligations.HoldSuspendsTheStep := by
  unfold Obligations.HoldSuspendsTheStep
  refine ⟨fun s b h w o len head running busy empty lost => ⟨fun rinse phase => ?_, fun lift => ?_,
      fun d park stands away clear free inn => ?_⟩,
    fun s b h o len head running => ⟨fun k cs x c busy cause other same quiet => ?_,
      fun cs x k ks w tr tw park busy full => ?_⟩,
    fun s b h c o len head cause refused => ?_⟩
  case _ =>
    have room : (s.seq h).stack.length < 2 := by rw [empty]; exact Nat.two_pos
    obtain ⟨seq, down, notice⟩ := State.raiseCause_rinse (c := .holdRinse) rfl running busy room
    rw [exec_hold_raises (c := .holdRinse) o len head (by rw [rinse]; rfl) running
      (by rw [State.activityRank_of busy]; exact Nat.zero_le _) (.inr phase)]
    refine ⟨_, rfl, State.response_accepted .., ?_, ?_, State.notice_accepted notice⟩
    · rw [State.seq_accepted, seq, empty]
      exact Sequencer.bump_step lost
    · rw [State.isDown_accepted, down]
  case _ =>
    have room : (s.seq h).stack.length < 2 := by rw [empty]; exact Nat.two_pos
    obtain ⟨seq, carrier, up, notice⟩ := State.raiseCause_lift (c := .holdLift) rfl running busy Nat.two_pos room
    rw [exec_hold_raises (c := .holdLift) o len head (by rw [lift]; rfl) running
      (by rw [State.activityRank_of busy]; exact Nat.zero_le _) (.inl (by decide))]
    refine ⟨_, rfl, State.response_accepted .., ?_, ?_, ?_, State.notice_accepted notice⟩
    · rw [State.seq_accepted, seq, empty]
      exact Sequencer.bump_step lost
    · rw [State.isDown_accepted, up]
    · rw [State.carrier_accepted, carrier]
  case _ =>
    have room : (s.seq h).stack.length < 2 := by rw [empty]; exact Nat.two_pos
    have still : (s.carrier h).halt = s.carrier h := by rw [Carrier.halt, stands]
    obtain ⟨seq, up, carrier, notice, -⟩ := State.raiseCause_park (c := .holdPark) (s := s) rfl running busy
      (Nat.succ_pos 2)
    obtain ⟨answer, moves⟩ := State.parkAsk_granted (s := s.intervene h (.step w) .holdPark) (h := h) (o := d)
      (by rw [State.carrier_intervene, still]; exact stands) away
      (by rw [(Cascade.intervene ..).trip]; exact clear) (by rw [State.station_intervene]; exact free)
      (by rw [State.station_intervene]; exact inn)
    rw [exec_hold_raises (c := .holdPark) o len head (by rw [park]; rfl) running
      (by rw [State.activityRank_of busy]; exact Nat.zero_le _) (.inl (by decide))]
    refine ⟨_, rfl, State.response_accepted .., ?_, ?_, ?_, State.notice_accepted notice⟩
    · rw [State.seq_accepted, seq, Sequencer.push_of_room room, still, stands, empty, answer]
      exact Sequencer.bump_step lost
    · rw [State.isDown_accepted, up]
    · rw [State.carrier_accepted, carrier, moves, State.carrier_intervene, still]
  case _ =>
    have joins := State.takeCause_joins running busy same
    rw [exec_hold_raises o len head cause running (by rw [State.activityRank_of busy, same]; exact Nat.le_refl _)
      (.inl other), State.raiseCause, joins]
    rw [State.handOnAll_of_free (s := s.modSeq h _) quiet]
  case _ =>
    obtain ⟨seq, up, -, notice, discards⟩ := State.raiseCause_park (c := .holdPark) (s := s) rfl running busy
      (by exact Nat.lt_succ_self 2)
    rw [Sequencer.push_discards full] at seq discards
    rw [exec_hold_raises (c := .holdPark) o len head (by rw [park]; rfl) running
      (by rw [State.activityRank_of busy]; exact (by decide : 2 ≤ 3)) (.inl (by decide))]
    refine ⟨_, (s.intervene h (.intervention .lift cs x) .holdPark).parkAnswer h, rfl, State.response_accepted .., ?_, ?_,
      State.notice_accepted (discards rfl), State.notice_accepted notice⟩
    · rw [State.seq_accepted, seq, Working.lostBy_eq]
      rfl
    · rw [State.isDown_accepted, up]
  case _ =>
    rw [exec_hold o len head cause, State.hold]
    by_cases running : (s.seq h).state = .running
    · rw [require_of (State.isRunning_of running)]
      obtain higher | ⟨rinse, phase⟩ := refused.resolve_left (not_not_intro running)
      · rw [State.reply_require_not (decide_eq_false (Nat.not_le.2 higher))]
      · subst rinse
        by_cases rank : s.activityRank h ≤ Cause.holdRinse.cls.rank
        · rw [require_of (decide_eq_true rank), State.reply_require_not (by rw [phase]; rfl)]
        · rw [State.reply_require_not (decide_eq_false rank)]
    · rw [State.reply_require_not (State.isRunning_not running)]

end Sys2Proof.Machine
end

section
/-!
PROOFS. The module trip (R128 to R130): the work before the heads, the TRIP that each running head takes, and that the heads
do it apart from one another.
-/
namespace Sys2Proof.Machine

/-! ## Runs that are suspended -/

/-- No head writes the arm of a suspended ex-situ run (R148, R149). -/
theorem Acts.suspended {W : HeadId → Prop} {D : StationId → Prop} {s t : State} {p : PlatenId} {m : ArmMotion}
    (k : Acts W D s t) (suspended : (s.cond p).arm = .suspended .exSitu m) :
    (t.cond p).arm = .suspended .exSitu m := by
  induction k with
  | refl s => exact suspended
  | trans _ _ first second => exact second (first suspended)
  | outer q =>
    rw [State.cond_refreshOuter]
    split
    · next own =>
      subst own
      rw [Conditioner.decided_resting (by rw [suspended]; rfl)]
      exact suspended
    · exact suspended
  | stow q mode =>
    rw [State.cond_setCond_ne _ _ fun own => by rw [← own, suspended] at mode; cases mode]
    exact suspended
  | @sweep W D s j q stands =>
    by_cases own : p = q
    · subst own
      rw [State.cond_setCond_self, Conditioner.beginSweep, suspended]
      exact suspended
    · rw [State.cond_setCond_ne _ _ own]
      exact suspended
  | called _ _ acts => exact acts suspended
  | _ => exact suspended

/-! ## What a head does beside another -/

/-- Head h is left as it is, with what its platen holds for its step (R58). -/
structure Beside (h : HeadId) (s t : State) : Prop extends Aside h s t where
  collect : ∀ w, t.collect h w = s.collect h w

section
variable {h g : HeadId} {s t u : State}

theorem Beside.refl (h : HeadId) (s : State) : Beside h s s := ⟨.refl h s, fun _ => rfl⟩

theorem Beside.trans (a : Beside h s t) (b : Beside h t u) : Beside h s u :=
  ⟨a.toAside.trans b.toAside, fun w => (b.collect w).trans (a.collect w)⟩

theorem Beside.foldl {α : Type} {f : State → α → State} {xs : List α} (k : ∀ s, ∀ x ∈ xs, Beside h s (f s x)) (s : State) :
    Beside h s (xs.foldl f s) := by
  induction xs generalizing s with
  | nil => exact .refl h s
  | cons x xs ih =>
    exact (k s x List.mem_cons_self).trans (ih (fun s y mem => k s y (List.mem_cons_of_mem _ mem)) _)

theorem State.collect_of_bases (bases : t.bases = s.bases) (h : HeadId) (w : Working) : t.collect h w = s.collect h w := by
  have base : ∀ p, t.base p = s.base p := fun p => congrArg (fun x => PerPlaten.get x p) bases
  exact State.collect_congr (fun p => by rw [base]) (fun p => by rw [base]) (fun p => by rw [base]) h w

theorem State.owner_of_ownedPlaten {p : PlatenId} (owned : s.ownedPlaten h = some p) :
    (s.base p).owner.map Owner.head = some h :=
  of_decide_eq_true
    (List.find?_some (p := fun p => decide (((s.base p).owner.map Owner.head) = some h)) owned)

/-- A head that gives up its own platen leaves the platen of another (R58). -/
theorem State.collect_disown (s : State) (ne : g ≠ h) (w : Working) : (s.disown g).collect h w = s.collect h w := by
  unfold State.disown
  cases owned : s.ownedPlaten g with
  | none => rfl
  | some q =>
    have owner := State.owner_of_ownedPlaten owned
    have kept : ∀ p, p ≠ q → (s.modBase q Timebase.disown).base p = s.base p := fun p other =>
      State.base_setBase_ne _ _ other
    have same : (s.modBase q Timebase.disown).ownedPlaten h = s.ownedPlaten h := by
      unfold State.ownedPlaten
      congr 1
      funext p
      by_cases own : p = q
      · subst own
        rw [owner, State.modBase_eq, State.base_setBase_self]
        simp [Timebase.disown, ne]
      · rw [kept p own]
    unfold State.collect
    dsimp only
    rw [same]
    cases mine : s.ownedPlaten h with
    | none => rfl
    | some p =>
      have other : p ≠ q := fun e => by
        have owner' := State.owner_of_ownedPlaten mine
        rw [e, owner] at owner'
        exact ne (Option.some.inj owner')
      dsimp only
      rw [kept p other]

theorem State.bases_suspendStep (s : State) (g : HeadId) : (s.suspendStep g).bases = (s.disown g).bases := by
  obtain ⟨q, r, closed⟩ := State.closeWatchOf_writes (s.disown g) g
  obtain ⟨c, withdrawn⟩ := State.withdraw_writes ((s.disown g).closeWatchOf g) g
  obtain ⟨k, dropped⟩ := State.dropLine_writes (((s.disown g).closeWatchOf g).withdraw g) g
  rw [State.suspendStep, dropped, withdrawn, closed]

theorem State.bases_pushContext (s : State) (g : HeadId) (c : Context) : (s.pushContext g c).bases = s.bases := by
  rw [State.pushContext_eq]
  split <;> rfl

theorem State.bases_beginTrip (s : State) (g : HeadId) (a : Activity) :
    (s.beginIntervention g a .interlock).bases = (s.disown g).bases := by
  have intervened : (s.intervene g a .interlock).bases = (s.suspendStep g).bases :=
    State.bases_pushContext (((s.suspendStep g).leaveWaits g).haltMove g) g _
  rw [← State.bases_suspendStep, ← intervened, State.beginIntervention_eq]
  exact State.bases_liftUp (s.intervene g a .interlock) g

/-- A head that takes the trip leaves every other head as it is (R130). -/
theorem Beside.takeTrip (s : State) (ne : g ≠ h) : Beside h s (s.takeCause g .interlock) := by
  refine ⟨.takeCause _ _ ne, fun w => ?_⟩
  unfold State.takeCause
  repeat' split
  · rfl
  · rfl
  · exact (State.collect_of_bases (State.bases_beginTrip ..) h w).trans (State.collect_disown s ne w)
  · rfl
  · rfl

end

/-! ## The lines at a trip -/

section
variable {s : State} {h : HeadId}

/-- No nozzle joins a wait list. -/
def State.fewerWait (s t : State) : Prop := ∀ l, (t.line l).wait ⊆ (s.line l).wait

theorem State.fewerWait_mapLines (s : State) {f : Line → Line} (fewer : ∀ k, (f k).wait ⊆ k.wait) :
    s.fewerWait { s with lines := s.lines.map f } := fun l => by
  rw [State.line, PerLine.get_map]
  exact fewer _

theorem State.fewerWait_dropLine (s : State) (h : HeadId) : s.fewerWait (s.dropLine h) := by
  have released : s.fewerWait { s with lines := s.lines.map fun k => k.release h } :=
    State.fewerWait_mapLines s fun k => by
      rw [Line.release]
      split <;> exact List.Subset.refl _
  unfold State.dropLine
  cases s.platenOf h with
  | none => exact released
  | some n =>
    have left := State.fewerWait_mapLines { s with lines := s.lines.map fun k => k.release h } (f := fun k => k.leave n)
      fun k => List.filter_subset_self _
    exact fun l => List.Subset.trans (left l) (released l)

theorem State.fewerWait_of_lines {t : State} (lines : t.lines = s.lines) : s.fewerWait t := fun l => by
  rw [State.line, lines]
  exact List.Subset.refl _

theorem State.fewerWait_beginTrip (s : State) (h : HeadId) (a : Activity) :
    s.fewerWait (s.beginIntervention h a .interlock) := by
  obtain ⟨b, owned⟩ := State.disown_writes s h
  obtain ⟨q, r, closed⟩ := State.closeWatchOf_writes (s.disown h) h
  obtain ⟨c, withdrawn⟩ := State.withdraw_writes ((s.disown h).closeWatchOf h) h
  have before : (((s.disown h).closeWatchOf h).withdraw h).lines = s.lines := by rw [withdrawn, closed, owned]
  have pushed (t : State) (k : Context) : (t.pushContext h k).lines = t.lines := by
    rw [State.pushContext_eq]
    split <;> rfl
  have after : (s.beginIntervention h a .interlock).lines = (s.suspendStep h).lines := by
    have intervened : (s.intervene h a .interlock).lines = (s.suspendStep h).lines :=
      pushed (((s.suspendStep h).leaveWaits h).haltMove h) _
    rw [← intervened, State.beginIntervention_eq]
    exact State.lines_liftUp (s.intervene h a .interlock) h
  intro l
  have dropped := State.fewerWait_dropLine (((s.disown h).closeWatchOf h).withdraw h) h l
  rw [State.line, after]
  have same : (((s.disown h).closeWatchOf h).withdraw h).line l = s.line l := congrArg (fun x => PerLine.get x l) before
  rw [same] at dropped
  exact dropped

theorem State.fewerWait_takeTrip (s : State) (h : HeadId) : s.fewerWait (s.takeCause h .interlock) := by
  unfold State.takeCause
  repeat' split
  · exact State.fewerWait_of_lines rfl
  · exact State.fewerWait_of_lines rfl
  · exact State.fewerWait_beginTrip s h _
  · exact State.fewerWait_of_lines rfl
  · exact State.fewerWait_of_lines rfl

theorem State.fewerWait_foldl {f : State → HeadId → State} (k : ∀ (s : State) h, s.fewerWait (f s h)) (hs : List HeadId) (s : State) :
    s.fewerWait (hs.foldl f s) := by
  induction hs generalizing s with
  | nil => exact State.fewerWait_of_lines rfl
  | cons h hs ih => exact fun l => List.Subset.trans (ih (f s h) l) (k s h l)

end

/-! ## The work of the trip -/

/-- The module tripped and its notices raised (R129). -/
def State.tripAnnounced (s : State) : State :=
  ((s.setTrip { s.trip with tripped := true }).raise .recipe .tripped).raise .transfer .tripped

/-- The moves halted, the lines given back and the arms suspended (R14, R86, R148). -/
def State.tripHalted (t : State) : State :=
  platenIds.foldl (fun x p => x.modCond p fun c => c.suspend (x.base p).config)
    { headIds.foldl State.haltMove t with lines := (headIds.foldl State.haltMove t).lines.map Line.tripped }

/-- The work of the trip before the heads take it (R129). -/
def State.tripBegun (s : State) : State := s.tripAnnounced.tripHalted

theorem State.tripModule_eq (s : State) :
    s.tripModule = headIds.foldl State.liftUp (headIds.foldl (fun x h => x.takeCause h .interlock) s.tripBegun) := rfl

section
variable (s : State)

theorem State.seq_tripHalted (h : HeadId) : s.tripHalted.seq h = s.seq h := rfl
theorem State.zone_tripHalted (h : HeadId) : s.tripHalted.zone h = s.zone h := rfl
theorem State.bases_tripHalted : s.tripHalted.bases = s.bases := rfl
theorem State.carrier_tripHalted (h : HeadId) : s.tripHalted.carrier h = (s.carrier h).halt := by cases h <;> rfl
theorem State.line_tripHalted (l : LineId) : s.tripHalted.line l = (s.line l).tripped := by cases l <;> rfl
theorem State.cond_tripHalted (p : PlatenId) : s.tripHalted.cond p = (s.cond p).suspend (s.base p).config := by
  cases p <;> rfl

theorem State.aside_tripAnnounced (h : HeadId) : Aside h s s.tripAnnounced :=
  (Aside.trans {} (.raise _ .recipe .tripped)).trans (.raise _ .transfer .tripped)

theorem State.seq_tripBegun (h : HeadId) : s.tripBegun.seq h = s.seq h := (s.aside_tripAnnounced h).seq

theorem State.bases_tripBegun : s.tripBegun.bases = s.bases := rfl

theorem State.carrier_tripBegun (h : HeadId) : s.tripBegun.carrier h = (s.carrier h).halt := by
  rw [State.tripBegun, State.carrier_tripHalted, (s.aside_tripAnnounced h).carrier]

theorem State.line_tripBegun (l : LineId) : s.tripBegun.line l = (s.line l).tripped := by
  rw [State.tripBegun, State.line_tripHalted, State.tripAnnounced, State.line_raise, State.line_raise, State.line_setTrip]

theorem State.cond_tripBegun (p : PlatenId) : s.tripBegun.cond p = (s.cond p).suspend (s.base p).config := by
  rw [State.tripBegun, State.cond_tripHalted, State.tripAnnounced, State.cond_raise, State.cond_raise, State.cond_setTrip,
    State.base_raise, State.base_raise, State.base_setTrip]

end

theorem Line.wait_tripped (k : Line) : k.tripped.wait = [] := by
  unfold Line.tripped
  split <;> rfl

theorem Carrier.halt_halt (c : Carrier) : c.halt.halt = c.halt := by
  obtain ⟨position, -, -, -⟩ := c
  cases position with
  | inTransit o d st => cases st <;> rfl
  | unplaced | stands d => rfl

section
variable {s : State} {h : HeadId}

/-- The heads take the trip one after another, head h from the state that the trip's work before the heads has made (R130). -/
theorem State.takeTrips (s : State) (h : HeadId) :
    ∃ u, Beside h s u ∧ Aside h (u.takeCause h .interlock) (headIds.foldl (fun x g => x.takeCause g .interlock) s) ∧
      Cascade s u ∧
      Cascade (u.takeCause h .interlock) (headIds.foldl (fun x g => x.takeCause g .interlock) s) := by
  obtain ⟨pre, post, split⟩ := List.append_of_mem (show h ∈ headIds by cases h <;> decide)
  have nodup : (pre ++ h :: post).Nodup := split ▸ (by decide : headIds.Nodup)
  obtain ⟨-, second, distinct⟩ := List.nodup_append.1 nodup
  have later : h ∉ post := (List.nodup_cons.1 second).1
  refine ⟨pre.foldl (fun x g => x.takeCause g .interlock) s, ?_, ?_, ?_, ?_⟩
  · exact .foldl (fun t g mem => .takeTrip t fun e => distinct g mem h List.mem_cons_self e) s
  · rw [split, List.foldl_append, List.foldl_cons]
    exact (Beside.foldl (h := h) (fun t g mem => .takeTrip t (by rintro rfl; exact later mem)) _).toAside
  · exact .foldl (fun _ _ => .takeCause ..) _ _
  · rw [split, List.foldl_append, List.foldl_cons]
    exact .foldl (fun _ _ => .takeCause ..) _ _

/-- The last work of the trip lifts every head and touches neither sequencer nor carrier (R128). -/
theorem State.seq_liftAll (s : State) (h : HeadId) : (headIds.foldl State.liftUp s).seq h = s.seq h := by
  simp only [headIds, List.foldl, State.seq_liftUp]

theorem State.carrier_liftAll (s : State) (h : HeadId) : (headIds.foldl State.liftUp s).carrier h = s.carrier h := by
  simp only [headIds, List.foldl, State.carrier_liftUp]

theorem Carrier.halt_takeTrip (halted : (s.carrier h).halt = s.carrier h) :
    (s.takeCause h .interlock).carrier h = s.carrier h := by
  unfold State.takeCause
  repeat' split
  · rfl
  · rfl
  · rw [State.carrier_beginIntervention (by decide), halted]
  · rfl
  · rfl

/-- Every move is halted (R14, R129). -/
theorem State.carrier_tripModule (s : State) (h : HeadId) : s.tripModule.carrier h = (s.carrier h).halt := by
  obtain ⟨u, before, after, -⟩ := s.tripBegun.takeTrips h
  have carrier : u.carrier h = (s.carrier h).halt := before.carrier.trans (State.carrier_tripBegun ..)
  rw [State.tripModule_eq, State.carrier_liftAll, after.carrier,
    Carrier.halt_takeTrip (by rw [carrier, Carrier.halt_halt]), carrier]

/-- A head that is not RUNNING keeps its sequencer (R130). -/
theorem State.seq_tripModule_not (other : (s.seq h).state ≠ .running) : s.tripModule.seq h = s.seq h := by
  obtain ⟨u, before, after, -⟩ := s.tripBegun.takeTrips h
  have seq : u.seq h = s.seq h := before.seq.trans (State.seq_tripBegun ..)
  have still : u.takeCause h .interlock = u := by
    rw [State.takeCause, State.isRunning, seq, decide_eq_false other]
    rfl
  rw [State.tripModule_eq, State.seq_liftAll, after.seq, still, seq]

/-- A RUNNING head saves its activity under a TRIP (R130). -/
theorem State.tripModule_begins {a : Activity} (running : (s.seq h).state = .running)
    (busy : (s.seq h).activity = some a) (lower : a.rank < 4) :
    s.tripModule.seq h = Sequencer.bump
        { ((s.seq h).push ⟨s.saved h a, (s.carrier h).halt.position.transit?⟩).1 with
          activity := some (.intervention .trip [.interlock] none) } ∧
      .intervened h ∈ (s.tripModule.port .recipe).notices ∧
      (((s.seq h).push ⟨s.saved h a, (s.carrier h).halt.position.transit?⟩).2 = true →
        .contextLost h ∈ (s.tripModule.port .recipe).notices) := by
  obtain ⟨u, before, after, -, cascade⟩ := s.tripBegun.takeTrips h
  have seq : u.seq h = s.seq h := before.seq.trans (State.seq_tripBegun ..)
  have begins := State.takeCause_begins (c := .interlock) (by rw [seq]; exact running) (by rw [seq]; exact busy) lower
  have carrier : (u.carrier h).halt = (s.carrier h).halt := by
    rw [before.carrier, State.carrier_tripBegun, Carrier.halt_halt]
  have saved : u.saved h a = s.saved h a := by
    cases a with
    | step w =>
      show Saved.step (u.collect h w).suspended = .step (s.collect h w).suspended
      rw [before.collect, State.collect_of_bases (State.bases_tripBegun s)]
    | intervention k cs x => rfl
  have lifted : Cascade (headIds.foldl (fun x g => x.takeCause g .interlock) s.tripBegun) s.tripModule :=
    .foldl (fun _ _ => .liftUp ..) _ _
  refine ⟨?_, ?_, fun full => ?_⟩
  · rw [State.tripModule_eq, State.seq_liftAll, after.seq, begins, State.seq_beginIntervention (by decide), seq, saved,
      carrier]
    rfl
  · refine (cascade.trans lifted).notice ?_
    rw [begins]
    exact State.notice_beginIntervention ..
  · refine (cascade.trans lifted).notice ?_
    rw [begins]
    refine State.contextLost_beginIntervention _ _ _ _ ?_
    rw [seq, saved, carrier]
    exact full

theorem State.wait_tripModule (s : State) (l : LineId) : (s.tripModule.line l).wait = [] := by
  have fewer := State.fewerWait_foldl State.fewerWait_takeTrip headIds s.tripBegun l
  have lifted : s.tripModule.lines = (headIds.foldl (fun x h => x.takeCause h .interlock) s.tripBegun).lines := by
    simp only [State.tripModule_eq, headIds, List.foldl, State.lines_liftUp]
  rw [State.line_tripBegun, Line.wait_tripped] at fewer
  rw [State.line, lifted]
  exact List.eq_nil_of_subset_nil fewer

/-- A moving ex-situ run is suspended (R148). -/
theorem State.arm_tripModule {p : PlatenId} {m : ArmMotion} (suspended : (s.tripBegun.cond p).arm = .suspended .exSitu m) :
    (s.tripModule.cond p).arm = .suspended .exSitu m := by
  have taken : Machine.Acts (fun _ => True) (fun _ => True) s.tripBegun
      (headIds.foldl (fun x g => x.takeCause g .interlock) s.tripBegun) :=
    .foldl (fun t g => .takeCause trivial t fun park => by cases park) _ _
  have lifted : Machine.Acts (fun _ => True) (fun _ => True)
      (headIds.foldl (fun x g => x.takeCause g .interlock) s.tripBegun) s.tripModule :=
    .foldl (fun t g => .liftUp trivial t) _ _
  exact (taken.trans lifted).suspended suspended

end

/-! ## O46 -/

section
variable {s : State} {v : Level}

theorem exec_interlockChange (change : v ≠ s.trip.input) :
    exec (.interlockChange v) s = .next (s.setTrip { s.trip with input := v }).checkTrip.settle := by
  show Host.Outcome.next (if v = s.trip.input then _ else _) = _
  rw [if_neg change]

theorem State.speedWanted_tripped (tripped : s.trip.tripped = true) (p : PlatenId) : s.speedWanted p = 0 := by
  rw [State.speedWanted, tripped]
  rfl

theorem Sequencer.push_discards_intervention {q : Sequencer} {k ks : Context} {j : Intervention} {js : List Cause}
    {tr : Option Position} (full : q.stack = [ks, ⟨.intervention j js, tr⟩]) :
    q.push k = ({ q with stack := [k, ks] }, true) := by
  rw [Sequencer.push, full]
  rfl

end

/-- Settles O46: an input that changes into the trip level does the trip's work, in which each head takes its TRIP apart from
the others. -/
theorem interlockTrips : Obligations.InterlockTrips := by
  unfold Obligations.InterlockTrips
  refine fun s v => ⟨fun same => ?_, fun change quiet => ?_, fun change clear level => ?_⟩
  case _ =>
    show Host.Outcome.next (if v = s.trip.input then s else _) = _
    rw [if_pos same]
  case _ =>
    rw [exec_interlockChange change, State.checkTrip_of_clear quiet]
  case _ =>
    have trips : (s.setTrip { s.trip with input := v }).checkTrip = (s.setTrip { s.trip with input := v }).tripModule :=
      State.checkTrip_of_level clear level
    have trip : (s.setTrip { s.trip with input := v }).tripModule.trip = ⟨v, s.trip.sense, true⟩ :=
      State.tripped_tripModule ..
    obtain ⟨up, -, unbound⟩ := State.tripHolds_tripModule (s.setTrip { s.trip with input := v }) (by rw [trip])
    obtain ⟨recipe, transfer⟩ := State.tripped_raised (s.setTrip { s.trip with input := v })
    refine ⟨_, (exec_interlockChange change).trans (by rw [trips]), (State.trip_settle ..).trans trip,
      State.notice_settle recipe, State.notice_settle transfer, fun p => ?_, fun p sweeping => ?_, fun p deploying => ?_,
      fun l => ?_, fun h => ?_, fun h a running busy lower room => ?_,
      fun h k cs x j js tr c running busy notTrip full => ?_, fun h other => ?_⟩
    · have stop := State.speedWanted_tripped (s := (s.setTrip { s.trip with input := v }).tripModule) (by rw [trip]) p
      rw [State.base_settle, Timebase.speed_setSpeed, stop]
      exact ⟨rfl, Timebase.stop_setSpeed rfl⟩
    · rw [(SettleKept.settle _).arm]
      refine State.arm_tripModule ?_
      rw [State.cond_tripBegun, Conditioner.suspend, State.cond_setTrip, sweeping]
      rfl
    · rw [(SettleKept.settle _).arm]
      refine State.arm_tripModule ?_
      rw [State.cond_tripBegun, Conditioner.suspend, State.cond_setTrip, deploying]
      rfl
    · rw [State.line_settle]
      exact ⟨unbound l, State.wait_tripModule ..⟩
    · rw [State.isDown_settle, State.carrier_settle, up h, State.carrier_tripModule]
      exact ⟨rfl, rfl⟩
    · obtain ⟨seq, notice, -⟩ := State.tripModule_begins (s := s.setTrip { s.trip with input := v }) running busy lower
      rw [State.seq_settle, seq]
      exact ⟨by rw [State.seq_setTrip, Sequencer.push_of_room room]; rfl, State.notice_settle notice⟩
    · have lower : k.rank < 4 := by
        revert notTrip
        cases k <;> decide
      obtain ⟨seq, notice, discards⟩ := State.tripModule_begins (s := s.setTrip { s.trip with input := v }) running busy
        lower
      obtain ⟨saved, transit⟩ := c
      cases saved with
      | step w =>
        rw [State.seq_setTrip, Sequencer.push_discards full] at seq discards
        rw [State.seq_settle, seq]
        refine ⟨?_, State.notice_settle (discards rfl), State.notice_settle notice⟩
        dsimp only
        rw [Working.lostBy_eq]
        rfl
      | intervention i is =>
        rw [State.seq_setTrip, Sequencer.push_discards_intervention full] at seq discards
        rw [State.seq_settle, seq]
        exact ⟨rfl, State.notice_settle (discards rfl), State.notice_settle notice⟩
    · rw [State.seq_settle]
      exact State.seq_tripModule_not other

end Sys2Proof.Machine
end

section
/-!
PROOFS. Arm counts (R137 to R140): the motion decision by the state of the arm, its delivery to the waiting head (R33), and the
sweep that completes an ex-situ run (R147).
-/
namespace Sys2Proof.Machine

/-! ## The motion decision -/

section
variable {c : Conditioner} {g : PlatenConfig} {m : ArmMode}

theorem Conditioner.motionDecision_stowed (arm : c.arm = .stowed) :
    c.motionDecision g =
      (if g.stow < c.position then { c with arm := .stowing, speedOut := g.armSpeed, forceOut := 0 } else c, false) := by
  rw [Conditioner.motionDecision, arm]
  dsimp only
  split <;> rfl

theorem Conditioner.motionDecision_stowing (arm : c.arm = .stowing) :
    c.motionDecision g =
      (if c.position ≤ g.stow then { c with arm := .stowed, speedOut := 0, forceOut := 0 }
        else { c with speedOut := g.armSpeed, forceOut := 0 }, false) := by
  obtain ⟨a, _⟩ := c
  subst arm
  unfold Conditioner.motionDecision
  dsimp only
  split <;> rfl

theorem Conditioner.motionDecision_suspended {n : ArmMotion} (arm : c.arm = .suspended m n) :
    c.motionDecision g = (c, false) := by
  rw [Conditioner.motionDecision, arm]

theorem Conditioner.motionDecision_inward (arm : c.arm = .sweeping m) (inward : c.direction = .inward) :
    c.motionDecision g = (if c.position ≤ g.inner then { c with direction := .outward } else c, false) := by
  rw [Conditioner.motionDecision, arm, inward]
  dsimp only
  split <;> rfl

theorem Conditioner.motionDecision_outward (arm : c.arm = .sweeping m) (outward : c.direction = .outward) :
    c.motionDecision g = c.turnInward g := by
  rw [Conditioner.motionDecision, arm, outward]

theorem Conditioner.motionDecision_deploying (arm : c.arm = .deploying m) :
    c.motionDecision g =
      if g.inner ≤ c.position then
        ({ c with
          arm := .sweeping m, direction := .outward, speedOut := g.armSpeed, forceOut := g.downforce } :
          Conditioner).turnInward g
      else (c, false) := by
  rw [Conditioner.motionDecision, arm]
  rfl

theorem Conditioner.turnInward_short (short : c.position < c.outerPosition g) : c.turnInward g = (c, false) := by
  rw [Conditioner.turnInward, if_neg (Nat.not_le.2 short)]

theorem Conditioner.countSweep_inSitu {h : HeadId} (mode : c.arm.mode = some (.inSitu h)) : c.countSweep = c := by
  rw [Conditioner.countSweep, mode]

theorem Conditioner.countSweep_exSitu (mode : c.arm.mode = some .exSitu) :
    c.countSweep = { c with sweepsDone := satSucc 255 c.sweepsDone } := by
  rw [Conditioner.countSweep, mode]

theorem Conditioner.turnInward_far (far : c.outerPosition g ≤ c.position) :
    c.turnInward g = ({ c.countSweep with direction := .inward }, true) := by
  rw [Conditioner.turnInward, if_pos far]

theorem Conditioner.turnInward_writes (c : Conditioner) (g : PlatenConfig) :
    ∃ t n, (c.turnInward g).1 = { c with direction := t, sweepsDone := n } := by
  unfold Conditioner.turnInward Conditioner.countSweep
  repeat' split
  all_goals exact ⟨_, _, rfl⟩

/-- A motion decision keeps the position, the outer limit and the run (R138, R139, R146). -/
theorem Conditioner.motionDecision_writes (c : Conditioner) (g : PlatenConfig) :
    ∃ a t x y n, (c.motionDecision g).1 =
      { c with arm := a, direction := t, speedOut := x, forceOut := y, sweepsDone := n } := by
  cases arm : c.arm with
  | stowed =>
    rw [Conditioner.motionDecision_stowed arm]
    dsimp only
    split <;> exact ⟨_, _, _, _, _, rfl⟩
  | stowing =>
    rw [Conditioner.motionDecision_stowing arm]
    dsimp only
    split <;> exact ⟨_, _, _, _, _, rfl⟩
  | suspended m n =>
    rw [Conditioner.motionDecision_suspended arm]
    exact ⟨_, _, _, _, _, rfl⟩
  | deploying m =>
    rw [Conditioner.motionDecision_deploying arm]
    split
    · obtain ⟨t, n, e⟩ := Conditioner.turnInward_writes
        { c with arm := .sweeping m, direction := .outward, speedOut := g.armSpeed, forceOut := g.downforce } g
      exact ⟨_, t, _, _, n, e⟩
    · exact ⟨_, _, _, _, _, rfl⟩
  | sweeping m =>
    cases direction : c.direction with
    | inward =>
      rw [Conditioner.motionDecision_inward arm direction]
      dsimp only
      split <;> exact ⟨_, _, _, _, _, rfl⟩
    | outward =>
      rw [Conditioner.motionDecision_outward arm direction]
      obtain ⟨t, n, e⟩ := Conditioner.turnInward_writes c g
      exact ⟨_, t, _, _, n, e⟩

theorem Conditioner.decided_same {want : OuterLimit} (same : c.outer = want) :
    c.decided g want = c ∧ c.turnsAt g want = false := by
  have stays : c.turnsAt g want = false := by
    subst same
    rw [Conditioner.turnsAt]
    cases c.outer <;> rfl
  refine ⟨?_, stays⟩
  rw [Conditioner.decided, stays, ← same]
  rfl

/-- The position of the arm after a count (R137). -/
def Conditioner.counted (c : Conditioner) (d : Travel) : Nat :=
  match d with
  | .outward => satSucc 65535 c.position
  | .inward => c.position - 1

theorem Conditioner.moveArm_eq (c : Conditioner) (d : Travel) : c.moveArm d = { c with position := c.counted d } := by
  cases d <;> rfl

end

/-! ## One count -/

/-- What a count decides for the arm, and whether it is a sweep (R139). -/
def State.armDecision (s : State) (p : PlatenId) (d : Travel) : Conditioner × Bool :=
  ((s.cond p).moveArm d).motionDecision (s.base p).config

/-- The arm moved, its sweep delivered (R137, R140). -/
def State.armMoved (s : State) (p : PlatenId) (d : Travel) : State :=
  if (s.armDecision p d).2 then (s.setCond p (s.armDecision p d).1).diskSweep p else s.setCond p (s.armDecision p d).1

section
variable {s : State} {p : PlatenId} {d : Travel}

theorem State.armCount_eq (s : State) (p : PlatenId) (d : Travel) :
    s.armCount p d =
      (if (s.armDecision p d).2 && (s.armMoved p d).runReached p then (s.armMoved p d).completeRun p
        else s.armMoved p d).deliverArm p := rfl

theorem State.armMoved_writes (s : State) (p : PlatenId) (d : Travel) :
    ∃ c k x, s.armMoved p d = { s with conds := c, disks := k, ports := x } := by
  unfold State.armMoved
  split
  · obtain ⟨k, x, e⟩ := State.diskSweep_writes (s.setCond p (s.armDecision p d).1) p
    exact ⟨_, k, x, e⟩
  · exact ⟨_, _, _, rfl⟩

theorem State.cond_armMoved (s : State) (p : PlatenId) (d : Travel) : (s.armMoved p d).cond p = (s.armDecision p d).1 := by
  unfold State.armMoved
  split
  · obtain ⟨k, x, e⟩ := State.diskSweep_writes (s.setCond p (s.armDecision p d).1) p
    rw [e]
    exact State.cond_setCond_self ..
  · exact State.cond_setCond_self ..

theorem State.disk_armMoved (s : State) (p : PlatenId) (d : Travel) :
    (s.armMoved p d).disk p = if (s.armDecision p d).2 = true then (s.disk p).sweep.1 else s.disk p := by
  unfold State.armMoved
  split
  · rw [State.disk_diskSweep, if_pos rfl]
    rfl
  · rfl

theorem State.outer_armMoved (s : State) (p : PlatenId) (d : Travel) :
    ((s.armMoved p d).cond p).outer = (s.cond p).outer := by
  obtain ⟨a, t, x, y, n, e⟩ := Conditioner.motionDecision_writes ((s.cond p).moveArm d) (s.base p).config
  rw [State.cond_armMoved, State.armDecision, e, Conditioner.moveArm_eq]

theorem State.aside_armMoved (s : State) (p : PlatenId) (d : Travel) (h : HeadId) : Aside h s (s.armMoved p d) := by
  obtain ⟨c, k, x, e⟩ := State.armMoved_writes s p d
  rw [e]
  exact {}

theorem State.deliverArm_not (still : ∀ h w r y, s.headOn p = some h → s.polishing h = some (w, r, y) →
    w.phase ≠ some .keepoutWait) : s.deliverArm p = s := by
  unfold State.deliverArm
  split
  · rfl
  · next h on =>
    split
    · next w r y polishes => exact if_neg (still h w r y on polishes)
    · rfl

theorem State.deliverArm_of {h : HeadId} {w : Working} {r : PolishRecord} {y : PlatenId} (on : s.headOn p = some h)
    (polishes : s.polishing h = some (w, r, y)) (waits : w.phase = some .keepoutWait) :
    s.deliverArm p = (s.toKeepout h).handOnAll := by
  rw [State.deliverArm, on]
  dsimp only
  rw [polishes]
  exact if_pos waits

/-- A count that completes no run. -/
theorem State.armCount_runless (unreached : ((s.armDecision p d).2 && (s.armMoved p d).runReached p) = false) :
    s.armCount p d = (s.armMoved p d).deliverArm p := by
  rw [State.armCount_eq, unreached]
  rfl

theorem State.runReached_not (k : (s.cond p).runHeld = false ∨ (s.cond p).arm.mode ≠ some .exSitu ∨
    (s.cond p).sweepsDone < (s.pad p).owed) : s.runReached p = false := by
  unfold State.runReached
  obtain free | other | short := k
  · rw [free]
    rfl
  · rw [decide_eq_false other, Bool.and_false, Bool.false_and]
  · rw [decide_eq_false (Nat.not_le.2 short), Bool.and_false]

/-- A count that ends no KEEPOUT_WAIT and completes no run leaves what its decision gives (R137, R139). -/
theorem State.armCount_calm (settled : s.Settled)
    (still : ∀ h w r y, s.headOn p = some h → s.polishing h = some (w, r, y) → w.phase ≠ some .keepoutWait)
    (unreached : ((s.armDecision p d).2 && (s.armMoved p d).runReached p) = false) :
    (s.armCount p d).settle.cond p = (s.armDecision p d).1 ∧ (s.armCount p d).settle.pad p = s.pad p ∧
      (s.armCount p d).settle.disk p = if (s.armDecision p d).2 = true then (s.disk p).sweep.1 else s.disk p := by
  obtain ⟨c, k, x, e⟩ := State.armMoved_writes s p d
  have quiet : (s.armMoved p d).deliverArm p = s.armMoved p d := by
    refine State.deliverArm_not fun h w r y on polishes => still h w r y ?_ ?_
    · rw [e] at on
      exact on
    · rw [(State.aside_armMoved s p d h).polishing] at polishes
      exact polishes
  have wanted : (s.armMoved p d).outerWanted p = s.outerWanted p := by
    rw [e]
    rfl
  obtain ⟨same, stays⟩ := Conditioner.decided_same (c := (s.armMoved p d).cond p) (g := ((s.armMoved p d).base p).config)
    (want := (s.armMoved p d).outerWanted p)
    (by rw [State.outer_armMoved, wanted]; exact settled.outer p)
  rw [State.armCount_runless unreached, quiet]
  refine ⟨?_, ?_, ?_⟩
  · rw [State.cond_settle, same, State.cond_armMoved]
  · rw [State.pad_settle, e]
    rfl
  · rw [State.disk_settle, stays, if_neg Bool.false_ne_true, State.disk_armMoved]

/-- A count with the decision r, which completes no run. -/
theorem State.armCount_decides {r : Conditioner × Bool} (settled : s.Settled)
    (still : ∀ h w r y, s.headOn p = some h → s.polishing h = some (w, r, y) → w.phase ≠ some .keepoutWait)
    (decision : s.armDecision p d = r)
    (short : r.2 = true → r.1.arm.mode ≠ some .exSitu ∨ r.1.sweepsDone < (s.pad p).owed) :
    (s.armCount p d).settle.cond p = r.1 ∧ (s.armCount p d).settle.pad p = s.pad p ∧
      (s.armCount p d).settle.disk p = if r.2 = true then (s.disk p).sweep.1 else s.disk p := by
  subst decision
  refine State.armCount_calm settled still ?_
  cases sweeps : (s.armDecision p d).2 with
  | false => rfl
  | true =>
    obtain ⟨c, k, x, e⟩ := State.armMoved_writes s p d
    have pad : (s.armMoved p d).pad p = s.pad p := by
      rw [e]
      rfl
    rw [Bool.true_and]
    refine State.runReached_not (.inr ?_)
    rw [State.cond_armMoved, pad]
    exact short sweeps

end

/-! ## O40 -/

/-- Settles O40: the arm has come to K, and the waiting head goes DOWN. -/
theorem keepoutWaitEnds : Obligations.KeepoutWaitEnds := by
  unfold Obligations.KeepoutWaitEnds
  intro s p h w r on polishes waits up clear moving forward empty unheld arm pos
  have arm' : ((s.armMoved p .inward).cond p).position = (s.cond p).position - 1 := by
    rw [State.cond_armMoved, State.armDecision, (ArmKept.motionDecision ..).position]
    rfl
  have held : ((s.armMoved p .inward).cond p).runHeld = false := by
    obtain ⟨a, t, x, y, n, e⟩ := Conditioner.motionDecision_writes ((s.cond p).moveArm .inward) (s.base p).config
    rw [State.cond_armMoved, State.armDecision, e]
    exact unheld
  obtain ⟨c, k, x, e⟩ := State.armMoved_writes s p .inward
  have on' : (s.armMoved p .inward).headOn p = some h := by
    rw [e]
    exact on
  have base : (s.armMoved p .inward).base p = s.base p := by
    rw [e]
    rfl
  have aside := State.aside_armMoved s p .inward h
  have polishes' := aside.polishing.trans polishes
  have within : ((s.armMoved p .inward).cond p).position ≤ ((s.armMoved p .inward).base p).config.keepOut := by
    rw [arm', base]
    exact arm
  have calm : ((s.armMoved p .inward).base p).stalled = false ∧ ((s.armMoved p .inward).base p).direction = .forward := by
    rw [base]
    exact ⟨moving, forward⟩
  obtain ⟨seq, zone, -⟩ := State.toKeepout_gap polishes' (aside.isDown.trans up) within calm.1 calm.2
    (by rw [e]; exact clear) (effectiveGap_pos pos ..)
  have quiet : ((s.armMoved p .inward).toKeepout h).handOnAll = (s.armMoved p .inward).toKeepout h := by
    refine State.handOnAll_of_free (State.idleLinesFree_of_empty fun l => ?_)
    rw [State.line, State.lines_toKeepout polishes' (.inr calm), e]
    exact empty l
  have count : s.armCount p .inward = (s.armMoved p .inward).toKeepout h := by
    rw [State.armCount_runless (by rw [State.runReached_not (.inl held), Bool.and_false]),
      State.deliverArm_of on' polishes' waits, quiet]
  refine ⟨(s.armCount p .inward).settle, rfl, ?_, ?_, effectiveGap_eq ..⟩
  · rw [State.zone_settle, count, zone, aside.zone]
  · rw [State.seq_settle, count, seq, aside.seq, base]
    rfl

/-! ## O39 -/

section
variable {s : State} {p : PlatenId} {d : Travel}

theorem State.station_armMoved (s : State) (p : PlatenId) (d : Travel) (x : StationId) :
    (s.armMoved p d).station x = s.station x := by
  obtain ⟨c, k, y, e⟩ := State.armMoved_writes s p d
  rw [e]
  rfl

theorem State.pad_armMoved (s : State) (p : PlatenId) (d : Travel) (x : PlatenId) : (s.armMoved p d).pad x = s.pad x := by
  obtain ⟨c, k, y, e⟩ := State.armMoved_writes s p d
  rw [e]
  rfl

theorem State.trip_armMoved (s : State) (p : PlatenId) (d : Travel) : (s.armMoved p d).trip = s.trip := by
  obtain ⟨c, k, y, e⟩ := State.armMoved_writes s p d
  rw [e]

theorem State.base_armMoved (s : State) (p : PlatenId) (d : Travel) (x : PlatenId) : (s.armMoved p d).base x = s.base x := by
  obtain ⟨c, k, y, e⟩ := State.armMoved_writes s p d
  rw [e]
  rfl

theorem State.disk_used_armMoved (sweeps : (s.armDecision p d).2 = true) :
    ((s.armMoved p d).disk p).used = satSucc 4294967295 (s.disk p).used := by
  rw [State.disk_armMoved, if_pos sweeps, Disk.sweep]
  split <;> rfl

/-- A move that a waiter makes leaves it nowhere: no head polishes at a station that was just handed on. -/
theorem State.polishing_of_transit {h : HeadId} {o e : StationId} {st : MoveStatus}
    (transit : (s.carrier h).position = .inTransit o e st) : s.polishing h = none := by
  have off : s.platenOf h = none := by rw [State.platenOf, transit]
  unfold State.polishing
  rw [off]
  cases s.runningStep h <;> rfl

theorem Carrier.send_transit (c : Carrier) (t : Bool) (o e : StationId) :
    ∃ st, (c.send t o e).position = .inTransit o e st := by
  unfold Carrier.send
  split <;> exact ⟨_, rfl⟩

/-- The run over, the arm waits for no head at the platen (R33, R147). -/
theorem State.deliverArm_completeRun (run : (s.station (.platen p)).holder = some .conditioner) :
    (s.completeRun p).deliverArm p = s.completeRun p := by
  have free : (s.runOver p).headOn p = none := by rw [State.headOn, State.station_runOver]
  refine State.deliverArm_not fun h w r y on polishes => ?_
  exfalso
  rw [State.completeRun_eq run] at on polishes
  have on' : ((s.runOver p).handStation (.platen p)).headOn p = some h := on
  have polishes' : ((s.runOver p).handStation (.platen p)).polishing h = some (w, r, y) :=
    (Aside.polishing (.raise _ _ _)).symm.trans polishes
  rw [State.handStation_runOver] at on' polishes'
  split at on'
  · next usable =>
    rw [if_pos usable] at polishes'
    cases wait : ((s.runOver p).station (.platen p)).wait with
    | nil =>
      rw [State.grantNext_nil wait, free] at on'
      cases on'
    | cons g rest =>
      rw [State.grantNext_cons wait] at on' polishes'
      have own : h = g := by
        rw [State.headOn, State.station_setSeq, State.station_setCarrier, State.station_setStation_self] at on'
        exact (Option.some.inj on').symm
      subst own
      obtain ⟨st, transit⟩ := Carrier.send_transit ((s.runOver p).carrier h) (s.runOver p).trip.tripped
        ((s.runOver p).stationOf h) (.platen p)
      rw [State.polishing_of_transit (o := (s.runOver p).stationOf h) (e := .platen p) (st := st) (by
        rw [State.carrier_setSeq, State.carrier_setCarrier_self]
        exact transit)] at polishes'
      cases polishes'
  · rw [State.headOn, State.station_dismissAll, State.station_runOver] at on'
    cases on'

/-- The sweep that brings sweeps done to the owed sweeps completes the run (R140, R147). -/
theorem State.armCount_completes (sweeps : (s.armDecision p d).2 = true) (held : (s.cond p).runHeld = true)
    (mode : (s.armDecision p d).1.arm.mode = some .exSitu) (done : (s.pad p).owed ≤ (s.armDecision p d).1.sweepsDone)
    (run : (s.station (.platen p)).holder = some .conditioner) :
    s.armCount p d = (s.armMoved p d).completeRun p := by
  have reached : (s.armMoved p d).runReached p = true := by
    obtain ⟨a, t, x, y, n, e⟩ := Conditioner.motionDecision_writes ((s.cond p).moveArm d) (s.base p).config
    have held' : (s.armDecision p d).1.runHeld = true := by
      rw [State.armDecision, e, Conditioner.moveArm_eq]
      exact held
    rw [State.runReached, State.cond_armMoved, State.pad_armMoved, held', decide_eq_true mode, decide_eq_true done]
    rfl
  rw [State.armCount_eq, sweeps, reached]
  exact State.deliverArm_completeRun (by rw [State.station_armMoved]; exact run)

end

/-- What a platen handed on after a run shows of its oldest waiter (R8, R147). -/
theorem State.completeRun_hands {s : State} {p : PlatenId} (run : (s.station (.platen p)).holder = some .conditioner)
    (usable : (s.pad p).state = .breakIn ∨ (s.pad p).state = .inService ∨ (s.pad p).state = .warn) :
    s.Granted (s.completeRun p).settle (.platen p) := by
  refine ⟨fun empty => (State.completeRun_free run empty).1, fun g rest oldest => ?_⟩
  obtain ⟨station, carrier, seq⟩ := State.completeRun_granted run oldest usable
  refine ⟨station, fun clear => ?_, fun tripped => ?_, fun w step => ?_, fun k cs x park => ?_⟩
  · rw [carrier, clear]
    rfl
  · rw [carrier, tripped]
    rfl
  · rw [seq, step]
    rfl
  · rw [seq, park]
    rfl

/-- The grant as it is seen from a state before that has the same station and heads. -/
theorem State.Granted.of_aside {s u t : State} {d : StationId} (k : u.Granted t d) (station : u.station d = s.station d)
    (trip : u.trip = s.trip) (aside : ∀ g, Aside g s u) : s.Granted t d := by
  obtain ⟨free, granted⟩ := k
  rw [station] at free granted
  refine ⟨free, fun g rest oldest => ?_⟩
  have here : u.stationOf g = s.stationOf g := by rw [State.stationOf, (aside g).carrier, State.stationOf]
  have given := granted g rest oldest
  rw [trip, (aside g).carrier, (aside g).seq, here] at given
  exact given

theorem Disk.used_sweep (k : Disk) : k.sweep.1.used = satSucc 4294967295 k.used := by
  unfold Disk.sweep
  dsimp only
  split <;> rfl

/-- Settles O39: each state of the arm has its row in the motion decision, and the sweep that is owed last completes the
run. -/
theorem armCounts : Obligations.ArmCounts := by
  unfold Obligations.ArmCounts
  intro s p d x c g
  have moved : (s.cond p).moveArm d = c := by cases d <;> rfl
  have decision : s.armDecision p d = c.motionDecision g := by rw [State.armDecision, moved]
  refine ⟨(s.armCount p d).settle, rfl, ?position, fun settled still => ⟨fun arm => ?stowed, fun arm => ?stowing,
    fun m n arm => ?suspended, fun m arm => ⟨fun short => ?deploys, fun reached short => ?sweeps,
    fun reached far more => ?turns⟩, fun m arm inward => ?turnsOut, fun m arm outward short => ?goesOn,
    fun h arm outward far => ?inSitu, fun arm outward far more => ?exSitu⟩, fun moving far held run owed => ?completes⟩
  case position =>
    have kept := ((Cascade.armCount s p d).arm p).position
    rw [(SettleKept.settle _).armPosition, kept, State.modCond_eq, State.cond_setCond_self, moved]
  case stowed =>
    exact (State.armCount_decides settled still (decision.trans (Conditioner.motionDecision_stowed arm)) nofun).1
  case stowing =>
    exact (State.armCount_decides settled still (decision.trans (Conditioner.motionDecision_stowing arm)) nofun).1
  case suspended =>
    exact (State.armCount_decides settled still (decision.trans (Conditioner.motionDecision_suspended arm)) nofun).1
  case deploys =>
    have stays := (Conditioner.motionDecision_deploying (c := c) (g := g) arm).trans (if_neg (Nat.not_le.2 short))
    exact (State.armCount_decides settled still (decision.trans stays) nofun).1
  case sweeps =>
    have enters := (Conditioner.motionDecision_deploying (c := c) (g := g) arm).trans (if_pos reached)
    rw [Conditioner.turnInward_short short] at enters
    obtain ⟨cond, -, disk⟩ := State.armCount_decides settled still (decision.trans enters) nofun
    exact ⟨disk, cond⟩
  case turns =>
    have enters := (Conditioner.motionDecision_deploying (c := c) (g := g) arm).trans (if_pos reached)
    rw [Conditioner.turnInward_far far] at enters
    have counts : ({ c with
        arm := .sweeping m, direction := .outward, speedOut := g.armSpeed, forceOut := g.downforce } :
          Conditioner).countSweep =
        { c with
          arm := .sweeping m, direction := .outward, speedOut := g.armSpeed, forceOut := g.downforce
          sweepsDone := if m = .exSitu then satSucc 255 (s.cond p).sweepsDone else (s.cond p).sweepsDone } := by
      cases m with
      | exSitu => rfl
      | inSitu h => rfl
    rw [counts] at enters
    obtain ⟨cond, -, disk⟩ := State.armCount_decides settled still (decision.trans enters) fun _ => by
      cases m with
      | exSitu => exact .inr (more rfl)
      | inSitu h => exact .inl nofun
    exact ⟨by rw [disk]; exact Disk.used_sweep _, cond⟩
  case turnsOut =>
    exact (State.armCount_decides settled still (decision.trans (Conditioner.motionDecision_inward arm inward)) nofun).1
  case goesOn =>
    have stays := (Conditioner.motionDecision_outward (c := c) (g := g) arm outward).trans
      (Conditioner.turnInward_short short)
    obtain ⟨cond, -, disk⟩ := State.armCount_decides settled still (decision.trans stays) nofun
    exact ⟨cond, disk⟩
  case inSitu =>
    have mode : c.arm.mode = some (.inSitu h) := by
      show (s.cond p).arm.mode = _
      rw [arm]
      rfl
    have turns := (Conditioner.motionDecision_outward (c := c) (g := g) arm outward).trans
      (Conditioner.turnInward_far far)
    rw [Conditioner.countSweep_inSitu mode] at turns
    obtain ⟨cond, pad, disk⟩ := State.armCount_decides settled still (decision.trans turns) fun _ => .inl (by
      show (s.cond p).arm.mode ≠ _
      rw [arm]
      nofun)
    exact ⟨cond, pad, by rw [disk]; exact Disk.used_sweep _⟩
  case exSitu =>
    have mode : c.arm.mode = some .exSitu := by
      show (s.cond p).arm.mode = _
      rw [arm]
      rfl
    have turns := (Conditioner.motionDecision_outward (c := c) (g := g) arm outward).trans
      (Conditioner.turnInward_far far)
    rw [Conditioner.countSweep_exSitu mode] at turns
    obtain ⟨cond, pad, disk⟩ := State.armCount_decides settled still (decision.trans turns) fun _ => .inr more
    exact ⟨cond, pad, by rw [disk]; exact Disk.used_sweep _⟩
  case completes =>
    obtain ⟨k, turns, arm, position⟩ : ∃ k : Conditioner,
        c.motionDecision g =
          ({ k with direction := .inward, sweepsDone := satSucc 255 (s.cond p).sweepsDone }, true) ∧
        k.arm = .sweeping .exSitu ∧ k.position = x := by
      obtain ⟨arm, outward⟩ | ⟨arm, reached⟩ := moving
      · have mode : c.arm.mode = some .exSitu := by
          show (s.cond p).arm.mode = _
          rw [arm]
          rfl
        have turns := (Conditioner.motionDecision_outward (c := c) (g := g) arm outward).trans
          (Conditioner.turnInward_far far)
        rw [Conditioner.countSweep_exSitu mode] at turns
        exact ⟨c, turns, arm, rfl⟩
      · have enters := (Conditioner.motionDecision_deploying (c := c) (g := g) arm).trans (if_pos reached)
        rw [Conditioner.turnInward_far far] at enters
        exact ⟨_, enters, rfl, rfl⟩
    have decided := decision.trans turns
    have count : s.armCount p d = (s.armMoved p d).completeRun p :=
      State.armCount_completes (by rw [decided]) held (by rw [decided]; exact congrArg ArmState.mode arm)
        (by rw [decided]; exact owed) run
    have run' : ((s.armMoved p d).station (.platen p)).holder = some .conditioner := by
      rw [State.station_armMoved]
      exact run
    have cond' : (s.armMoved p d).cond p =
        { k with direction := .inward, sweepsDone := satSucc 255 (s.cond p).sweepsDone } := by
      rw [State.cond_armMoved, decided]
    obtain ⟨⟨o, cond⟩, disk⟩ := State.cond_completeRun_settle (s := s.armMoved p d) run' (by
      rw [cond']
      exact arm ▸ nofun)
    rw [cond', State.base_armMoved] at cond
    have pad := State.pad_completeRun_settle (s := s.armMoved p d) run'
    have granted := State.completeRun_hands (s := s.armMoved p d) run'
    have turned := State.completeRun_dismissed (s := s.armMoved p d) run'
    have free := State.completeRun_free (s := s.armMoved p d) run'
    rw [State.pad_armMoved] at pad granted turned
    rw [State.station_armMoved] at free turned
    rw [count]
    refine ⟨?_, pad, by rw [cond]; rfl, by rw [cond]; rfl, by rw [cond]; rfl, ?_, ?_,
      State.notice_completeRun_settle, free, fun usable => ?_, fun gone => ?_⟩
    · rw [disk]
      exact State.disk_used_armMoved (by rw [decided])
    · rw [cond]
      show (if k.position ≤ g.stow then ArmState.stowed else .stowing) = _
      rw [position]
    · rw [cond]
      show (if k.position ≤ g.stow then ArmState.stowed else .stowing).force g = 0
      split <;> rfl
    · exact (granted usable).of_aside (State.station_armMoved ..) (State.trip_armMoved ..) (s.aside_armMoved p d)
    · obtain ⟨station, halts⟩ := turned gone
      exact ⟨station, fun h mem running => halts h mem (by rw [(s.aside_armMoved p d h).seq]; exact running)⟩

end Sys2Proof.Machine
end

section
/-!
PROOFS. The end of a list (R39, R42): the line that the head gives back goes to the nozzle that waited longest (R83), and
ABORT.
-/
namespace Sys2Proof.Machine

/-! ## A line given back -/

section
variable {s : State} {h : HeadId} {p : PlatenId} {l : LineId} {f : Nat}

theorem State.line_mapLines (s : State) (f : Line → Line) (l : LineId) :
    ({ s with lines := s.lines.map f } : State).line l = f (s.line l) := PerLine.get_map ..

theorem State.line_dropLine (stands : s.platenOf h = some p) (l : LineId) :
    (s.dropLine h).line l = ((s.line l).release h).leave p := by
  rw [State.dropLine]
  dsimp only
  rw [stands]
  exact (PerLine.get_map ..).trans (congrArg (fun k => Line.leave k p) (PerLine.get_map ..))

/-- Head h serves from line l alone, in whose wait list its own nozzle does not stand (R76, R78). -/
structure State.OneLine (s : State) (h : HeadId) (p : PlatenId) (l : LineId) (f : Nat) : Prop where
  stands : (s.carrier h).position = .stands (.platen p)
  bound : (s.line l).state = .bound p h f
  new : p ∉ (s.line l).wait
  alone : ∀ k m j, (s.line k).state = .bound m h j → k = l
  free : s.IdleLinesFree

theorem State.OneLine.congr {t : State} (k : s.OneLine h p l f) (carrier : t.carrier h = s.carrier h)
    (lines : t.lines = s.lines) : t.OneLine h p l f := by
  have line : ∀ j, t.line j = s.line j := fun j => congrArg (fun x => PerLine.get x j) lines
  refine ⟨carrier ▸ k.stands, by rw [line]; exact k.bound, by rw [line]; exact k.new, fun j m f bound => ?_, fun j => ?_⟩
  · rw [line] at bound
    exact k.alone j m f bound
  · rw [line]
    exact k.free j

/-- The line is free, and no other line is handed on (R83). -/
theorem State.OneLine.dropLine (k : s.OneLine h p l f) :
    (s.dropLine h).line l = { s.line l with state := .idle } ∧
      ∀ j, j ≠ l → ((s.dropLine h).line j).state = .idle → ((s.dropLine h).line j).wait = [] := by
  have platen := State.platenOf_eq_some_iff.2 k.stands
  refine ⟨?_, fun j ne idle => ?_⟩
  · have serves : (s.line l).serves h = true := by
      rw [Line.serves, k.bound]
      exact decide_eq_true rfl
    have kept : (s.line l).wait.filter (fun m => !decide (m = p)) = (s.line l).wait :=
      List.filter_eq_self.2 fun m mem => by
        have ne : m ≠ p := fun e => k.new (e ▸ mem)
        simp [ne]
    rw [State.line_dropLine platen, Line.release, if_pos serves, Line.leave]
    dsimp only
    rw [kept]
  · have other : (s.line j).serves h = false := by
      unfold Line.serves
      split
      · next m g x bound => exact decide_eq_false fun e => ne (k.alone j m x (e ▸ bound))
      · rfl
    rw [State.line_dropLine platen, Line.release, other] at idle ⊢
    have empty : (s.line j).wait = [] := k.free j idle
    show (s.line j).wait.filter _ = []
    rw [empty]
    rfl

/-- A line given back by head h alone goes to the nozzle that waited longest (R83), as it is seen after later work that leaves
the other heads as they are. -/
theorem State.OneLine.handedOn {u t : State} (k : s.OneLine h p l f) (clear : s.trip.tripped = false)
    (cascade : Cascade s u) (holder : ∀ d, (u.station d).holder = (s.station d).holder)
    (stalled : ∀ j, (u.base j).stalled = (s.base j).stalled) (aside : ∀ g, g ≠ h → Aside g s u)
    (line : u.line l = { s.line l with state := .idle })
    (others : ∀ j, j ≠ l → (u.line j).state = .idle → (u.line j).wait = [])
    (line' : t.line l = u.handOnAll.line l) (aside' : ∀ g, g ≠ h → Aside g u.handOnAll t) : s.HandedOn t l := by
  intro n rest g w r wait on polishes up _ unbound calm
  have ne : g ≠ h := fun e => unbound p f (e ▸ k.bound)
  have calm' : (u.base n).config.keepOut < (u.cond n).position ∨
      (u.base n).stalled = false ∧ (u.base n).direction = .forward := by
    rw [(cascade.base n).config, (cascade.arm n).position, stalled n, (cascade.base n).direction]
    exact calm
  have handed := State.handed_handOnAll (s := u) (by rw [cascade.trip]; exact clear) (by rw [line]) others
    (by rw [line]; exact wait) (State.headOn_eq_some_iff.2 ((holder _).trans (State.headOn_eq_some_iff.1 on)))
    ((aside g ne).polishing.trans polishes) ((aside g ne).isDown.trans up) calm'
  have seen := handed.congr (fun x y => by rw [line]) (aside g ne) (cascade.base n).config (cascade.arm n).position line'
    (aside' g ne).zone (aside' g ne).seq
  exact ⟨seen.line, seen.waits, seen.lowers⟩

end

/-! ## The list stops -/

section
variable (s : State) (h : HeadId)

theorem State.raise_writes (q : Port) (n : Notice) : ∃ x, s.raise q n = { s with ports := x } := ⟨_, rfl⟩

theorem State.idleNotices_writes : ∃ x, s.idleNotices h = { s with ports := x } := by
  rw [State.idleNotices]
  split
  · exact ⟨_, rfl⟩
  · exact ⟨_, rfl⟩

theorem State.takeEnd_writes (e : EndState) : ∃ q x, s.takeEnd h e = { s with seqs := q, ports := x } := by
  cases e with
  | idle =>
    obtain ⟨x, noticed⟩ := (s.setHead h .idle).idleNotices_writes h
    exact ⟨_, x, noticed⟩
  | halted r => exact ⟨_, _, rfl⟩

theorem State.close_writes (e : EndState) : ∃ q c x, s.close h e = { s with seqs := q, carriers := c, ports := x } := by
  unfold State.close
  split
  · obtain ⟨c, moved⟩ := (s.setHead h (.closing e)).forwardMove_writes h
    exact ⟨_, c, _, moved⟩
  · obtain ⟨q, x, ended⟩ := s.takeEnd_writes h e
    exact ⟨q, _, x, ended⟩

theorem Seated.close (e : EndState) : Seated s (s.close h e) := by
  obtain ⟨q, c, x, closed⟩ := s.close_writes h e
  rw [closed]
  exact .of_tables rfl rfl rfl

theorem Seated.endRun (o : StepOutcome) : Seated s (s.endRun h o) :=
  (((Seated.setSeq s h _).trans (.suspendStep ..)).trans (.leaveWaits ..)).trans (.liftUp ..)

variable {g : HeadId} (ne : h ≠ g)
include ne

theorem Aside.endRun (o : StepOutcome) : Aside g s (s.endRun h o) :=
  (((Aside.setSeq s _ ne).trans (.suspendStep ..)).trans (.leaveWaits ..)).trans (.liftUp _ ne)

theorem Aside.takeEnd (e : EndState) : Aside g s (s.takeEnd h e) := by
  cases e with
  | idle => exact (Aside.modSeq s _ ne).trans (State.idleNotices_aside ..)
  | halted r => exact (Aside.modSeq s _ ne).trans (.raise ..)

theorem Aside.close (e : EndState) : Aside g s (s.close h e) := by
  unfold State.close
  split
  · exact (Aside.modSeq s _ ne).trans (.forwardMove _ ne)
  · exact .takeEnd s h ne e

end

section
variable {s : State} {h : HeadId} {p : PlatenId} {l : LineId} {f : Nat}

/-- The line of a head whose list stops is free (R26, R42, R83). -/
theorem State.OneLine.endRun (k : s.OneLine h p l f) (o : StepOutcome) (e : EndState) :
    ((s.endRun h o).close h e).line l = { s.line l with state := .idle } ∧
      ∀ j, j ≠ l → (((s.endRun h o).close h e).line j).state = .idle →
        (((s.endRun h o).close h e).line j).wait = [] := by
  obtain ⟨b, disowned⟩ := State.disown_writes (s.setSeq h (s.stopped h o)) h
  obtain ⟨q, r, unwatched⟩ := State.closeWatchOf_writes ((s.setSeq h (s.stopped h o)).disown h) h
  obtain ⟨c, withdrawn⟩ := State.withdraw_writes (((s.setSeq h (s.stopped h o)).disown h).closeWatchOf h) h
  have before : (((((s.setSeq h (s.stopped h o)).disown h).closeWatchOf h).withdraw h)).OneLine h p l f :=
    k.congr (by rw [withdrawn, unwatched, disowned]; rfl) (by rw [withdrawn, unwatched, disowned]; rfl)
  have same : ∀ j, (((((s.setSeq h (s.stopped h o)).disown h).closeWatchOf h).withdraw h)).line j = s.line j := fun j => by
    rw [withdrawn, unwatched, disowned]
    rfl
  have after : ∀ j, ((s.endRun h o).close h e).line j =
      ((((((s.setSeq h (s.stopped h o)).disown h).closeWatchOf h).withdraw h)).dropLine h).line j := fun j => by
    obtain ⟨q, c, x, closed⟩ := (s.endRun h o).close_writes h e
    obtain ⟨z, c', y, x', lifted⟩ := State.liftUp_writes (((s.setSeq h (s.stopped h o)).suspendStep h).leaveWaits h) h
    rw [closed]
    show (s.endRun h o).line j = _
    rw [State.endRun_eq, lifted]
    rfl
  obtain ⟨line, others⟩ := before.dropLine
  rw [same] at line
  exact ⟨(after l).trans line, fun j ne => by rw [after j]; exact others j ne⟩

theorem State.ready_enterIdle (stands : (s.carrier h).position = .stands .load) :
    (if (s.seq h).vacuum then Notice.readyUnload h else .readyLoad h) ∈ ((s.enterIdle h).port .transfer).notices := by
  have here : ((s.setHead h .idle).raise .recipe (.listDone h)).stands? h = some .load :=
    State.stands?_eq_some_iff.2 stands
  have vacuum : (((s.setHead h .idle).raise .recipe (.listDone h)).seq h).vacuum = (s.seq h).vacuum := by
    rw [State.seq_raise, State.setHead, State.modSeq_eq, State.seq_setSeq_self]
  rw [State.enterIdle, State.idleNotices]
  rw [if_pos here, vacuum]
  cases (s.seq h).vacuum
  · exact State.notice_raise
  · exact State.notice_raise

end

/-! ## O15 -/

section
variable {s : State} {b : List Byte} {h : HeadId}

theorem exec_abort (o : s.opens .recipe) (len : b.length = 1) (head : headOf (le8 b 0) = some h) :
    exec (.abort .recipe b) s = .next (s.reply .recipe (s.abortRequest h)) := by
  have arm : exec (.abort .recipe b) s = execAbort .recipe b s := rfl
  rw [arm, execAbort, State.takeRequest_recipe o len, requireField_of head]

/-- The head after an ABORT, before its line is handed on (R42). -/
def State.aborted (s : State) (h : HeadId) : State := (s.endRun h .aborted).close h .idle

theorem exec_abort_ends (o : s.opens .recipe) (len : b.length = 1) (head : headOf (le8 b 0) = some h)
    (abortable : (s.seq h).state.abortable = true) :
    exec (.abort .recipe b) s = .next ((s.aborted h).handOnAll.accepted .recipe) := by
  rw [exec_abort o len head, State.abortRequest, State.reply_require_accept abortable]
  rfl

theorem State.seq_aborted (s : State) (h : HeadId) :
    (s.aborted h).seq h = { s.stopped h .aborted with state := (s.carrier h).position.closed .idle } := by
  rw [State.aborted, State.seq_close, State.seq_endRun, State.carrier_endRun]

theorem State.aside_aborted (s : State) (h : HeadId) : Aside h (s.aborted h) (s.aborted h).handOnAll :=
  .handOnAll _ (State.polishing_of_idle (by rw [State.seq_aborted]; rfl))

theorem State.isDown_aborted (s : State) (h : HeadId) : (s.aborted h).isDown h = false := by
  rw [State.aborted, State.isDown_close, State.isDown_endRun]

end

/-- Settles O15: the list stops as at every stop (R26), and its line is handed on. -/
theorem abortEndsTheList : Obligations.AbortEndsTheList := by
  unfold Obligations.AbortEndsTheList
  refine fun s b h o len head => ⟨fun abortable => ⟨fun d stands => ?_, fun p l f _ stands bound new alone clear free => ?_,
    fun d e st transit => ?_⟩, fun fixed => ?_⟩
  case _ =>
    have closed : s.aborted h = (s.endRun h .aborted).enterIdle h :=
      State.close_stands (by rw [State.carrier_endRun]; exact stands) _
    have notice : .listDone h ∈ ((s.aborted h).port .recipe).notices := by
      rw [closed]
      exact State.notice_enterIdle ..
    refine ⟨_, exec_abort_ends o len head abortable, State.response_accepted .., ?_, ?_, ?_,
      State.notice_accepted ((Cascade.handOnAll _).notice notice), fun load => ?_⟩
    · rw [State.seq_accepted, (s.aside_aborted h).seq, State.seq_aborted, stands]
      rfl
    · rw [State.carrier_accepted, (s.aside_aborted h).carrier, closed]
      exact (State.takeEnd_carrier _ h .idle h).trans (State.carrier_endRun ..)
    · rw [State.isDown_accepted, (s.aside_aborted h).isDown, State.isDown_aborted]
    · have ready := State.ready_enterIdle (s := s.endRun h .aborted) (h := h)
        (by rw [State.carrier_endRun, stands, load])
      rw [← closed, State.seq_endRun] at ready
      have held : ((if (s.stopped h .aborted).vacuum then Notice.readyUnload h else .readyLoad h).kind .transfer).isSome =
          true := by
        cases (s.stopped h .aborted).vacuum <;> rfl
      exact State.notice_accepted ((Cascade.handOnAll _).notice ready held) held
  case _ =>
    have one : s.OneLine h p l f := ⟨stands, bound, new, alone, free⟩
    have seated : Seated s (s.aborted h) := (Seated.endRun ..).trans (.close ..)
    obtain ⟨line, others⟩ := one.endRun .aborted .idle
    refine ⟨_, exec_abort_ends o len head abortable, ?_⟩
    exact one.handedOn (u := s.aborted h) clear ((Cascade.endRun ..).trans (.close ..))
      seated.holder seated.stalled
      (fun g ne => (Aside.endRun s h (Ne.symm ne) _).trans (.close _ h (Ne.symm ne) _)) line others
      (State.line_accepted ..)
      fun g _ => ⟨State.seq_accepted .., State.zone_accepted .., State.carrier_accepted ..⟩
  case _ =>
    have transit' : ((s.endRun h .aborted).setHead h (.closing .idle)).carrier h = s.carrier h := State.carrier_endRun ..
    have closed : s.aborted h = ((s.endRun h .aborted).setHead h (.closing .idle)).forwardMove h :=
      State.close_transit (by rw [State.carrier_endRun]; exact transit) _
    have trip : ((s.endRun h .aborted).setHead h (.closing .idle)).trip = s.trip := (Cascade.endRun ..).trip
    have carrier : ((s.aborted h).handOnAll.accepted .recipe).carrier h = (s.aborted h).carrier h := by
      rw [State.carrier_accepted, (s.aside_aborted h).carrier]
    refine ⟨_, exec_abort_ends o len head abortable, State.response_accepted .., ?_, ?_, ?_, fun still tripped => ?_,
      fun still clear => ?_⟩
    · rw [State.seq_accepted, (s.aside_aborted h).seq, State.seq_aborted, transit]
      rfl
    · rw [State.isDown_accepted, (s.aside_aborted h).isDown, State.isDown_aborted]
    · rintro ⟨n, k, rfl⟩
      rw [carrier, closed, State.forwardMove_moving (by rw [transit']; exact transit), transit']
    · rw [carrier, closed, State.forwardMove_still (by rw [transit']; exact transit) still, State.sendMove,
        State.modCarrier_eq, State.carrier_setCarrier_self, transit', trip, tripped]
      exact ⟨rfl, rfl⟩
    · rw [carrier, closed, State.forwardMove_still (by rw [transit']; exact transit) still, State.sendMove,
        State.modCarrier_eq, State.carrier_setCarrier_self, transit', trip, clear]
      exact ⟨rfl, rfl⟩
  case _ =>
    rw [exec_abort o len head, State.abortRequest, State.reply_require_not fixed]

end Sys2Proof.Machine
end

section
/-!
PROOFS. The end of a POLISH step at a compare (R35, R36, R60): the accumulator that reaches the working limit or the target,
the result that the step leaves, and the last step of a list, whose line is handed on (R38, R39, R83).
-/
namespace Sys2Proof.Machine

/-! ## Compares -/

/-- The outcome of a step that reaches its working limit in POLISH (R60). -/
def PolishRecord.atLimit (r : PolishRecord) : StepOutcome :=
  match r.termination with
  | .limit => .completed
  | .endpoint => .epMiss

section
variable {w : Working} {r : PolishRecord} {a l : Nat} {c : Confirmed}

theorem Working.due_polish (kind : w.record.kind = .polish r) (phase : w.phase = some .polish) :
    w.due a l = if l ≤ a then some (r.atLimit, false) else none := by
  rw [Working.due, Working.polish?_polish kind, phase]
  dsimp only
  split
  · rw [PolishRecord.atLimit]
    cases r.termination <;> rfl
  · rfl

theorem Working.due_overpolish (kind : w.record.kind = .polish r) (phase : w.phase = some .overpolish)
    (confirmed : w.confirmed = some c) :
    w.due a l =
      if c.target ≤ a - c.capture.accrued then some (.endpoint, false)
      else if l ≤ a then some (.endpoint, true) else none := by
  rw [Working.due, Working.polish?_polish kind, phase]
  dsimp only
  rw [confirmed]

theorem Working.due_gap (phase : w.phase = some .gap) : w.due a l = none := by
  rw [Working.due, phase]
  cases w.polish? <;> rfl

end

section
variable {s : State} {h : HeadId} {p : PlatenId} {w : Working} {limit : Nat} {clk : StepClock}

theorem State.due_of (owner : (s.base p).owner = some ⟨h, limit, clk⟩) (step : s.runningStep h = some w) :
    s.due p = (w.due (s.base p).accumulator limit).map fun e => (h, e.1, e.2) := by
  rw [State.due, owner]
  dsimp only
  rw [step]

theorem State.gate_eq (owner : (s.base p).owner = some ⟨h, limit, clk⟩) (step : s.runningStep h = some w) :
    s.gate p = (w.pressing && (s.zone h).allInBand && !(s.base p).stalled) := by
  rw [State.gate, owner]
  dsimp only
  rw [step]

/-- A gate that is on belongs to a head that RUNS (R59). -/
theorem State.running_of_gate (owner : (s.base p).owner = some ⟨h, limit, clk⟩) (gate : s.gate p = true) :
    (s.seq h).state = .running := by
  rw [State.gate, owner] at gate
  dsimp only at gate
  cases step : s.runningStep h with
  | none =>
    rw [step] at gate
    cases gate
  | some w => exact (State.runningStep_eq_some_iff.1 step).1

theorem State.current_of_running (step : s.runningStep h = some w) : s.current h = some w :=
  State.current_eq_some_iff.2 (State.runningStep_eq_some_iff.1 step).2

/-! ## The step ends at a compare -/

/-- The working record with CLAMPED as a compare sets it (R36, R60). -/
def Working.clamp (w : Working) (b : Bool) : Working := { w with flags := { w.flags with clamped := w.flags.clamped || b } }

theorem Working.clamp_false (w : Working) : w.clamp false = w := by
  simp [Working.clamp]

theorem State.endDue_eq (current : s.current h = some w) (o : StepOutcome) (b : Bool) :
    s.endDue (h, o, b) = (s.setWorking h (w.clamp b)).finishStep h o := by
  rw [State.endDue, State.modWorking, current]
  rfl

/-- The result that a compare writes (R40, R60). -/
def State.dueResult (s : State) (h : HeadId) (w : Working) (o : StepOutcome) (b : Bool) : ResultRecord :=
  (s.collect h (w.clamp b)).result o s.beat.counter

theorem State.collect_owned (owned : s.ownedPlaten h = some p) (w : Working) :
    s.collect h w =
      { w with
        accrued := (s.base p).accumulator
        limit := ((s.base p).owner.map Owner.limit).getD w.limit
        flags := { w.flags with amendDropped := w.flags.amendDropped || !(s.base p).amend.isEmpty } } := by
  rw [State.collect, owned]

theorem State.results_endDue (current : s.current h = some w) (o : StepOutcome) (b : Bool) :
    (s.seq h).results ++ [s.dueResult h w o b] <+: ((s.endDue (h, o, b)).seq h).results := by
  have written := State.results_finishStep (State.current_setWorking s h (w.clamp b)) o
  rw [State.endDue_eq current]
  rw [State.setWorking, State.modSeq_eq, State.seq_setSeq_self] at written
  exact written

/-! ## The last step of a list -/

/-- A POLISH step that was the last has left its platen's line, sweep and head (R38, R39). -/
def State.cleared (s : State) (h : HeadId) (o : StepOutcome) : State :=
  (((s.closeStep h o).liftUp h).withdraw h).dropLine h

theorem State.finishStep_last_polish {r : PolishRecord} (current : s.current h = some w) (kind : w.record.kind = .polish r)
    (last : (s.seq h).steps.length ≤ w.index + 1) (o : StepOutcome) :
    s.finishStep h o = (s.cleared h o).handOnAll.enterIdle h := by
  rw [State.finishStep_last current last, Working.polish?_polish kind]
  rfl

theorem State.seq_cleared (current : s.current h = some w) (o : StepOutcome) :
    (s.cleared h o).seq h = (s.seq h).ended o w.record.action ((s.collect h w).result o s.beat.counter) := by
  rw [State.cleared, (Aside.dropLine (h := h) _ h).seq, (Aside.withdraw (h := h) _ h).seq, State.seq_liftUp,
    State.seq_closeStep current]

theorem State.isDown_cleared (s : State) (h : HeadId) (o : StepOutcome) : (s.cleared h o).isDown h = false := by
  rw [State.cleared, (Aside.dropLine (h := h) _ h).isDown, (Aside.withdraw (h := h) _ h).isDown, State.isDown_liftUp,
    if_pos rfl]

theorem State.finishStep_idle {r : PolishRecord} (current : s.current h = some w) (kind : w.record.kind = .polish r)
    (last : (s.seq h).steps.length ≤ w.index + 1) (o : StepOutcome) :
    (s.finishStep h o).isDown h = false ∧
      (s.finishStep h o).seq h =
        { (s.seq h).ended o w.record.action ((s.collect h w).result o s.beat.counter) with state := .idle } := by
  have aside : Aside h (s.cleared h o) (s.cleared h o).handOnAll :=
    .handOnAll _ (State.polishing_of_idle (by rw [State.seq_cleared current]; rfl))
  rw [State.finishStep_last_polish current kind last]
  refine ⟨(State.takeEnd_isDown _ h .idle h).trans (aside.isDown.trans (State.isDown_cleared ..)), ?_⟩
  refine (State.seq_takeEnd _ h .idle).trans ?_
  rw [aside.seq, State.seq_cleared current]
  rfl

section
variable {l : LineId} {f : Nat}

theorem Cascade.cleared (s : State) (h : HeadId) (o : StepOutcome) : Cascade s (s.cleared h o) :=
  (((Cascade.closeStep ..).trans (.liftUp ..)).trans (.withdraw ..)).trans (.dropLine ..)

theorem State.closeStep_writes (s : State) (h : HeadId) (o : StepOutcome) :
    ∃ q b x r, s.closeStep h o = { s with seqs := q, bases := b, quals := x, ports := r } := by
  unfold State.closeStep
  split
  · exact ⟨_, _, _, _, rfl⟩
  · obtain ⟨b, disowned⟩ := State.disown_writes s h
    obtain ⟨x, r, unwatched⟩ := State.closeWatchOf_writes (s.disown h) h
    dsimp only
    rw [unwatched, disowned]
    exact ⟨_, b, x, r, rfl⟩

theorem Aside.closeStep (s : State) {h g : HeadId} (ne : h ≠ g) (o : StepOutcome) : Aside g s (s.closeStep h o) := by
  unfold State.closeStep
  split
  · exact .refl ..
  · exact ((Aside.disown s h).trans (.closeWatchOf _ h)).trans (.modSeq _ _ ne)

theorem Aside.cleared (s : State) {h g : HeadId} (ne : h ≠ g) (o : StepOutcome) : Aside g s (s.cleared h o) :=
  (((Aside.closeStep s ne o).trans (.liftUp _ ne)).trans (.withdraw ..)).trans (.dropLine ..)

theorem State.stalled_disown (s : State) (h : HeadId) (j : PlatenId) :
    ((s.disown h).base j).stalled = (s.base j).stalled := (Seated.disown s h).stalled j

theorem State.cleared_seats (s : State) (h : HeadId) (o : StepOutcome) :
    (∀ d, ((s.cleared h o).station d).holder = (s.station d).holder) ∧
      ∀ j, ((s.cleared h o).base j).stalled = (s.base j).stalled := by
  obtain ⟨q, b, x, r, closed⟩ := s.closeStep_writes h o
  obtain ⟨z, c, k, y, lifted⟩ := (s.closeStep h o).liftUp_writes h
  obtain ⟨c', withdrawn⟩ := State.withdraw_writes ((s.closeStep h o).liftUp h) h
  obtain ⟨k', dropped⟩ := State.dropLine_writes (((s.closeStep h o).liftUp h).withdraw h) h
  refine ⟨fun d => ?_, fun j => ?_⟩
  · rw [State.cleared, dropped, withdrawn, lifted, closed]
    rfl
  · rw [State.cleared, dropped, withdrawn, lifted]
    show ((s.closeStep h o).base j).stalled = _
    unfold State.closeStep
    split
    · rfl
    · obtain ⟨x, r, unwatched⟩ := State.closeWatchOf_writes (s.disown h) h
      dsimp only
      rw [unwatched]
      exact State.stalled_disown s h j

/-- The line of the last step is free (R38, R83). -/
theorem State.OneLine.cleared (k : s.OneLine h p l f) (o : StepOutcome) :
    (s.cleared h o).line l = { s.line l with state := .idle } ∧
      ∀ j, j ≠ l → ((s.cleared h o).line j).state = .idle → ((s.cleared h o).line j).wait = [] := by
  obtain ⟨q, b, x, r, closed⟩ := s.closeStep_writes h o
  obtain ⟨z, c, y, r', lifted⟩ := (s.closeStep h o).liftUp_writes h
  obtain ⟨c', withdrawn⟩ := State.withdraw_writes ((s.closeStep h o).liftUp h) h
  have lines : (((s.closeStep h o).liftUp h).withdraw h).lines = s.lines := by rw [withdrawn, lifted, closed]
  have before : (((s.closeStep h o).liftUp h).withdraw h).OneLine h p l f :=
    k.congr (by rw [withdrawn, lifted, closed]; rfl) lines
  obtain ⟨line, others⟩ := before.dropLine
  refine ⟨line.trans ?_, others⟩
  rw [State.line, lines]
  rfl

end

/-! ## An advance of the accumulator -/

/-- The accumulator of a platen at a value, the pad's polish mark set (R59, R156). -/
def State.accrued (s : State) (p : PlatenId) (v : Nat) : State :=
  (s.setBase p { s.base p with accumulator := v }).setPad p { s.pad p with polishMark := true }

theorem State.accrueTo_eq (s : State) (p : PlatenId) (v : Nat) :
    s.accrueTo p v =
      match (s.accrued p v).due p with
      | some e => (s.accrued p v).endDue e
      | none => s.accrued p v := rfl

theorem State.base_accrued (s : State) (p : PlatenId) (v : Nat) :
    (s.accrued p v).base p = { s.base p with accumulator := v } := State.base_setBase_self ..

theorem State.ownedPlaten_accrued (s : State) (p : PlatenId) (v : Nat) (h : HeadId) :
    (s.accrued p v).ownedPlaten h = s.ownedPlaten h := by
  unfold State.ownedPlaten
  congr 1
  funext j
  by_cases own : j = p
  · subst own
    rw [State.base_accrued]
  · rw [State.accrued, State.base_setPad, State.base_setBase_ne _ _ own]

theorem State.due_accrued (owner : (s.base p).owner = some ⟨h, limit, clk⟩) (step : s.runningStep h = some w) (v : Nat) :
    (s.accrued p v).due p = (w.due v limit).map fun e => (h, e.1, e.2) := by
  rw [State.due_of (s := s.accrued p v) (limit := limit) (clk := clk) (by rw [State.base_accrued]; exact owner) step,
    State.base_accrued]

/-- The step does not end at the value reached. -/
theorem State.accrueTo_goesOn (owner : (s.base p).owner = some ⟨h, limit, clk⟩) (step : s.runningStep h = some w) {v : Nat}
    (short : w.due v limit = none) : s.accrueTo p v = s.accrued p v := by
  rw [State.accrueTo_eq, State.due_accrued owner step, short]
  rfl

/-- The step ends at the value reached (R60). -/
theorem State.accrueTo_ends (owner : (s.base p).owner = some ⟨h, limit, clk⟩) (step : s.runningStep h = some w) {v : Nat}
    {o : StepOutcome} {b : Bool} (due : w.due v limit = some (o, b)) :
    s.accrueTo p v = (s.accrued p v).endDue (h, o, b) := by
  rw [State.accrueTo_eq, State.due_accrued owner step, due]
  rfl

/-- The result of a step that ends at the value reached (R40, R60). -/
theorem State.dueResult_accrued (owned : s.ownedPlaten h = some p) (v : Nat) (o : StepOutcome) (b : Bool) :
    let x := (s.accrued p v).dueResult h w o b
    x.index = w.index ∧ x.accrued = v ∧ x.outcome = o ∧ x.flags.clamped = (w.flags.clamped || b) ∧
      x.overpolish = (match w.confirmed with
        | some c => v - c.capture.accrued
        | none => 0) ∧
      x.capture = if o = .endpoint then w.confirmed.map Confirmed.capture else none := by
  rw [State.dueResult, State.collect_owned ((State.ownedPlaten_accrued ..).trans owned), State.base_accrued]
  exact ⟨rfl, rfl, rfl, rfl, rfl, rfl⟩

/-- The last step of a list ends at the value reached (R38, R39, R60). -/
theorem State.accrueTo_last {r : PolishRecord} (owner : (s.base p).owner = some ⟨h, limit, clk⟩)
    (step : s.runningStep h = some w) {v : Nat} {o : StepOutcome} {b : Bool} (due : w.due v limit = some (o, b))
    (kind : w.record.kind = .polish r) (last : (s.seq h).steps.length ≤ w.index + 1) :
    (s.accrueTo p v).isDown h = false ∧
      (s.accrueTo p v).seq h =
        { (s.seq h).ended o w.record.action ((s.accrued p v).dueResult h w o b) with state := .idle } := by
  have current : (s.accrued p v).current h = some w := State.current_of_running step
  obtain ⟨up, seq⟩ := State.finishStep_idle (State.current_setWorking (s.accrued p v) h (w.clamp b))
    (r := r) kind (by rw [State.setWorking, State.modSeq_eq, State.seq_setSeq_self]; exact last) o
  rw [State.accrueTo_ends owner step due, State.endDue_eq current]
  refine ⟨up, seq.trans ?_⟩
  rw [State.setWorking, State.modSeq_eq, State.seq_setSeq_self, Sequencer.ended_eq]
  rfl

theorem State.line_takeEnd (s : State) (h : HeadId) (e : EndState) (l : LineId) : (s.takeEnd h e).line l = s.line l := by
  obtain ⟨q, x, writes⟩ := s.takeEnd_writes (h := h) e
  rw [writes]
  rfl

/-- The line of a last step goes to the nozzle that waited longest (R83). -/
theorem State.accrueTo_handsOn {r : PolishRecord} {l : LineId} {f : Nat}
    (owner : (s.base p).owner = some ⟨h, limit, clk⟩) (step : s.runningStep h = some w) {v : Nat} {o : StepOutcome}
    {b : Bool} (due : w.due v limit = some (o, b)) (kind : w.record.kind = .polish r)
    (last : (s.seq h).steps.length ≤ w.index + 1) (one : s.OneLine h p l f) (clear : s.trip.tripped = false) :
    s.HandedOn (s.accrueTo p v).settle l := by
  have current : (s.accrued p v).current h = some w := State.current_of_running step
  have ends : s.accrueTo p v =
      (((s.accrued p v).setWorking h (w.clamp b)).cleared h o).handOnAll.enterIdle h := by
    rw [State.accrueTo_ends owner step due, State.endDue_eq current]
    exact State.finishStep_last_polish (State.current_setWorking (s.accrued p v) h (w.clamp b)) (r := r) kind
      (by rw [State.setWorking, State.modSeq_eq, State.seq_setSeq_self]; exact last) o
  have advanced : Cascade s ((s.accrued p v).setWorking h (w.clamp b)) :=
    have base : Cascade s (s.setBase p { s.base p with accumulator := v }) := .setBase ⟨rfl, rfl, rfl, rfl⟩
    have pad : Cascade (s.setBase p { s.base p with accumulator := v }) (s.accrued p v) :=
      .setPad (i := p) (x := { (s.setBase p { s.base p with accumulator := v }).pad p with polishMark := true })
        ⟨rfl, rfl, rfl, rfl, rfl, rfl, rfl, Nat.le_refl _⟩
    (base.trans pad).trans (.setWorking ..)
  have one' : ((s.accrued p v).setWorking h (w.clamp b)).OneLine h p l f := one.congr rfl rfl
  obtain ⟨line, others⟩ := one'.cleared o
  obtain ⟨holder, stalled⟩ := ((s.accrued p v).setWorking h (w.clamp b)).cleared_seats h o
  have stalled' : ∀ j, ((s.accrued p v).base j).stalled = (s.base j).stalled := fun j => by
    by_cases own : j = p
    · subst own
      rw [State.base_accrued]
    · rw [State.accrued, State.base_setPad, State.base_setBase_ne _ _ own]
  refine one.handedOn clear (advanced.trans (.cleared ..)) holder (fun j => (stalled j).trans (stalled' j))
    (fun g ne => (Aside.trans {} (.setWorking (s.accrued p v) _ (Ne.symm ne))).trans (.cleared _ (Ne.symm ne) o)) line
    others ?_ fun g ne => ?_
  · rw [State.line_settle, ends]
    exact State.line_takeEnd _ h .idle l
  · rw [ends]
    exact (Aside.takeEnd _ h (Ne.symm ne) .idle).trans (.settle _)

/-! ## O50 -/

theorem State.accruing_of (gate : s.gate p = true) (owner : (s.base p).owner = some ⟨h, limit, clk⟩)
    (step : s.runningStep h = some w) : s.accruing p = some (w, limit) := by
  rw [State.accruing, if_pos gate, owner]
  dsimp only
  rw [step]
  rfl

theorem State.accruing_not (off : s.gate p = false) : s.accruing p = none := by
  rw [State.accruing, off]
  rfl

theorem State.reachLimit_not (off : s.gate p = false) : s.reachLimit p = s := by
  rw [State.reachLimit, State.accruing_not off]

theorem State.reachTarget_not (off : s.gate p = false) : s.reachTarget p = s := by
  rw [State.reachTarget, State.accruing_not off]

theorem State.reachLimit_of (accruing : s.accruing p = some (w, limit)) (short : (s.base p).accumulator < limit)
    (first : ∀ c, w.confirmed = some c → limit ≤ c.capture.accrued + c.target) :
    s.reachLimit p = s.accrueTo p limit := by
  have value : max ((s.base p).accumulator + 1) limit = limit := Nat.max_eq_right short
  rw [State.reachLimit, accruing]
  dsimp only
  cases confirmed : w.confirmed with
  | none =>
    dsimp only
    rw [value]
  | some c =>
    dsimp only
    rw [if_neg (Nat.not_lt.2 (first c confirmed)), value]

theorem State.reachTarget_of {c : Confirmed} (accruing : s.accruing p = some (w, limit)) (confirmed : w.confirmed = some c)
    (first : c.capture.accrued + c.target ≤ limit) (short : (s.base p).accumulator < c.capture.accrued + c.target) :
    s.reachTarget p = s.accrueTo p (c.capture.accrued + c.target) := by
  rw [State.reachTarget, accruing]
  dsimp only
  rw [confirmed]
  dsimp only
  rw [if_neg (Nat.not_lt.2 first), Nat.max_eq_right short]

end

/-- Settles O50: the accumulator stands at the limit or the target, and the compare ends the step there. -/
theorem accumulatorEnds : Obligations.AccumulatorEnds := by
  unfold Obligations.AccumulatorEnds
  refine fun s p => ⟨fun off => ⟨?_, ?_⟩, fun h w r limit clk gate owner owned busy kind short =>
    ⟨fun phase unconfirmed => ?_, fun c phase confirmed cut reached => ?_, fun c phase confirmed first below => ?_⟩⟩
  case _ =>
    show Host.Outcome.next (s.reachLimit p).settle = _
    rw [State.reachLimit_not off]
  case _ =>
    show Host.Outcome.next (s.reachTarget p).settle = _
    rw [State.reachTarget_not off]
  all_goals
    have step := State.runningStep_eq_some_iff.2 ⟨State.running_of_gate owner gate, busy⟩
    have current : ∀ v, (s.accrued p v).current h = some w := fun v => State.current_of_running (s := s) step
    have accruing := State.accruing_of gate owner step
  case _ =>
    have due : w.due limit limit = some (r.atLimit, false) := by
      rw [Working.due_polish kind phase, if_pos (Nat.le_refl _)]
    have reach := State.reachLimit_of accruing short fun c confirmed => by rw [unconfirmed] at confirmed; cases confirmed
    have results := State.results_endDue (current limit) r.atLimit false
    rw [← State.accrueTo_ends owner step due, ← reach] at results
    obtain ⟨index, units, outcome, -⟩ := State.dueResult_accrued (w := w) owned limit r.atLimit false
    refine ⟨(s.reachLimit p).settle, (s.accrued p limit).dueResult h w r.atLimit false, rfl, ?_, index, units, outcome,
      fun last => ?_⟩
    · rw [State.seq_settle]
      exact results
    · obtain ⟨up, seq⟩ := State.accrueTo_last owner step due kind last
      rw [State.isDown_settle, State.seq_settle, reach, up, seq, outcome]
      exact ⟨rfl, rfl, fun l f _ stands bound new alone clear free =>
        State.accrueTo_handsOn owner step due kind last ⟨stands, bound, new, alone, free⟩ clear⟩
  case _ =>
    have due : w.due limit limit = some (.endpoint, true) := by
      rw [Working.due_overpolish kind phase confirmed, if_neg (by omega), if_pos (Nat.le_refl _)]
    have reach := State.reachLimit_of accruing short fun k confirmed' => by
      rw [confirmed] at confirmed'
      cases confirmed'
      omega
    have results := State.results_endDue (current limit) .endpoint true
    rw [← State.accrueTo_ends owner step due, ← reach] at results
    obtain ⟨-, -, outcome, clamped, extra, capture⟩ := State.dueResult_accrued (w := w) owned limit .endpoint true
    rw [confirmed] at extra capture
    refine ⟨(s.reachLimit p).settle, (s.accrued p limit).dueResult h w .endpoint true, rfl, ?_, outcome,
      clamped.trans (Bool.or_true _), extra, capture⟩
    rw [State.seq_settle]
    exact results
  case _ =>
    have due : w.due (c.capture.accrued + c.target) limit = some (.endpoint, false) := by
      rw [Working.due_overpolish kind phase confirmed, if_pos (by omega)]
    have reach := State.reachTarget_of accruing confirmed first below
    have results := State.results_endDue (current (c.capture.accrued + c.target)) .endpoint false
    rw [← State.accrueTo_ends owner step due, ← reach] at results
    obtain ⟨-, -, outcome, clamped, extra, capture⟩ :=
      State.dueResult_accrued (w := w) owned (c.capture.accrued + c.target) .endpoint false
    rw [confirmed] at extra capture
    refine ⟨(s.reachTarget p).settle, (s.accrued p (c.capture.accrued + c.target)).dueResult h w .endpoint false, rfl, ?_,
      outcome, clamped.trans (Bool.or_false _), extra.trans (Nat.add_sub_cancel_left ..), capture, fun last => ?_⟩
    · rw [State.seq_settle]
      exact results
    · obtain ⟨up, seq⟩ := State.accrueTo_last owner step due kind last
      rw [State.isDown_settle, State.seq_settle, reach, up, seq]
      exact ⟨rfl, rfl⟩

end Sys2Proof.Machine
end

section
/-!
PROOFS. Revolution boundaries (R53): the pad that has aged, the qualifier that has counted down, and the unit of a REVS step;
then the counts (R50, R51, R57) and the index pulses (R52) that make a boundary.
-/
namespace Sys2Proof.Machine

/-! ## Accrual of one unit -/

section
variable {s : State} {h : HeadId} {p : PlatenId} {w : Working} {limit : Nat} {clk c : StepClock}

theorem State.accrue_of (gate : s.gate p = true) (clock : (s.base p).owner.map Owner.clock = some c) :
    s.accrue p c = s.accrueTo p ((s.base p).accumulator + 1) := by
  rw [State.accrue, if_pos ⟨gate, clock⟩]

theorem State.accrue_off (off : s.gate p = false) : s.accrue p c = s := by
  rw [State.accrue, if_neg fun k => by rw [k.1] at off; cases off]

theorem State.accrue_other (owner : (s.base p).owner = some ⟨h, limit, clk⟩) (other : clk ≠ c) : s.accrue p c = s := by
  rw [State.accrue, if_neg fun k => by rw [owner] at k; exact other (Option.some.inj k.2)]

theorem State.accrue_short (owner : (s.base p).owner = some ⟨h, limit, clk⟩) (step : s.runningStep h = some w)
    (gate : s.gate p = true) (short : w.due ((s.base p).accumulator + 1) limit = none) :
    s.accrue p clk = s.accrued p ((s.base p).accumulator + 1) := by
  rw [State.accrue_of gate (by rw [owner]; rfl), State.accrueTo_goesOn owner step short]

/-- A unit that does not end the step is written into the timebase and marks the pad, and does nothing else. -/
theorem State.accrue_writes (owner : (s.base p).owner = some ⟨h, limit, clk⟩) (step : s.runningStep h = some w)
    (short : clk = c → w.due ((s.base p).accumulator + 1) limit = none) :
    ∃ b k, s.accrue p c = { s with bases := b, pads := k } ∧ ((s.accrue p c).base p).owner = (s.base p).owner ∧
      ((s.accrue p c).base p).amend = (s.base p).amend := by
  by_cases clock : clk = c
  · subst clock
    cases gate : s.gate p with
    | false => rw [State.accrue_off gate]; exact ⟨s.bases, s.pads, rfl, rfl, rfl⟩
    | true =>
      rw [State.accrue_short owner step gate (short rfl), State.base_accrued]
      exact ⟨_, _, rfl, rfl, rfl⟩
  · rw [State.accrue_other owner clock]
    exact ⟨s.bases, s.pads, rfl, rfl, rfl⟩

theorem Timebase.countSeen_stalled (b : Timebase) : b.countSeen.stalled = false := by
  unfold Timebase.countSeen
  split
  · rfl
  · next quiet => exact Bool.eq_false_iff.2 fun on => quiet (by simp [on])

theorem Timebase.countSeen_step (b : Timebase) :
    b.countSeen.owner = b.owner ∧ b.countSeen.accumulator = b.accumulator ∧ b.countSeen.amend = b.amend := by
  unfold Timebase.countSeen
  split <;> exact ⟨rfl, rfl, rfl⟩

end

/-! ## The aged platen -/

/-- A platen at a revolution boundary whose pad has aged and whose qualifier has counted down (R53). -/
def State.aged (s : State) (p : PlatenId) : State :=
  (s.padBoundary p).modQual p fun q => q.boundary (s.base p).revolution

section
variable (s : State) (p : PlatenId)

theorem State.boundary_eq : s.boundary p = (s.aged p).boundaryAccrual p := rfl

theorem State.padBoundary_writes : ∃ k x, s.padBoundary p = { s with pads := k, ports := x } := by
  unfold State.padBoundary
  split
  · unfold State.padCrossing
    dsimp only
    repeat' split
    all_goals exact ⟨_, _, rfl⟩
  · exact ⟨s.pads, s.ports, rfl⟩

theorem State.aged_writes : ∃ k x u, s.aged p = { s with pads := k, ports := x, quals := u } := by
  obtain ⟨k, x, writes⟩ := s.padBoundary_writes p
  refine ⟨k, x, (s.aged p).quals, ?_⟩
  rw [State.aged, writes]
  rfl

theorem State.padCrossing_keeps :
    ((s.padCrossing p).pad p).life = (s.pad p).life ∧ ((s.padCrossing p).pad p).polishMark = (s.pad p).polishMark := by
  unfold State.padCrossing
  dsimp only
  repeat' split
  · rw [State.pad_raise, State.pad_setPad_self]
    exact ⟨rfl, rfl⟩
  · rw [State.pad_raise, State.pad_setPad_self]
    exact ⟨rfl, rfl⟩
  · exact ⟨rfl, rfl⟩

theorem State.pad_aged :
    ((s.aged p).pad p).life = (if s.padPressed p then satSucc 4294967295 (s.pad p).life else (s.pad p).life) ∧
      ((s.aged p).pad p).polishMark = (s.pad p).polishMark := by
  show ((s.padBoundary p).pad p).life = _ ∧ ((s.padBoundary p).pad p).polishMark = _
  rw [State.padBoundary]
  split
  · obtain ⟨life, mark⟩ := (s.modPad p fun k => { k with life := satSucc Config.max32 k.life }).padCrossing_keeps p
    rw [life, mark, State.modPad_eq, State.pad_setPad_self]
    exact ⟨rfl, rfl⟩
  · exact ⟨rfl, rfl⟩

theorem State.qual_aged : (s.aged p).qual p = (s.qual p).boundary (s.base p).revolution := by
  obtain ⟨k, x, writes⟩ := s.padBoundary_writes p
  rw [State.aged, State.modQual_eq, State.qual_setQual_self, writes]
  rfl

theorem State.base_aged (j : PlatenId) : (s.aged p).base j = s.base j := by
  obtain ⟨k, x, u, writes⟩ := s.aged_writes p
  rw [writes]
  rfl

theorem State.seq_aged (h : HeadId) : (s.aged p).seq h = s.seq h := by
  obtain ⟨k, x, u, writes⟩ := s.aged_writes p
  rw [writes]
  rfl

theorem State.runningStep_aged (h : HeadId) : (s.aged p).runningStep h = s.runningStep h := by
  obtain ⟨k, x, u, writes⟩ := s.aged_writes p
  rw [writes]
  rfl

theorem State.gate_aged (j : PlatenId) : (s.aged p).gate j = s.gate j := by
  obtain ⟨k, x, u, writes⟩ := s.aged_writes p
  rw [writes]
  rfl

theorem State.ownedPlaten_aged (h : HeadId) : (s.aged p).ownedPlaten h = s.ownedPlaten h := by
  obtain ⟨k, x, u, writes⟩ := s.aged_writes p
  rw [writes]
  rfl

theorem State.headOn_aged (j : PlatenId) : (s.aged p).headOn j = s.headOn j := by
  obtain ⟨k, x, u, writes⟩ := s.aged_writes p
  rw [writes]
  rfl

theorem State.polishing_aged (h : HeadId) : (s.aged p).polishing h = s.polishing h := by
  obtain ⟨k, x, u, writes⟩ := s.aged_writes p
  rw [writes]
  rfl

variable {s p}

theorem AmendBuffer.isEmpty_iff (a : AmendBuffer) : a.isEmpty = true ↔ a = ⟨none, none, none⟩ := by
  obtain ⟨limit, fixed, percent⟩ := a
  simp [AmendBuffer.isEmpty, and_assoc]

theorem State.boundary_unamended (empty : (s.base p).amend = ⟨none, none, none⟩) :
    s.boundary p = (s.aged p).accrue p .revs := by
  have none : (s.aged p).loadAmend p = s.aged p := by
    rw [State.loadAmend, State.base_aged]
    split
    · rfl
    · rw [if_pos ((AmendBuffer.isEmpty_iff _).2 empty)]
  rw [State.boundary_eq, State.boundaryAccrual]
  rw [none, State.base_aged, if_pos ((AmendBuffer.isEmpty_iff _).2 empty)]

end

/-! ## After a count -/

section
variable (s : State) (p : PlatenId)

theorem State.platenSeen_writes : ∃ c, s.platenSeen p = { s.modBase p Timebase.countSeen with conds := c } := by
  unfold State.platenSeen
  split
  · unfold State.resumeRun
    split
    · exact ⟨_, rfl⟩
    · exact ⟨_, rfl⟩
  · exact ⟨_, rfl⟩

theorem State.base_platenSeen : (s.platenSeen p).base p = (s.base p).countSeen := by
  obtain ⟨c, writes⟩ := s.platenSeen_writes p
  rw [writes]
  exact State.base_setBase_self ..

variable {s p} {h : HeadId} {w : Working} {r : PolishRecord}

theorem State.forwardToHead_gap (on : s.headOn p = some h) (polishes : s.polishing h = some (w, r, p))
    (phase : w.phase = some .gap) :
    s.forwardToHead p =
      if w.gapRemaining ≤ 1 then s.enterPolish h else s.setWorking h { w with gapRemaining := w.gapRemaining - 1 } := by
  have at_ : (s.headOn p).bind s.polishing = some (w, r, p) := by rw [on]; exact polishes
  rw [State.forwardToHead, at_]
  dsimp only
  rw [on, phase]

theorem State.forwardToHead_accrues (on : s.headOn p = some h) (polishes : s.polishing h = some (w, r, p))
    (other : w.phase ≠ some .gap) : s.forwardToHead p = s.accrue p .counts := by
  have at_ : (s.headOn p).bind s.polishing = some (w, r, p) := by rw [on]; exact polishes
  rw [State.forwardToHead, at_]
  dsimp only
  rw [on]
  split
  · next phase => exact absurd phase other
  · rfl

end

/-! ## What follows a boundary -/

/-- What the instruction that made a boundary does after it: nothing, the notice of a slip, or the rest of a FORWARD count
(R50, R52). -/
inductive State.FollowedBy (v : State) (p : PlatenId) : State → Prop where
  | index : v.FollowedBy p v
  | slip : v.FollowedBy p (v.raise .recipe (.encoderSlip p))
  | count : v.FollowedBy p ((v.platenSeen p).forwardToHead p)

/-- The timebase of a platen that has come to a boundary. -/
def Timebase.carried (b : Timebase) (d : Rotation) : Timebase :=
  { b with direction := d, position := 0, revolution := b.revolution + 1 }

section
variable {s v u : State} {p : PlatenId}

theorem Timebase.countForward_boundary {b : Timebase} (edge : b.config.cpr ≤ b.position + 1) :
    b.countForward = (b.carried .forward, true) := by
  rw [Timebase.countForward, if_pos edge]
  rfl

theorem Timebase.countForward_within {b : Timebase} (within : b.position + 1 < b.config.cpr) :
    b.countForward = ({ b with direction := .forward, position := b.position + 1 }, false) := by
  rw [Timebase.countForward, if_neg (Nat.not_le.2 within)]

theorem Timebase.index_still {b : Timebase} (zero : b.position = 0) : b.index = (b, false, false) := by
  rw [Timebase.index, if_pos zero]

theorem Timebase.index_lower {b : Timebase} (off : 0 < b.position) (lower : 2 * b.position < b.config.cpr) :
    b.index = ({ b with position := 0 }, false, decide (b.config.tolerance < b.position)) := by
  rw [Timebase.index, if_neg off.ne', if_pos lower]

theorem Timebase.index_upper {b : Timebase} (off : 0 < b.position) (upper : b.config.cpr ≤ 2 * b.position) :
    b.index = (b.carried b.direction, true, decide (b.config.tolerance < b.config.cpr - b.position)) := by
  rw [Timebase.index, if_neg off.ne', if_neg (Nat.not_lt.2 upper)]
  rfl

theorem exec_atBoundary {c : Instr} (edge : c.atBoundary s p) :
    ∃ d t, exec c s = .next t.settle ∧
      ((s.setBase p ((s.base p).carried d)).boundary p).FollowedBy p t := by
  rcases edge with ⟨rfl, edge⟩ | ⟨rfl, off, upper⟩
  · refine ⟨.forward, s.countForward p, rfl, ?_⟩
    rw [State.countForward, Timebase.countForward_boundary edge]
    exact .count
  · refine ⟨(s.base p).direction, s.indexPulse p, rfl, ?_⟩
    rw [State.indexPulse, Timebase.index_upper off upper]
    dsimp only
    rw [if_pos rfl]
    split
    · exact .slip
    · exact .index

theorem State.FollowedBy.cascade (k : v.FollowedBy p u) : Cascade v u := by
  cases k with
  | index => exact .refl v
  | slip => exact .raise ..
  | count => exact (Cascade.platenSeen ..).trans (.forwardToHead ..)

variable {h : HeadId} {w : Working} {r : PolishRecord} {limit : Nat} {clk : StepClock}

/-- After a boundary, a step that its next unit does not end goes on (R59). -/
theorem State.FollowedBy.goesOn (k : v.FollowedBy p u) (owner : (v.base p).owner = some ⟨h, limit, clk⟩)
    (on : v.headOn p = some h) (polishes : v.polishing h = some (w, r, p)) (other : w.phase ≠ some .gap)
    (short : clk = .counts → w.due ((v.base p).accumulator + 1) limit = none) :
    u.seq h = v.seq h ∧ u.qual p = v.qual p ∧ (u.base p).owner = (v.base p).owner ∧
      (u.base p).amend = (v.base p).amend ∧
      (clk ≠ .counts → (u.base p).accumulator = (v.base p).accumulator ∧ u.pad p = v.pad p) := by
  cases k with
  | index => exact ⟨rfl, rfl, rfl, rfl, fun _ => ⟨rfl, rfl⟩⟩
  | slip => exact ⟨rfl, rfl, rfl, rfl, fun _ => ⟨rfl, rfl⟩⟩
  | count =>
    have seen := v.base_platenSeen p
    obtain ⟨owner', units, amend⟩ := (v.base p).countSeen_step
    rw [← seen] at owner' units amend
    obtain ⟨x, writes⟩ := v.platenSeen_writes p
    have on' : (v.platenSeen p).headOn p = some h := by rw [writes]; exact on
    have polishes' : (v.platenSeen p).polishing h = some (w, r, p) := by rw [writes]; exact polishes
    have step : (v.platenSeen p).runningStep h = some w := (State.polishing_eq_some_iff.1 polishes').1
    have seq : (v.platenSeen p).seq h = v.seq h := by rw [writes]; rfl
    have qual : (v.platenSeen p).qual p = v.qual p := by rw [writes]; rfl
    have pad : (v.platenSeen p).pad p = v.pad p := by rw [writes]; rfl
    obtain ⟨b, j, accrues, kept, buffer⟩ := State.accrue_writes (c := .counts) (owner'.trans owner) step (by
      rw [units]
      exact short)
    rw [State.forwardToHead_accrues on' polishes' other]
    refine ⟨Eq.trans ?_ seq, Eq.trans ?_ qual, kept.trans owner', buffer.trans amend, fun clock => ?_⟩
    · rw [accrues]
      rfl
    · rw [accrues]
      rfl
    · rw [State.accrue_other (owner'.trans owner) clock]
      exact ⟨units, pad⟩

end

end Sys2Proof.Machine
end

section
/-! PROOFS. What an index pulse (R52) and a platen count (R50, R51, R57) do: O38 and O37. -/
namespace Sys2Proof.Machine

section
variable {s : State} {p : PlatenId}

/-! ## Index pulses -/

theorem exec_indexPulse_still (zero : (s.base p).position = 0) : exec (.indexPulse p) s = .next s.settle := by
  have pulse : s.indexPulse p = s := by
    rw [State.indexPulse, Timebase.index_still zero]
    exact State.setBase_base ..
  show Host.Outcome.next (s.indexPulse p).settle = _
  rw [pulse]

theorem exec_indexPulse_lower (off : 0 < (s.base p).position)
    (lower : 2 * (s.base p).position < (s.base p).config.cpr) :
    exec (.indexPulse p) s = .next
      (if (s.base p).config.tolerance < (s.base p).position then
        (s.modBase p fun b => { b with position := 0 }).raise .recipe (.encoderSlip p)
      else s.modBase p fun b => { b with position := 0 }).settle := by
  have pulse : s.indexPulse p =
      if (s.base p).config.tolerance < (s.base p).position then
        (s.modBase p fun b => { b with position := 0 }).raise .recipe (.encoderSlip p)
      else s.modBase p fun b => { b with position := 0 } := by
    rw [State.indexPulse, Timebase.index_lower off lower]
    simp only [decide_eq_true_eq, Bool.false_eq_true, if_false]
    rfl
  show Host.Outcome.next (s.indexPulse p).settle = _
  rw [pulse]

theorem exec_indexPulse_upper (off : 0 < (s.base p).position)
    (upper : (s.base p).config.cpr ≤ 2 * (s.base p).position) :
    exec (.indexPulse p) s = .next
      (if (s.base p).config.tolerance < (s.base p).config.cpr - (s.base p).position then
        ((s.setBase p ((s.base p).carried (s.base p).direction)).boundary p).raise .recipe (.encoderSlip p)
      else (s.setBase p ((s.base p).carried (s.base p).direction)).boundary p).settle := by
  have pulse : s.indexPulse p =
      if (s.base p).config.tolerance < (s.base p).config.cpr - (s.base p).position then
        ((s.setBase p ((s.base p).carried (s.base p).direction)).boundary p).raise .recipe (.encoderSlip p)
      else (s.setBase p ((s.base p).carried (s.base p).direction)).boundary p := by
    rw [State.indexPulse, Timebase.index_upper off upper]
    simp only [decide_eq_true_eq, if_true]
  show Host.Outcome.next (s.indexPulse p).settle = _
  rw [pulse]

theorem State.base_boundary (x : Timebase) : BaseKept x (((s.setBase p x).boundary p).base p) := by
  obtain ⟨k, -, cascade⟩ := (s.setBase p x).boundary_aged p
  have kept := cascade.base p
  rw [State.base_setPad, State.base_setBase_self] at kept
  exact kept

theorem Cascade.boundary (s : State) (p : PlatenId) : Cascade (s.aged p) (s.boundary p) := .boundaryAccrual ..

/-! ## A boundary without an amend -/

variable {h : HeadId} {w : Working} {r : PolishRecord} {limit : Nat} {clk : StepClock} {v u : State}

/-- What a boundary leaves of a step that its unit does not end (R53, R59, R99). -/
theorem State.boundary_goesOn (empty : (s.base p).amend = ⟨none, none, none⟩)
    (owner : (s.base p).owner = some ⟨h, limit, clk⟩) (step : s.runningStep h = some w)
    (short : w.due ((s.base p).accumulator + 1) limit = none) :
    ∃ b k, s.boundary p = { s.aged p with bases := b, pads := k } ∧
      ((s.boundary p).base p).owner = (s.base p).owner ∧
      (clk = .revs → s.gate p = true →
        ((s.boundary p).base p).accumulator = (s.base p).accumulator + 1 ∧ ((s.boundary p).pad p).polishMark = true) ∧
      (s.gate p = false →
        ((s.boundary p).base p).accumulator = (s.base p).accumulator ∧
          ((s.boundary p).pad p).polishMark = (s.pad p).polishMark) ∧
      (clk ≠ .revs → ((s.boundary p).base p).accumulator = (s.base p).accumulator) := by
  have owner' : ((s.aged p).base p).owner = some ⟨h, limit, clk⟩ := by rw [State.base_aged]; exact owner
  have step' : (s.aged p).runningStep h = some w := (State.runningStep_aged ..).trans step
  have short' : w.due (((s.aged p).base p).accumulator + 1) limit = none := by rw [State.base_aged]; exact short
  obtain ⟨b, k, writes, kept, -⟩ := State.accrue_writes (c := .revs) owner' step' fun _ => short'
  rw [State.boundary_unamended empty]
  refine ⟨b, k, writes, kept.trans (congrArg Timebase.owner (State.base_aged ..)), fun clock gate => ?_, fun off => ?_,
    fun clock => ?_⟩
  · subst clock
    rw [State.accrue_short owner' step' ((State.gate_aged ..).trans gate) short', State.base_accrued, State.base_aged]
    exact ⟨rfl, congrArg Pad.polishMark (State.pad_setPad_self ..)⟩
  · rw [State.accrue_off ((State.gate_aged ..).trans off), State.base_aged]
    exact ⟨rfl, (s.pad_aged p).2⟩
  · rw [State.accrue_other owner' clock, State.base_aged]

end

/-- Settles O38: an index pulse puts the angle at 0, and at the edge of a revolution it makes the boundary that a FORWARD
count makes. -/
theorem indexPulse : Obligations.IndexPulse := by
  unfold Obligations.IndexPulse
  refine ⟨fun s p => ?pulse, fun s c h p w r limit clk edge empty owner on polishes phase short => ?boundary⟩
  case pulse =>
    obtain ⟨b, aged, cascade⟩ := s.indexPulse_life p
    have kept := (cascade.trans (.settle _)).base p
    rw [State.base_setPad, State.base_setBase_self] at kept
    have exec : exec (.indexPulse p) s = .next (s.indexPulse p).settle := rfl
    obtain zero | off := Nat.eq_zero_or_pos (s.base p).position
    · have still := exec_indexPulse_still zero
      refine ⟨_, still, (SettleKept.settle s).angle p |>.trans zero, (SettleKept.settle s).direction p,
        (SettleKept.settle s).config p, fun _ => rfl, fun off => absurd zero off.ne', fun off => absurd zero off.ne'⟩
    obtain lower | upper := Nat.lt_or_ge (2 * (s.base p).position) (s.base p).config.cpr
    · rw [Timebase.index_lower off lower] at kept
      refine ⟨_, exec, kept.position, kept.direction, kept.config, fun zero => absurd zero off.ne',
        fun _ _ => ⟨kept.revolution, fun slip => ?_, fun near => ?_⟩, fun _ upper => absurd lower (Nat.not_lt.2 upper)⟩
      · rw [exec_indexPulse_lower off lower, if_pos slip] at exec
        exact (Host.Outcome.next.inj exec).symm
      · rw [exec_indexPulse_lower off lower, if_neg (Nat.not_lt.2 near)] at exec
        exact (Host.Outcome.next.inj exec).symm
    · rw [Timebase.index_upper off upper] at kept
      refine ⟨_, exec, kept.position, kept.direction, kept.config, fun zero => absurd zero off.ne',
        fun _ lower => absurd lower (Nat.not_lt.2 upper), fun _ _ => ⟨kept.revolution, fun slip => ?_⟩⟩
      rw [exec_indexPulse_upper off upper, if_pos slip] at exec
      rw [← Host.Outcome.next.inj exec]
      exact State.notice_settle State.notice_raise
  case boundary =>
    obtain ⟨d, t, exec, followed⟩ := exec_atBoundary edge
    let x := s.setBase p ((s.base p).carried d)
    have base : x.base p = (s.base p).carried d := State.base_setBase_self ..
    have owner' : (x.base p).owner = some ⟨h, limit, clk⟩ := by rw [base]; exact owner
    have step : x.runningStep h = some w := (State.polishing_eq_some_iff.1 polishes).1
    have kind : w.record.kind = .polish r := Working.polish?_eq_some_iff.1 (State.polishing_eq_some_iff.1 polishes).2.2
    have due : w.due ((s.base p).accumulator + 1) limit = none := by
      rw [Working.due_polish kind phase, if_neg (Nat.not_le.2 short)]
    have gate : x.gate p = s.gate p := by
      rw [State.gate_eq owner' step, State.gate_eq owner step, base]
      rfl
    obtain ⟨b, k, writes, kept, counted, uncounted, other⟩ :=
      State.boundary_goesOn (s := x) (by rw [base]; exact empty) owner' step (by rw [base]; exact due)
    rw [base] at counted uncounted other
    have seq : (x.boundary p).seq h = s.seq h := by rw [writes]; exact State.seq_aged x p h
    have qual : (x.boundary p).qual p = (s.qual p).boundary ((s.base p).revolution + 1) := by
      rw [writes]
      exact (State.qual_aged x p).trans (by rw [base]; rfl)
    obtain ⟨seq', qual', -, -, units⟩ := followed.goesOn (kept.trans owner')
      (by rw [writes]; exact (State.headOn_aged x p p).trans on)
      (by rw [writes]; exact (State.polishing_aged x p h).trans polishes) (by rw [phase]; decide) fun clock => by
        rw [other (by rw [clock]; decide)]
        exact due
    have angle := (BaseKept.trans (State.base_boundary (s := s) (p := p) _) (followed.cascade.base p)).trans
      ((Cascade.settle t).base p)
    have life : (t.settle.pad p).life = if s.padPressed p then satSucc 4294967295 (s.pad p).life else (s.pad p).life :=
      (((Cascade.boundary x p).trans followed.cascade).trans (.settle t)).pad p |>.life.trans (x.pad_aged p).1
    have pad : t.settle.pad p = t.pad p := congrArg (PerPlaten.get · p) (SettleKept.settle t).pads
    refine ⟨_, exec, angle.revolution, angle.position, (State.seq_settle ..).trans (seq'.trans seq),
      fun clock on => ?_, fun clock off => ?_, fun g n state => ?_, fun other => ?_, life⟩
    · obtain ⟨accrued, mark⟩ := counted clock (gate.trans on)
      obtain ⟨unit, same⟩ := units (by rw [clock]; decide)
      rw [(SettleKept.settle t).accumulator, pad, unit, same]
      exact ⟨accrued, mark⟩
    · obtain ⟨accrued, mark⟩ := uncounted (gate.trans off)
      obtain ⟨unit, same⟩ := units (by rw [clock]; decide)
      rw [(SettleKept.settle t).accumulator, pad, unit, same]
      exact ⟨accrued, mark⟩
    all_goals rw [show t.settle.qual p = t.qual p from congrArg (PerPlaten.get · p) (SettleKept.settle t).quals, qual', qual,
      Qualifier.boundary]
    · rw [state]
    · split
      · next g n state => exact absurd state (other g n)
      all_goals rfl

/-! ## Platen counts -/

section
variable {s : State} {p : PlatenId} {h : HeadId} {w : Working} {r : PolishRecord}

/-- The timebase of a platen that has made one FORWARD count within a revolution. -/
def Timebase.ahead (b : Timebase) : Timebase := { b with direction := .forward, position := b.position + 1 }

/-- The platen has counted within a revolution, not yet at the head that holds it (R50, R55). -/
def State.movedOn (s : State) (p : PlatenId) : State := (s.setBase p (s.base p).ahead).platenSeen p

theorem State.countForward_within (within : (s.base p).position + 1 < (s.base p).config.cpr) :
    s.countForward p = (s.movedOn p).forwardToHead p := by
  rw [State.countForward, Timebase.countForward_within within]
  rfl

theorem State.movedOn_writes (s : State) (p : PlatenId) : ∃ b c, s.movedOn p = { s with bases := b, conds := c } := by
  obtain ⟨c, writes⟩ := (s.setBase p (s.base p).ahead).platenSeen_writes p
  exact ⟨_, c, writes⟩

theorem State.base_movedOn (s : State) (p : PlatenId) : (s.movedOn p).base p = (s.base p).ahead.countSeen := by
  rw [State.movedOn, State.base_platenSeen, State.base_setBase_self]

/-- A count in GAP shortens the gap (R34). -/
theorem State.countForward_gap (within : (s.base p).position + 1 < (s.base p).config.cpr) (on : s.headOn p = some h)
    (polishes : s.polishing h = some (w, r, p)) (phase : w.phase = some .gap) (more : 1 < w.gapRemaining) :
    (s.countForward p).seq h =
      { s.seq h with activity := some (.step { w with gapRemaining := w.gapRemaining - 1 }) } := by
  obtain ⟨b, c, writes⟩ := s.movedOn_writes p
  rw [State.countForward_within within, State.forwardToHead_gap (h := h) (w := w) (r := r) (by rw [writes]; exact on)
    (by rw [writes]; exact polishes) phase, if_neg (Nat.not_le.2 more), State.setWorking, State.modSeq_eq,
    State.seq_setSeq_self, writes]
  rfl

/-- A count gives one unit to a COUNTS step whose gate is on (R59). -/
theorem State.countForward_unit {limit : Nat} (within : (s.base p).position + 1 < (s.base p).config.cpr)
    (on : s.headOn p = some h) (polishes : s.polishing h = some (w, r, p)) (phase : w.phase = some .polish)
    (gate : s.gate p = true) (owner : (s.base p).owner = some ⟨h, limit, .counts⟩)
    (short : (s.base p).accumulator + 1 < limit) :
    s.countForward p = (s.movedOn p).accrued p ((s.base p).accumulator + 1) := by
  obtain ⟨b, c, writes⟩ := s.movedOn_writes p
  obtain ⟨step, -, kind⟩ := State.polishing_eq_some_iff.1 polishes
  have polishes' : (s.movedOn p).polishing h = some (w, r, p) := by rw [writes]; exact polishes
  have step' : (s.movedOn p).runningStep h = some w := (State.polishing_eq_some_iff.1 polishes').1
  obtain ⟨owner', units, -⟩ := (s.base p).ahead.countSeen_step
  rw [← State.base_movedOn] at owner' units
  have going : (s.movedOn p).gate p = true := by
    rw [State.gate_eq owner step] at gate
    rw [State.gate_eq (owner'.trans owner) step', State.base_movedOn, Timebase.countSeen_stalled]
    rw [writes]
    simp only [Bool.and_eq_true] at gate ⊢
    exact ⟨gate.1, rfl⟩
  rw [State.countForward_within within, State.forwardToHead_accrues (by rw [writes]; exact on) polishes'
    (by rw [phase]; decide), State.accrue_short (owner'.trans owner) step' going (by
      rw [Working.due_polish (Working.polish?_eq_some_iff.1 kind) phase, units]
      exact if_neg (Nat.not_le.2 short)), units]
  rfl

/-- A FORWARD count at the angle and at the pad (R51, R155). -/
theorem State.countForward_angle (s : State) (p : PlatenId) :
    (∀ j, BaseKept ((s.setBase p (s.base p).countForward.1).base j) ((s.countForward p).base j)) ∧
      ((s.countForward p).pad p).life =
        if (s.base p).config.cpr ≤ (s.base p).position + 1 ∧ s.padPressed p = true then
          satSucc 4294967295 (s.pad p).life
        else (s.pad p).life := by
  obtain ⟨k, -, cascade⟩ := Timebase.countForward_life s p
  refine ⟨cascade.base, ?_⟩
  by_cases edge : (s.base p).config.cpr ≤ (s.base p).position + 1
  · have rest : Cascade ((s.setBase p ((s.base p).carried .forward)).aged p) (s.countForward p) := by
      rw [State.countForward, Timebase.countForward_boundary edge]
      exact ((Cascade.boundary ..).trans (.platenSeen ..)).trans (.forwardToHead ..)
    rw [(rest.pad p).life, (State.pad_aged ..).1]
    simp only [edge, true_and]
    rfl
  · have rest : Cascade (s.setBase p (s.base p).ahead) (s.countForward p) := by
      rw [State.countForward_within (Nat.not_le.1 edge)]
      exact (Cascade.platenSeen ..).trans (.forwardToHead ..)
    rw [(rest.pad p).life, if_neg fun k => edge k.1]
    rfl

/-- A REVERSE count at the angle (R51). -/
theorem Timebase.countReverse_eq (b : Timebase) :
    b.countReverse.config = b.config ∧ b.countReverse.direction = .reverse ∧
      (0 < b.position → b.countReverse.position = b.position - 1 ∧ b.countReverse.revolution = b.revolution) ∧
      (b.position = 0 →
        b.countReverse.position = b.config.cpr - 1 ∧ b.countReverse.revolution = b.revolution - 1) := by
  unfold Timebase.countReverse
  split
  · next zero => exact ⟨rfl, rfl, fun off => absurd zero off.ne', fun _ => ⟨rfl, rfl⟩⟩
  · next off => exact ⟨rfl, rfl, fun _ => ⟨rfl, rfl⟩, fun zero => absurd zero off⟩

/-- The platen has counted back, not yet at the head that holds it (R50, R55). -/
def State.movedBack (s : State) (p : PlatenId) : State := (s.modBase p Timebase.countReverse).platenSeen p

theorem State.movedBack_writes (s : State) (p : PlatenId) : ∃ b c, s.movedBack p = { s with bases := b, conds := c } := by
  obtain ⟨c, writes⟩ := (s.modBase p Timebase.countReverse).platenSeen_writes p
  exact ⟨_, c, writes⟩

theorem State.countReverse_down (on : s.headOn p = some h) (down : s.isDown h = true) :
    s.countReverse p = (s.movedBack p).raiseCause h .platenReverse := by
  obtain ⟨b, c, writes⟩ := s.movedBack_writes p
  have on' : (s.movedBack p).headOn p = some h := by rw [writes]; exact on
  have down' : (s.movedBack p).isDown h = true := by rw [writes]; exact down
  show (match (s.movedBack p).headOn p with
    | some h => if (s.movedBack p).isDown h then (s.movedBack p).raiseCause h .platenReverse else s.movedBack p
    | none => s.movedBack p) = _
  rw [on']
  exact if_pos down'

theorem State.saved_movedBack (s : State) (p : PlatenId) (h : HeadId) (a : Activity) :
    (s.movedBack p).saved h a = s.saved h a := by
  obtain ⟨c, writes⟩ := (s.modBase p Timebase.countReverse).platenSeen_writes p
  have collect (w : Working) : (s.movedBack p).collect h w = s.collect h w := by
    refine Eq.trans ?_ (State.collect_modBase (s := s) (p := p) (f := fun b => b.countReverse.countSeen) ?_ ?_ ?_ h w)
    · refine State.collect_of_bases ?_ h w
      rw [State.movedBack, writes, State.modBase_eq, State.modBase_eq, State.base_setBase_self, State.setBase_setBase]
      rfl
    all_goals
      unfold Timebase.countReverse Timebase.countSeen
      split <;> split <;> rfl
  cases a with
  | step w => exact congrArg (fun x : Working => Saved.step x.suspended) (collect w)
  | intervention k cs x => rfl

end

/-- Settles O37: a count moves the angle of its platen alone, and reaches the pad, the gap, the accumulator and a DOWN head
as R34, R57, R59 and R155 have it. -/
theorem platenCounts : Obligations.PlatenCounts := by
  unfold Obligations.PlatenCounts
  refine ⟨fun s p => ?forward, fun s p => ?reverse⟩
  case forward =>
    obtain ⟨angle, life⟩ := s.countForward_angle p
    have kept := fun j => (angle j).trans ((Cascade.settle _).base j)
    have life' : ((s.countForward p).settle.pad p).life = ((s.countForward p).pad p).life :=
      ((Cascade.settle _).pad p).life
    have own := kept p
    rw [State.base_setBase_self] at own
    refine ⟨(s.countForward p).settle, rfl, own.config.trans ?_, own.direction.trans ?_, fun within => ?_, fun edge => ?_,
      fun j ne => ?_, fun within calm => ⟨fun h w r on polishes phase more => ?_,
      fun h w r limit on polishes phase gate owner short => ?_⟩⟩
    · unfold Timebase.countForward
      split <;> rfl
    · unfold Timebase.countForward
      split <;> rfl
    · rw [Timebase.countForward_within within] at own
      rw [life', life, if_neg fun k => Nat.not_le.2 within k.1]
      exact ⟨own.position, own.revolution, rfl⟩
    · rw [Timebase.countForward_boundary edge] at own
      rw [life', life]
      refine ⟨own.position, own.revolution, ?_⟩
      simp only [edge, true_and]
    · have other := kept j
      rw [State.base_setBase_ne _ _ ne] at other
      exact ⟨other.position, other.revolution, other.direction⟩
    · exact (State.seq_settle ..).trans (State.countForward_gap within on polishes phase more)
    · obtain ⟨b, c, writes⟩ := s.movedOn_writes p
      have unit := State.countForward_unit within on polishes phase gate owner short
      rw [State.seq_settle, (SettleKept.settle _).accumulator,
        show (s.countForward p).settle.pad p = (s.countForward p).pad p from
          congrArg (PerPlaten.get · p) (SettleKept.settle _).pads, unit, State.base_accrued]
      refine ⟨?_, rfl, congrArg Pad.polishMark (State.pad_setPad_self ..)⟩
      rw [writes]
      rfl
  case reverse =>
    have cascade := (Cascade.countReverse s p).trans (.settle _)
    have own := cascade.base p
    rw [State.base_setBase_self] at own
    obtain ⟨config, direction, within, wraps⟩ := (s.base p).countReverse_eq
    rw [← own.position, ← own.revolution] at within wraps
    refine ⟨(s.countReverse p).settle, rfl, own.config.trans config, own.direction.trans direction,
      (cascade.pad p).life, within, wraps, fun h a on down running busy lower room => ?_⟩
    obtain ⟨b, c, writes⟩ := s.movedBack_writes p
    have carrier : (s.movedBack p).carrier h = s.carrier h := by rw [writes]; rfl
    have seq : (s.movedBack p).seq h = s.seq h := by rw [writes]; rfl
    obtain ⟨lifted, -, up, notice⟩ := State.raiseCause_lift (s := s.movedBack p) (c := .platenReverse) rfl
      (by rw [seq]; exact running) (by rw [seq]; exact busy) lower (by rw [seq]; exact room)
    rw [seq, carrier, State.saved_movedBack] at lifted
    rw [State.countReverse_down on down]
    exact ⟨(State.seq_settle ..).trans lifted, (State.isDown_settle ..).trans up, State.notice_settle notice⟩

end Sys2Proof.Machine
end

section
/-! PROOFS. AMEND (R61) and the load of an amend at a revolution boundary (R62): O16. -/
namespace Sys2Proof.Machine

/-! ## The request -/

section
variable {s : State} {b : List Byte} {h : HeadId} {p : PlatenId} {f : AmendField}

theorem exec_amend (o : s.opens .recipe) (len : b.length = 6) (head : headOf (le8 b 0) = some h) :
    exec (.amend .recipe b) s = .next (s.reply .recipe
      (requireField (amendFieldOf (le8 b 1)) fun f =>
        require (f.inRange (le32 b 2)) .outOfRange (s.amend h f (le32 b 2)))) := by
  show Host.Outcome.next (s.takeRequest .recipe (Port.isRecipe .recipe) (requireLength b 6
    (requireField (headOf (le8 b 0)) fun h => _))) = _
  rw [State.takeRequest_recipe o len, requireField_of head]

theorem exec_amend_writes (o : s.opens .recipe) (len : b.length = 6) (head : headOf (le8 b 0) = some h)
    (field : amendFieldOf (le8 b 1) = some f) (range : f.inRange (le32 b 2) = true) (working : s.inPolishPhase h = true)
    (on : (s.carrier h).position = .stands (.platen p)) :
    exec (.amend .recipe b) s = .next ((s.modBase p fun k => { k with amend := k.amend.write f (le32 b 2) }).accepted
      .recipe) := by
  rw [exec_amend o len head, requireField_of field, require_of range, State.amend, require_of working,
    State.platenOf_eq_some_iff.2 on]
  rfl

theorem exec_amend_beyond (o : s.opens .recipe) (len : b.length = 6) (head : headOf (le8 b 0) = some h)
    (field : amendFieldOf (le8 b 1) = some f) (range : f.inRange (le32 b 2) = false) :
    exec (.amend .recipe b) s = .next (s.refusal .recipe .outOfRange) := by
  rw [exec_amend o len head, requireField_of field, State.reply_require_not range]

theorem exec_amend_wrongState (o : s.opens .recipe) (len : b.length = 6) (head : headOf (le8 b 0) = some h)
    (field : amendFieldOf (le8 b 1) = some f) (range : f.inRange (le32 b 2) = true) (idle : s.inPolishPhase h = false) :
    exec (.amend .recipe b) s = .next (s.refusal .recipe .wrongState) := by
  rw [exec_amend o len head, requireField_of field, require_of range, State.amend, State.reply_require_not idle]

theorem amendFieldOf_none {n : Nat} (beyond : 3 ≤ n) : amendFieldOf n = none := by
  unfold amendFieldOf
  split <;> grind

end

/-! ## The load -/

theorem State.ownedPlaten_setBase {s : State} {p : PlatenId} {x : Timebase}
    (owner : x.owner.map Owner.head = (s.base p).owner.map Owner.head) (h : HeadId) :
    (s.setBase p x).ownedPlaten h = s.ownedPlaten h := by
  unfold State.ownedPlaten
  congr 1
  funext j
  rw [State.base_setBase]
  split
  · next own => rw [own, owner]
  · rfl

theorem State.ownedPlaten_setWorking (s : State) (h : HeadId) (w : Working) (g : HeadId) :
    (s.setWorking h w).ownedPlaten g = s.ownedPlaten g := rfl

theorem Timebase.owner_carried (b : Timebase) (d : Rotation) :
    (b.carried d).owner.map Owner.head = b.owner.map Owner.head := rfl

theorem Timebase.owner_loadAmend (b : Timebase) : b.loadAmend.owner.map Owner.head = b.owner.map Owner.head := by
  show (Option.map _ b.owner).map Owner.head = _
  rw [Option.map_map]
  rfl

/-- The pending amend of a platen is loaded into the step of the head that owns its accumulator (R62). -/
def State.loaded (s : State) (p : PlatenId) (h : HeadId) (w : Working) : State :=
  (s.setWorking h (w.loadAmend (s.base p).amend)).modBase p Timebase.loadAmend

/-- A platen carried over a boundary, its pad aged, its amend loaded (R53, R62). -/
def State.reloaded (s : State) (p : PlatenId) (d : Rotation) (h : HeadId) (w : Working) : State :=
  ((s.setBase p ((s.base p).carried d)).aged p).loaded p h w

section
variable {s : State} {p : PlatenId} {h : HeadId} {w : Working} {r : PolishRecord} {limit : Nat} {clk : StepClock}
  {d : Rotation}

theorem State.loadAmend_eq (owner : (s.base p).owner = some ⟨h, limit, clk⟩) (current : s.current h = some w)
    (pending : (s.base p).amend.isEmpty = false) : s.loadAmend p = s.loaded p h w := by
  rw [State.loadAmend, owner]
  dsimp only
  rw [pending, if_neg Bool.false_ne_true, State.modWorking, current]
  rfl

theorem State.base_aged_carried :
    ((s.setBase p ((s.base p).carried d)).aged p).base p = (s.base p).carried d :=
  (State.base_aged ..).trans (State.base_setBase_self ..)

theorem State.reloaded_writes (s : State) (p : PlatenId) (d : Rotation) (h : HeadId) (w : Working) :
    ∃ b k x u, s.reloaded p d h w =
      { s.setWorking h (w.loadAmend (s.base p).amend) with bases := b, pads := k, ports := x, quals := u } := by
  obtain ⟨k, x, u, writes⟩ := (s.setBase p ((s.base p).carried d)).aged_writes p
  refine ⟨(s.reloaded p d h w).bases, k, x, u, ?_⟩
  rw [State.reloaded, State.loaded, State.base_aged_carried, writes]
  rfl

theorem State.base_reloaded : (s.reloaded p d h w).base p = ((s.base p).carried d).loadAmend := by
  rw [State.reloaded, State.loaded, State.modBase_eq, State.base_setBase_self]
  exact congrArg Timebase.loadAmend State.base_aged_carried

theorem State.owner_reloaded (owner : (s.base p).owner = some ⟨h, limit, clk⟩) :
    ((s.reloaded p d h w).base p).owner = some ⟨h, (s.base p).amend.limit.getD limit, clk⟩ := by
  rw [State.base_reloaded]
  show (s.base p).owner.map _ = _
  rw [owner]
  rfl

theorem State.seq_reloaded : (s.reloaded p d h w).seq h =
    { s.seq h with activity := some (.step (w.loadAmend (s.base p).amend)) } := by
  obtain ⟨b, k, x, u, writes⟩ := s.reloaded_writes p d h w
  rw [writes]
  exact State.seq_setSeq_self ..

theorem State.headOn_reloaded : (s.reloaded p d h w).headOn p = s.headOn p := by
  obtain ⟨b, k, x, u, writes⟩ := s.reloaded_writes p d h w
  rw [writes]
  rfl

theorem State.polishing_reloaded (polishes : s.polishing h = some (w, r, p)) :
    (s.reloaded p d h w).polishing h = some (w.loadAmend (s.base p).amend, r, p) := by
  obtain ⟨running, -, stands, kind⟩ := State.polishing_iff.1 polishes
  have carrier : (s.reloaded p d h w).carrier h = s.carrier h := by
    obtain ⟨b, k, x, u, writes⟩ := s.reloaded_writes p d h w
    rw [writes]
    rfl
  refine State.polishing_iff.2 ⟨?_, ?_, by rw [carrier]; exact stands, kind⟩
  all_goals rw [State.seq_reloaded]
  exact running

theorem State.ownedPlaten_reloaded (owned : s.ownedPlaten h = some p) :
    (s.reloaded p d h w).ownedPlaten h = some p := by
  have carried : (s.setBase p ((s.base p).carried d)).ownedPlaten h = s.ownedPlaten h :=
    State.ownedPlaten_setBase (Timebase.owner_carried ..) h
  rw [State.reloaded, State.loaded, State.modBase_eq, State.ownedPlaten_setBase (Timebase.owner_loadAmend _),
    State.ownedPlaten_setWorking, State.ownedPlaten_aged, carried, owned]

/-- A boundary with a pending amend loads it, then checks the step once (R62). -/
theorem State.boundary_loads (owner : (s.base p).owner = some ⟨h, limit, clk⟩) (current : s.current h = some w)
    (pending : (s.base p).amend ≠ ⟨none, none, none⟩) :
    (s.setBase p ((s.base p).carried d)).boundary p =
      ((s.reloaded p d h w).due p).elim ((s.reloaded p d h w).accrue p .revs) (s.reloaded p d h w).endDue := by
  have waits : (s.base p).amend.isEmpty = false := Bool.eq_false_iff.2 fun k => pending ((AmendBuffer.isEmpty_iff _).1 k)
  have waits' : ((s.base p).carried d).amend.isEmpty = false := waits
  obtain ⟨k, x, u, writes⟩ := (s.setBase p ((s.base p).carried d)).aged_writes p
  have load : ((s.setBase p ((s.base p).carried d)).aged p).loadAmend p = s.reloaded p d h w :=
    State.loadAmend_eq (by rw [State.base_aged_carried]; exact owner) (by rw [writes]; exact current)
      (by rw [State.base_aged_carried]; exact waits)
  rw [State.boundary_eq, State.boundaryAccrual]
  rw [load, State.base_aged_carried, waits', if_neg Bool.false_ne_true]
  cases (s.reloaded p d h w).due p <;> rfl

theorem State.current_of_polishing (polishes : s.polishing h = some (w, r, p)) : s.current h = some w :=
  State.current_of_running (State.polishing_eq_some_iff.1 polishes).1

theorem State.due_reloaded (owner : (s.base p).owner = some ⟨h, limit, clk⟩)
    (polishes : s.polishing h = some (w, r, p)) :
    (s.reloaded p d h w).due p =
      ((w.loadAmend (s.base p).amend).due (s.base p).accumulator ((s.base p).amend.limit.getD limit)).map
        fun e => (h, e.1, e.2) := by
  rw [State.due_of (State.owner_reloaded owner) (State.polishing_eq_some_iff.1 (State.polishing_reloaded polishes)).1,
    State.base_reloaded]
  rfl

theorem State.results_reloaded : ((s.reloaded p d h w).seq h).results = (s.seq h).results := by
  rw [State.seq_reloaded]

/-- The load ends the step (R62). -/
theorem State.boundary_ends {o : StepOutcome} {c : Bool} (owner : (s.base p).owner = some ⟨h, limit, clk⟩)
    (owned : s.ownedPlaten h = some p) (polishes : s.polishing h = some (w, r, p))
    (pending : (s.base p).amend ≠ ⟨none, none, none⟩)
    (due : (w.loadAmend (s.base p).amend).due (s.base p).accumulator ((s.base p).amend.limit.getD limit) = some (o, c)) :
    ∃ x : ResultRecord, (s.seq h).results ++ [x] <+: (((s.setBase p ((s.base p).carried d)).boundary p).seq h).results ∧
      x.index = w.index ∧ x.accrued = (s.base p).accumulator ∧ x.outcome = o ∧
      x.flags = { w.flags with amendLoaded := true, clamped := w.flags.clamped || c } ∧
      x.capture = if o = .endpoint then w.confirmed.map Confirmed.capture else none := by
  have results := State.results_endDue (State.current_of_polishing (State.polishing_reloaded (d := d) polishes)) o c
  rw [State.results_reloaded] at results
  refine ⟨(s.reloaded p d h w).dueResult h (w.loadAmend (s.base p).amend) o c, ?_, ?_⟩
  · rw [State.boundary_loads owner (State.current_of_polishing polishes) pending, State.due_reloaded owner polishes, due]
    exact results
  · rw [State.dueResult, State.collect_owned (State.ownedPlaten_reloaded owned), State.base_reloaded]
    refine ⟨rfl, rfl, rfl, ?_, ?_⟩
    · exact congrArg (ResultFlags.mk _ _ _ · _) (Bool.or_false _)
    · show (if o = .endpoint then (w.confirmed.map _).map Confirmed.capture else none) = _
      rw [Option.map_map]
      rfl

/-- The load does not end the step: the boundary goes on to the unit of a REVS step (R62). -/
theorem State.boundary_goesOn_loaded (owner : (s.base p).owner = some ⟨h, limit, clk⟩)
    (polishes : s.polishing h = some (w, r, p)) (pending : (s.base p).amend ≠ ⟨none, none, none⟩)
    (going : (w.loadAmend (s.base p).amend).due (s.base p).accumulator ((s.base p).amend.limit.getD limit) = none) :
    (s.setBase p ((s.base p).carried d)).boundary p = (s.reloaded p d h w).accrue p .revs := by
  rw [State.boundary_loads owner (State.current_of_polishing polishes) pending, State.due_reloaded owner polishes, going,
    Option.map_none, Option.elim_none]

/-! ## After the load -/

/-- A step in GAP after a boundary (R34, R35): what the amend loaded stands, the timebase too. -/
theorem State.FollowedBy.gap {v u : State} (k : v.FollowedBy p u) (on : v.headOn p = some h)
    (polishes : v.polishing h = some (w, r, p)) (phase : w.phase = some .gap) :
    ∃ x : Working, u.seq h = { v.seq h with activity := some (.step x) } ∧ x.opFixed = w.opFixed ∧
      x.opPercent = w.opPercent ∧ x.confirmed = w.confirmed ∧ x.flags = w.flags ∧
      (u.base p).owner = (v.base p).owner ∧ (u.base p).amend = (v.base p).amend ∧
      (u.base p).accumulator = (v.base p).accumulator := by
  have seq : v.seq h = { v.seq h with activity := some (.step w) } := by
    rw [← (State.polishing_iff.1 polishes).2.1]
  cases k with
  | index => exact ⟨w, seq, rfl, rfl, rfl, rfl, rfl, rfl, rfl⟩
  | slip => exact ⟨w, seq, rfl, rfl, rfl, rfl, rfl, rfl, rfl⟩
  | count =>
    obtain ⟨c, writes⟩ := v.platenSeen_writes p
    have polishes' : (v.platenSeen p).polishing h = some (w, r, p) := by rw [writes]; exact polishes
    have seq' : (v.platenSeen p).seq h = v.seq h := by rw [writes]; rfl
    obtain ⟨owner, units, amend⟩ := (v.base p).countSeen_step
    rw [← State.base_platenSeen] at owner units amend
    rw [State.forwardToHead_gap (by rw [writes]; exact on) polishes' phase]
    split
    · have base : ((v.platenSeen p).enterPolish h).base p = (v.platenSeen p).base p := by
        obtain ⟨q, z, x, y, enters⟩ := State.enterPolish_writes (s := v.platenSeen p) (h := h)
        rw [enters]
        rfl
      rw [(State.enterPolish_aside polishes').seq, State.seq_pressed, seq', base]
      exact ⟨_, rfl, rfl, rfl, rfl, rfl, owner, amend, units⟩
    · rw [State.setWorking, State.modSeq_eq, State.seq_setSeq_self, seq']
      exact ⟨_, rfl, rfl, rfl, rfl, rfl, owner, amend, units⟩

/-- A step that goes on after a load takes what was loaded, and nothing else of it changes (R62). -/
theorem State.FollowedBy.loaded {u : State}
    (k : ((s.setBase p ((s.base p).carried d)).boundary p).FollowedBy p u)
    (owner : (s.base p).owner = some ⟨h, limit, clk⟩) (on : s.headOn p = some h)
    (polishes : s.polishing h = some (w, r, p)) (pending : (s.base p).amend ≠ ⟨none, none, none⟩)
    (other : w.phase ≠ some .gap)
    (going : (w.loadAmend (s.base p).amend).due (s.base p).accumulator ((s.base p).amend.limit.getD limit) = none)
    (short : (w.loadAmend (s.base p).amend).due ((s.base p).accumulator + 1) ((s.base p).amend.limit.getD limit) = none) :
    (u.base p).amend = ⟨none, none, none⟩ ∧
      (u.base p).owner = some ⟨h, (s.base p).amend.limit.getD limit, clk⟩ ∧
      u.seq h = { s.seq h with activity := some (.step (w.loadAmend (s.base p).amend)) } := by
  rw [State.boundary_goesOn_loaded owner polishes pending going] at k
  have owner' := State.owner_reloaded (d := d) (w := w) owner
  have units : ((s.reloaded p d h w).base p).accumulator = (s.base p).accumulator := by rw [State.base_reloaded]; rfl
  have polishes' := State.polishing_reloaded (d := d) polishes
  have short' : (w.loadAmend (s.base p).amend).due (((s.reloaded p d h w).base p).accumulator + 1)
      ((s.base p).amend.limit.getD limit) = none := by rw [units]; exact short
  obtain ⟨b, j, writes, kept, buffer⟩ := State.accrue_writes (c := .revs) owner' (State.polishing_eq_some_iff.1 polishes').1
    fun _ => short'
  have seq : ((s.reloaded p d h w).accrue p .revs).seq h = (s.reloaded p d h w).seq h := by rw [writes]; rfl
  obtain ⟨seq', -, owner'', amend, -⟩ := k.goesOn (w := w.loadAmend (s.base p).amend) (r := r) (kept.trans owner')
    (by rw [writes]; exact (State.headOn_reloaded (h := h) (w := w)).trans on) (by rw [writes]; exact polishes') other fun clock => by
      rw [State.accrue_other owner' (by rw [clock]; decide)]
      exact short'
  exact ⟨amend.trans (buffer.trans (by rw [State.base_reloaded]; rfl)), owner''.trans (kept.trans owner'),
    seq'.trans (seq.trans State.seq_reloaded)⟩

theorem Working.pressing_gap {w : Working} (phase : w.phase = some .gap) : w.pressing = false := by
  simp [Working.pressing, phase]

end

/-- Settles O16: an amend waits in the buffer of its platen, and the next boundary of that platen loads it. -/
theorem amendWaitsForTheBoundary : Obligations.AmendWaitsForTheBoundary := by
  unfold Obligations.AmendWaitsForTheBoundary
  refine ⟨fun s b h o len head => ⟨fun p working on => ⟨fun field low high => ?_, fun field high => ?_,
    fun field high => ?_⟩, ?_, fun idle limit fixed percent => ?_⟩,
    fun s c h p w r limit clk edge pending owner owned on polishes => ?boundary⟩
  · exact exec_amend_writes o len head (f := .limit) (by rw [field]; rfl) (inRange_iff.2 ⟨low, high⟩) working on
  · exact exec_amend_writes o len head (f := .opFixed) (by rw [field]; rfl) (inRange_iff.2 ⟨Nat.zero_le _, high⟩) working on
  · exact exec_amend_writes o len head (f := .opPercent) (by rw [field]; rfl) (inRange_iff.2 ⟨Nat.zero_le _, high⟩) working
      on
  · have out {lo hi : Nat} (out : le32 b 2 < lo ∨ hi < le32 b 2) : inRange lo hi (le32 b 2) = false :=
      Bool.eq_false_iff.2 fun k => by
        have within := inRange_iff.1 k
        omega
    rintro (⟨field, bad⟩ | ⟨field, bad⟩ | ⟨field, bad⟩ | field)
    · exact exec_amend_beyond o len head (f := .limit) (by rw [field]; rfl) (out (by omega))
    · exact exec_amend_beyond o len head (f := .opFixed) (by rw [field]; rfl) (out (by omega))
    · exact exec_amend_beyond o len head (f := .opPercent) (by rw [field]; rfl) (out (by omega))
    · rw [exec_amend o len head, requireField_not (amendFieldOf_none field), State.reply_error]
  · intro known
    obtain field | field | field : le8 b 1 = 0 ∨ le8 b 1 = 1 ∨ le8 b 1 = 2 := by omega
    · exact exec_amend_wrongState o len head (f := .limit) (by rw [field]; rfl) (inRange_iff.2 (limit field)) idle
    · exact exec_amend_wrongState o len head (f := .opFixed) (by rw [field]; rfl)
        (inRange_iff.2 ⟨Nat.zero_le _, fixed field⟩) idle
    · exact exec_amend_wrongState o len head (f := .opPercent) (by rw [field]; rfl)
        (inRange_iff.2 ⟨Nat.zero_le _, percent field⟩) idle
  case boundary =>
    obtain ⟨d, t, exec, followed⟩ := exec_atBoundary edge
    have kind : w.record.kind = .polish r := (State.polishing_iff.1 polishes).2.2.2
    have settled := SettleKept.settle t
    have written := ((followed.cascade.trans (.settle t)).seq h).results
    intro amend newLimit fixed percent loaded
    have kind' : loaded.record.kind = .polish r := kind
    refine ⟨fun phase => ?gap, fun phase short => ?polish, fun phase reached => ?reached,
      fun k phase confirmed => ⟨fun reached => ?target, fun unreached reached => ?clamped, fun unreached short => ?overpolish⟩⟩
    case gap =>
      have owner' := State.owner_reloaded (d := d) (w := w) owner
      have polishes' := State.polishing_reloaded (d := d) polishes
      have off : (s.reloaded p d h w).gate p = false := by
        rw [State.gate_eq owner' (State.polishing_eq_some_iff.1 polishes').1, Working.pressing_gap (w := w.loadAmend (s.base p).amend) phase]
        rfl
      rw [State.boundary_goesOn_loaded owner polishes pending (Working.due_gap phase), State.accrue_off off] at followed
      obtain ⟨x, seq, xFixed, xPercent, confirmed, flags, xOwner, xAmend, units⟩ :=
        followed.gap ((State.headOn_reloaded (h := h) (w := w)).trans on) polishes' phase
      refine ⟨t.settle, x, exec, (settled.amend p).trans (xAmend.trans ?_), (settled.owner p).trans (xOwner.trans owner'),
        (settled.accumulator p).trans (units.trans ?_), ?_, xFixed, xPercent, confirmed, flags⟩
      · rw [State.base_reloaded]
        rfl
      · rw [State.base_reloaded]
        rfl
      · rw [State.seq_settle, seq, State.seq_reloaded]
    case polish =>
      obtain ⟨buffer, owner', seq⟩ := followed.loaded owner on polishes pending (by rw [phase]; decide)
        ((Working.due_polish kind' phase).trans (if_neg (Nat.not_le.2 (Nat.lt_of_succ_lt short))))
        ((Working.due_polish kind' phase).trans (if_neg (Nat.not_le.2 short)))
      exact ⟨t.settle, exec, (settled.amend p).trans buffer, (settled.owner p).trans owner', (State.seq_settle ..).trans seq⟩
    case reached =>
      obtain ⟨x, results, index, units, outcome, flags, -⟩ := State.boundary_ends (d := d) (o := r.atLimit) (c := false) owner
        owned polishes pending ((Working.due_polish kind' phase).trans (if_pos reached))
      refine ⟨t.settle, x, exec, results.trans written, index, units, flags.trans ?_, outcome⟩
      rw [Bool.or_false]
    case target =>
      obtain ⟨x, results, index, -, outcome, flags, capture⟩ := State.boundary_ends (d := d) (o := .endpoint) (c := false)
        owner owned polishes pending ((Working.due_overpolish kind' phase
          (c := ⟨k.capture, fixed + percent * k.capture.accrued / 100⟩)
          (by show w.confirmed.map _ = _; rw [confirmed]; rfl)).trans (if_pos reached))
      refine ⟨t.settle, x, exec, results.trans written, index, outcome, flags.trans ?_, capture.trans ?_⟩
      · rw [Bool.or_false]
      · rw [if_pos rfl, confirmed]
        rfl
    case clamped =>
      obtain ⟨x, results, index, -, outcome, flags, capture⟩ := State.boundary_ends (d := d) (o := .endpoint) (c := true)
        owner owned polishes pending ((Working.due_overpolish kind' phase
          (c := ⟨k.capture, fixed + percent * k.capture.accrued / 100⟩)
          (by show w.confirmed.map _ = _; rw [confirmed]; rfl)).trans
            ((if_neg (Nat.not_le.2 unreached)).trans (if_pos reached)))
      refine ⟨t.settle, x, exec, results.trans written, index, outcome, flags.trans ?_, capture.trans ?_⟩
      · rw [Bool.or_true]
      · rw [if_pos rfl, confirmed]
        rfl
    case overpolish =>
      have confirmed' : (w.loadAmend amend).confirmed = some ⟨k.capture, fixed + percent * k.capture.accrued / 100⟩ := by
        show w.confirmed.map _ = _
        rw [confirmed]
        rfl
      have before : (s.base p).accumulator - k.capture.accrued < fixed + percent * k.capture.accrued / 100 :=
        Nat.lt_of_le_of_lt (Nat.sub_le_sub_right (Nat.le_succ _) _) unreached
      have going : (w.loadAmend amend).due (s.base p).accumulator newLimit = none :=
        (Working.due_overpolish kind' phase confirmed').trans
          ((if_neg (Nat.not_le.2 before)).trans (if_neg (Nat.not_le.2 (Nat.lt_of_succ_lt short))))
      have short' : (w.loadAmend amend).due ((s.base p).accumulator + 1) newLimit = none :=
        (Working.due_overpolish kind' phase confirmed').trans
          ((if_neg (Nat.not_le.2 unreached)).trans (if_neg (Nat.not_le.2 short)))
      obtain ⟨buffer, owner', seq⟩ := followed.loaded owner on polishes pending (by rw [phase]; decide) going short'
      exact ⟨t.settle, exec, (settled.amend p).trans buffer, (settled.owner p).trans owner', (State.seq_settle ..).trans seq⟩

end Sys2Proof.Machine
end

section
/-!
PROOFS. RESUME of a RUNNING head (R120, R122 to R124): O13. The POLISH step that finds its line FAULTED, and the wait list that
its nozzle leaves, come first.
-/
namespace Sys2Proof.Machine

/-! ## Wait lists when interventions begin -/

section
variable {s : State} {h : HeadId} {a : Activity} {c : Cause}

theorem State.lines_enterClass {k : Intervention} (own : k ≠ .park) : (s.enterClass h k).lines = s.lines := by
  cases k with
  | park => exact absurd rfl own
  | rinse => rfl
  | lift => exact State.lines_liftUp s h
  | trip => exact State.lines_liftUp s h

/-- A RINSE, a LIFT or a TRIP gives back the line of its head and leaves the lines alone after that (R117). -/
theorem State.lines_beginIntervention (own : c.cls ≠ .park) :
    (s.beginIntervention h a c).lines = (s.suspendStep h).lines := by
  have pushed (t : State) (k : Context) : (t.pushContext h k).lines = t.lines := by
    rw [State.pushContext_eq]
    split <;> rfl
  have intervened : (s.intervene h a c).lines = (s.suspendStep h).lines :=
    pushed (((s.suspendStep h).leaveWaits h).haltMove h) _
  rw [← intervened, State.beginIntervention_eq]
  exact State.lines_enterClass own

theorem State.fewerWait.trans {s t u : State} (a : s.fewerWait t) (b : t.fewerWait u) : s.fewerWait u := fun l =>
  List.Subset.trans (b l) (a l)

theorem State.line_suspendStep_before (s : State) (h : HeadId) :
    (((s.disown h).closeWatchOf h).withdraw h).lines = s.lines := by
  obtain ⟨b, owned⟩ := State.disown_writes s h
  obtain ⟨q, r, closed⟩ := State.closeWatchOf_writes (s.disown h) h
  obtain ⟨c, withdrawn⟩ := State.withdraw_writes ((s.disown h).closeWatchOf h) h
  rw [withdrawn, closed, owned]

theorem State.fewerWait_suspendStep (s : State) (h : HeadId) : s.fewerWait (s.suspendStep h) :=
  (State.fewerWait_of_lines (State.line_suspendStep_before s h)).trans (State.fewerWait_dropLine _ h)

theorem State.fewerWait_takeCause (own : c.cls ≠ .park) : s.fewerWait (s.takeCause h c) := by
  unfold State.takeCause
  repeat' split
  · exact State.fewerWait_of_lines rfl
  · exact State.fewerWait_of_lines rfl
  · exact (State.fewerWait_suspendStep s h).trans (State.fewerWait_of_lines (State.lines_beginIntervention own))
  · exact State.fewerWait_of_lines rfl
  · exact State.fewerWait_of_lines rfl

theorem State.fewerWait_takeCauses {cs : List Cause} (lift : ∀ c ∈ cs, c.cls = .lift) (s : State) :
    s.fewerWait (cs.foldl (fun t c => t.takeCause h c) s) := by
  induction cs generalizing s with
  | nil => exact State.fewerWait_of_lines rfl
  | cons c cs ih =>
    exact (State.fewerWait_takeCause (by rw [lift c List.mem_cons_self]; decide)).trans
      (ih (fun x mem => lift x (List.mem_cons_of_mem _ mem)) _)

theorem State.fewerWait_toKeepout (s : State) (h : HeadId) : s.fewerWait (s.toKeepout h) := by
  obtain ⟨q, z, x, c, k, y, enters⟩ := State.enterKeepout_writes s h
  exact (State.fewerWait_of_lines (by rw [enters])).trans
    (State.fewerWait_takeCauses (fun _ raised => State.lift_enterKeepout raised) _)

theorem State.fewerWait_modLine {l : LineId} {f : Line → Line} (fewer : (f (s.line l)).wait ⊆ (s.line l).wait) :
    s.fewerWait (s.modLine l f) := fun j => by
  by_cases own : j = l
  · subst own
    rw [State.modLine_eq, State.line_setLine_self]
    exact fewer
  · rw [State.modLine_eq, State.line_setLine_ne _ _ own]
    exact List.Subset.refl _

theorem State.fewerWait_handOn (l : LineId) (n : Nat) (s : State) : s.fewerWait (s.handOn l n) := by
  induction n generalizing s with
  | zero => exact State.fewerWait_of_lines rfl
  | succ n ih =>
    unfold State.handOn
    split
    · next p rest _ _ wait =>
      have taken : s.fewerWait (s.modLine l fun k => { k with wait := rest }) :=
        State.fewerWait_modLine (by rw [wait]; exact List.subset_cons_self ..)
      dsimp only
      split
      · exact taken.trans (ih _)
      · split
        · exact taken.trans (ih _)
        · next g _ _ _ r _ _ =>
          have bound := State.fewerWait_modLine (s := s.modLine l fun k => { k with wait := rest }) (l := l)
            (f := fun k => { k with state := .bound p g r.flow }) (List.Subset.refl _)
          exact (taken.trans bound).trans ((State.fewerWait_toKeepout _ g).trans (ih _))
    · exact State.fewerWait_of_lines rfl

theorem State.fewerWait_handOnAll (s : State) : s.fewerWait s.handOnAll := by
  unfold State.handOnAll
  generalize lineIds = ls
  induction ls generalizing s with
  | nil => exact State.fewerWait_of_lines rfl
  | cons l ls ih => exact (State.fewerWait_handOn l _ s).trans (ih _)

/-- A head that raises a cause waits for no line through the nozzle of its platen (R117). -/
theorem State.unawaited_raiseCause {w : Working} {p : PlatenId} (running : (s.seq h).state = .running)
    (current : (s.seq h).activity = some (.step w)) (own : c.cls ≠ .park) (stands : s.platenOf h = some p) (l : LineId) :
    p ∉ ((s.raiseCause h c).line l).wait := fun waits => by
  have lower : (Activity.step w).rank < c.cls.rank := by cases c <;> exact Nat.succ_pos _
  have platen : (((s.disown h).closeWatchOf h).withdraw h).platenOf h = some p := by
    rw [State.platenOf_eq_some_iff, (Aside.withdraw (h := h) _ h).carrier, (Aside.closeWatchOf (h := h) _ h).carrier,
      (Aside.disown (h := h) s h).carrier]
    exact State.platenOf_eq_some_iff.1 stands
  have before := State.fewerWait_handOnAll _ l waits
  rw [State.takeCause_begins running current lower, State.line, State.lines_beginIntervention own] at before
  change p ∈ ((s.suspendStep h).line l).wait at before
  rw [State.suspendStep, State.line_dropLine platen, Line.leave] at before
  exact absurd (List.mem_filter.1 before).2 (by simp)

end

/-! ## The step takes its clock back -/

section
variable {s : State} {h : HeadId} {w : Working} {r : PolishRecord} {p : PlatenId}

theorem State.owner_of_none (free : s.ownedPlaten h = none) (j : PlatenId) : (s.base j).owner.map Owner.head ≠ some h := by
  rw [State.ownedPlaten, List.find?_eq_none] at free
  have not := free j (by cases j <;> decide)
  rwa [decide_eq_true_eq] at not

/-- The platen whose accumulator a head alone takes is the platen it owns. -/
theorem State.ownedPlaten_of_only (only : ∀ j, (s.base j).owner.map Owner.head = some h ↔ j = p) :
    s.ownedPlaten h = some p := by
  unfold State.ownedPlaten
  simp only [only]
  cases p <;> rfl

theorem State.ownedPlaten_reclaimed (free : s.ownedPlaten h = none) (rest : List Context) :
    (s.reclaimed h rest w r p).ownedPlaten h = some p := by
  refine State.ownedPlaten_of_only fun j => ?_
  by_cases own : j = p
  · subst own
    rw [State.base_reclaimed]
    exact iff_of_true rfl rfl
  · have other : (s.reclaimed h rest w r p).base j = s.base j := by
      rw [State.reclaimed, State.reowned, State.base_setBase_ne _ _ own, State.base, State.bases_popped]
      rfl
    rw [other]
    exact iff_of_false (State.owner_of_none free j) own

/-- What the timebase holds for a step that took its clock back is what the step holds. -/
theorem State.collect_reclaimed (free : s.ownedPlaten h = none) (unamended : (s.base p).amend = ⟨none, none, none⟩)
    (rest : List Context) {v : Working} (accrued : v.accrued = w.accrued) (limit : v.limit = w.limit) :
    (s.reclaimed h rest w r p).collect h v = v := by
  have empty : ((s.base p).own h w.accrued w.limit r.clock).amend.isEmpty = true :=
    (AmendBuffer.isEmpty_iff _).2 unamended
  rw [State.collect_owned (State.ownedPlaten_reclaimed free rest), State.base_reclaimed, empty, Bool.not_true,
    Bool.or_false]
  rw [← accrued]
  show { v with accrued := v.accrued, limit := w.limit } = v
  rw [← limit]

/-- A head that works on nothing at its platen does not hold the arm at K, so its lift turns no sweep (R138). -/
theorem State.disk_liftUp_idle (on : s.headOn p = some h) (stands : s.platenOf h = some p)
    (idle : s.current h = none) (j : PlatenId) : (s.liftUp h).disk j = s.disk j := by
  unfold State.liftUp
  split
  · dsimp only
    have want : (s.modZone h fun z => { z with lift := .up }).outerWanted p = .outer := by
      have on' : (s.modZone h fun z => { z with lift := .up }).headOn p = some h := on
      have up : (s.modZone h fun z => { z with lift := .up }).isDown h = false := by
        rw [State.isDown, State.modZone_eq, State.zone_setZone_self]
      have idle' : (s.modZone h fun z => { z with lift := .up }).current h = none := idle
      rw [State.outerWanted, on']
      dsimp only
      rw [up, idle']
      rfl
    rw [stands]
    dsimp only
    rw [State.refreshOuter]
    dsimp only
    rw [want, if_neg fun k => nomatch k.1]
    rfl
  · rfl

theorem State.diskUsable_reclaimed (on : s.headOn p = some h) (stands : s.platenOf h = some p) (rest : List Context) :
    (s.reclaimed h rest w r p).diskUsable p = s.diskUsable p := by
  have idle : (s.exited h rest).current h = none := by
    rw [State.current, State.seq_exited]
  have station : ((s.exited h rest).station (.platen p)).holder = (s.station (.platen p)).holder := by
    show ((s.leaveWaits h).station (.platen p)).holder = _
    rw [State.station_leaveWaits]
    rfl
  have on' : (s.exited h rest).headOn p = some h := by
    rw [State.headOn_eq_some_iff, station]
    exact State.headOn_eq_some_iff.1 on
  have disk : (s.reclaimed h rest w r p).disk p = s.disk p := State.disk_liftUp_idle on' stands idle p
  rw [State.diskUsable, disk]
  rfl

/-- A POLISH step that resumes at its platen and finds its line FAULTED is saved again, under a RINSE (R79, R81, R123). -/
theorem State.endIntervention_faulted {l : LineId} {f : Option Nat} {tr : Option Position}
    (running : (s.seq h).state = .running) (saved : (s.seq h).stack = [⟨.step w, tr⟩]) (kind : w.record.kind = .polish r)
    (line : r.line = .line l) (faulted : (s.line l).state = .faulted f) (platen : w.platen = some p)
    (station : w.station = .platen p) (stands : (s.carrier h).position = .stands (.platen p))
    (vacuum : (s.seq h).vacuum = true) :
    s.endIntervention h =
      ((s.reclaimed h [] w r p).asked h p w.popped r).raiseCause h (.lineFault l) := by
  have line' : ((s.reclaimed h [] w r p).line l).state = .faulted f := by
    rw [State.line, State.lines_reclaimed]
    exact faulted
  rw [State.endIntervention_polish saved kind platen station stands vacuum]
  exact State.enterAcquire_faults (State.polishing_reclaimed running stands kind []) line line' rfl

theorem State.carrier_asked (s : State) (h : HeadId) (p : PlatenId) (w : Working) (r : PolishRecord) (g : HeadId) :
    (s.asked h p w r).carrier g = s.carrier g :=
  congrArg (fun x => PerHead.get x g) (State.carriers_asked s h p w r)

theorem State.carrier_reclaimed (s : State) (h : HeadId) (rest : List Context) (w : Working) (r : PolishRecord)
    (p : PlatenId) (g : HeadId) : (s.reclaimed h rest w r p).carrier g = s.carrier g := State.carrier_popped s h rest w g

theorem Carrier.halt_standing {c : Carrier} {d : StationId} (stands : c.position = .stands d) : c.halt = c := by
  rw [Carrier.halt, stands]

/-- What the fault leaves at the head whose step resumed (R81, R115, R117). -/
theorem State.endIntervention_faults {l : LineId} {f : Option Nat} {tr : Option Position}
    (running : (s.seq h).state = .running) (saved : (s.seq h).stack = [⟨.step w, tr⟩]) (kind : w.record.kind = .polish r)
    (line : r.line = .line l) (faulted : (s.line l).state = .faulted f) (platen : w.platen = some p)
    (station : w.station = .platen p) (stands : (s.carrier h).position = .stands (.platen p))
    (held : (s.station (.platen p)).holder = some (.head h)) (vacuum : (s.seq h).vacuum = true)
    (free : s.ownedPlaten h = none) (unamended : (s.base p).amend = ⟨none, none, none⟩) :
    (s.endIntervention h).isDown h = false ∧
      (s.endIntervention h).seq h = Sequencer.bump { s.seq h with
        activity := some (.intervention .rinse [.lineFault l] none)
        stack := [⟨.step (w.popped.acquiring r (s.diskUsable p)).suspended, none⟩] } ∧
      p ∉ ((s.endIntervention h).line l).wait ∧ .intervened h ∈ ((s.endIntervention h).port .recipe).notices := by
  rw [State.endIntervention_faulted running saved kind line faulted platen station stands vacuum]
  have seq := State.seq_asked (s.reclaimed h [] w r p) h p w.popped r
  rw [State.diskUsable_reclaimed (State.headOn_eq_some_iff.2 held) (State.platenOf_eq_some_iff.2 stands),
    State.seq_reclaimed] at seq
  have carrier := (State.carrier_asked (s.reclaimed h [] w r p) h p w.popped r h).trans (State.carrier_reclaimed ..)
  have collect : ((s.reclaimed h [] w r p).asked h p w.popped r).collect h (w.popped.acquiring r (s.diskUsable p)) =
      w.popped.acquiring r (s.diskUsable p) :=
    (State.collect_of_bases (State.bases_asked ..) h _).trans (State.collect_reclaimed free unamended [] rfl rfl)
  have up := (State.isDown_asked (s.reclaimed h [] w r p) h p w.popped r h).trans (State.isDown_reclaimed ..)
  generalize (s.reclaimed h [] w r p).asked h p w.popped r = v at *
  have current : (v.seq h).activity = some (.step (w.popped.acquiring r (s.diskUsable p))) := by rw [seq]
  have runs : (v.seq h).state = .running := by rw [seq]; exact running
  have empty : (v.seq h).stack = [] := by rw [seq]
  obtain ⟨raised, same, notice⟩ := State.raiseCause_rinse (c := .lineFault l) rfl runs current (by
    rw [empty]; exact Nat.zero_lt_two)
  rw [carrier, collect, Carrier.halt_standing stands, stands, seq] at raised
  refine ⟨same.trans up, raised, ?_, notice⟩
  exact State.unawaited_raiseCause runs current (c := .lineFault l) Intervention.noConfusion
    (State.platenOf_eq_some_iff.2 (by rw [carrier]; exact stands)) l

end

/-! ## RESUME of a RUNNING head -/

section
variable {s : State} {b : List Byte} {h : HeadId}

theorem exec_resume (o : s.opens .recipe) (len : b.length = 1) (head : headOf (le8 b 0) = some h) :
    exec (.resume .recipe b) s = .next (s.reply .recipe (s.resume h)) := by
  have arm : exec (.resume .recipe b) s = execResume .recipe b s := rfl
  rw [arm, execResume, State.takeRequest_recipe o len, requireField_of head]

/-- The current intervention of a head without the causes that RESUME clears (R120). -/
def State.withCauses (s : State) (h : HeadId) (k : Intervention) (cs : List Cause) (x : Option ParkProgress) : State :=
  s.setSeq h { s.seq h with activity := some (.intervention k cs x) }

theorem exec_resume_running {k : Intervention} {cs : List Cause} {x : Option ParkProgress} (o : s.opens .recipe)
    (len : b.length = 1) (head : headOf (le8 b 0) = some h) (running : (s.seq h).state = .running) (other : k ≠ .trip)
    (busy : (s.seq h).activity = some (.intervention k cs x)) :
    exec (.resume .recipe b) s = .next
      (((s.withCauses h k (cs.filter fun c => !c.clearedByResume) x).endIfClear h).accepted .recipe) := by
  have resumable : s.resumable h = true := by
    rw [State.resumable, busy]
    cases k with
    | trip => exact absurd rfl other
    | _ => rfl
  rw [exec_resume o len head, State.resume, running]
  dsimp only
  rw [State.reply_require_accept resumable, State.resumeRunning, State.modSeq_eq, busy]
  rfl

theorem Sequencer.bump_found {q : Sequencer} (found : q.lost = none) (a : Option Activity) (cs : List Context) :
    Sequencer.bump { q with activity := a, stack := cs } = { q with activity := a, stack := cs.map Context.bump } := by
  rw [Sequencer.bump]
  dsimp only
  rw [found]
  rfl

/-- RESUME ends an intervention whose causes it clears (R120). -/
theorem exec_resume_ends {k : Intervention} {cs : List Cause} {x : Option ParkProgress} (o : s.opens .recipe)
    (len : b.length = 1) (head : headOf (le8 b 0) = some h) (running : (s.seq h).state = .running) (other : k ≠ .trip)
    (busy : (s.seq h).activity = some (.intervention k cs x)) (clears : ∀ c ∈ cs, c.clearedByResume = true) :
    exec (.resume .recipe b) s = .next (((s.withCauses h k [] x).endIntervention h).accepted .recipe) := by
  have none : (cs.filter fun c => !c.clearedByResume) = [] :=
    List.filter_eq_nil_iff.2 fun c mem => by rw [clears c mem]; decide
  have seq : (s.withCauses h k [] x).seq h = { s.seq h with activity := some (.intervention k [] x) } :=
    State.seq_setSeq_self ..
  rw [exec_resume_running o len head running other busy, none,
    State.endIfClear_of (k := k) (x := x) (by rw [seq]; exact running) (by rw [seq])]

theorem State.seq_withCauses (s : State) (h : HeadId) (k : Intervention) (cs : List Cause) (x : Option ParkProgress) :
    (s.withCauses h k cs x).seq h = { s.seq h with activity := some (.intervention k cs x) } := State.seq_setSeq_self ..

/-- The list that has no context with work left ends LOST (R116, R122). -/
theorem State.seq_lost {l : LostStep} (idle : (s.seq h).activity = none) (empty : (s.seq h).stack = [])
    (lost : (s.seq h).lost = some l) :
    (s.finalHalt h .lost).seq h = { s.seq h with
      activity := none, stack := [], lost := none
      results := (s.seq h).results ++ [l.result .lost s.beat.counter]
      state := (s.carrier h).position.closed (.halted .lost) } := by
  have result : s.stepResult h .lost = some (l.result .lost s.beat.counter) := by
    rw [State.stepResult, State.current, idle]
    dsimp only
    rw [empty, lost]
    rfl
  rw [State.seq_finalHalt, State.stopped, show FinalReason.lost.outcome = StepOutcome.lost from rfl, result]
  rfl

end

/-- Settles O13: RESUME ends an intervention whose causes it clears, and the context on top of the stack goes on. -/
theorem resumeUnwindsTheStack : Obligations.ResumeUnwindsTheStack := by
  unfold Obligations.ResumeUnwindsTheStack
  refine fun s b h o len head running => ⟨fun k cs p k' x xs tr rest other busy clears saved own => ?intervention,
    fun k cs p w n tr other busy clears saved kind stands => ?dwell,
    fun k cs x l other busy clears spent lost => ?lost,
    fun k cs x w r p l f tr other busy clears saved found kind line faulted platen station stands held vacuum free unamended =>
      ?faulted,
    fun k cs p other busy some stays => ?stays, ?refused⟩
  case intervention =>
    let u := s.withCauses h k [] p
    have seq : u.seq h = { s.seq h with activity := some (.intervention k [] p) } := State.seq_withCauses ..
    have ends : u.endIntervention h = (u.exited h rest).resumeIntervention h k' (x :: xs) := by
      rw [State.endIntervention_eq, show (u.seq h).stack = _ from (congrArg Sequencer.stack seq).trans saved,
        State.unwind_intervention]
    have goesOn : (u.exited h rest).resumeIntervention h k' (x :: xs) =
        (u.exited h rest).modSeq h fun q => { q with activity := some (.intervention k' (x :: xs) none) } := by
      cases k' with
      | park => exact absurd rfl own
      | rinse => rfl
      | lift => rfl
      | trip => rfl
    refine ⟨_, exec_resume_ends o len head running other busy clears, State.response_accepted .., ?_, ?_⟩
    · rw [State.carrier_accepted, ends, goesOn]
      rfl
    · rw [State.seq_accepted, ends, goesOn, State.modSeq_eq, State.seq_setSeq_self, State.seq_exited, seq]
  case dwell =>
    let u := s.withCauses h k [] p
    have seq : u.seq h = { s.seq h with activity := some (.intervention k [] p) } := State.seq_withCauses ..
    have ends : u.endIntervention h = (u.popped h [] w).setWorking h { w.popped with phase := some .dwell, resume := none } := by
      rw [State.endIntervention_eq, show (u.seq h).stack = _ from (congrArg Sequencer.stack seq).trans saved,
        State.unwind_step, State.resumeStep_exited,
        State.askStation_here (s := u.popped h [] w) (State.current_popped ..)
          ((congrArg Carrier.position (State.carrier_popped ..)).trans stands),
        State.arrived_dwell (State.current_popped ..) kind]
    refine ⟨_, exec_resume_ends o len head running other busy clears, State.response_accepted .., ?_, ?_, ?_⟩
    · rw [State.carrier_accepted, ends]
      exact State.carrier_popped u h [] w h
    · rw [State.isDown_accepted, ends]
      exact State.isDown_popped u h [] w
    · rw [State.seq_accepted, ends, State.setWorking, State.modSeq_eq, State.seq_setSeq_self, State.seq_popped, seq]
      rfl
  case lost =>
    let u := s.withCauses h k [] x
    have seq : u.seq h = { s.seq h with activity := some (.intervention k [] x) } := State.seq_withCauses ..
    have left : (u.exited h []).seq h = { s.seq h with activity := none, stack := [] } := by
      rw [State.seq_exited, seq]
    have ends : u.endIntervention h = (u.exited h []).finalHalt h .lost := by
      rw [State.endIntervention_eq]
      exact State.unwind_empties u h _ (by rw [seq]; exact spent) id
    refine ⟨_, exec_resume_ends o len head running other busy clears, State.response_accepted .., ?_, ?_, fun d stands => ?_⟩
    · rw [State.isDown_accepted, ends, State.isDown_finalHalt]
    · rw [State.seq_accepted, ends, State.seq_lost (l := l) (by rw [left]) (by rw [left]) (by rw [left]; exact lost), left]
      rfl
    · refine State.notice_accepted ?_
      rw [ends]
      exact State.notice_finalHalt_stands (d := d) stands
  case faulted =>
    let u := s.withCauses h k [] x
    have seq : u.seq h = { s.seq h with activity := some (.intervention k [] x) } := State.seq_withCauses ..
    have running' : (u.seq h).state = .running := by rw [seq]; exact running
    obtain ⟨up, goesOn, unawaited, notice⟩ := State.endIntervention_faults (s := u) running' (by rw [seq]; exact saved) kind
      line faulted platen station stands held (by rw [seq]; exact vacuum) free unamended
    refine ⟨_, exec_resume_ends o len head running other busy clears, State.response_accepted .., ?_, ?_, ?_, ?_⟩
    · rw [State.isDown_accepted]
      exact up
    · rw [State.seq_accepted, goesOn, seq, Sequencer.bump_found found]
      rfl
    · rw [State.line_accepted]
      exact unawaited
    · exact State.notice_accepted notice
  case stays =>
    obtain ⟨c, cs', rfl⟩ := List.exists_cons_of_ne_nil some
    have kept : (c :: cs').filter (fun c => !c.clearedByResume) = c :: cs' :=
      List.filter_eq_self.2 fun c mem => by rw [stays c mem]; rfl
    have same : s.withCauses h k (c :: cs') p = s := by
      rw [State.withCauses, ← busy]
      exact State.setSeq_seq s h
    rw [exec_resume_running o len head running other busy, kept, same, State.endIfClear_not busy]
  case refused =>
    intro fixed
    have unresumable : s.resumable h = false := by
      obtain ⟨w, busy⟩ | ⟨cs, x, busy⟩ := fixed
      · rw [State.resumable, busy]
      · rw [State.resumable, busy]
    rw [exec_resume o len head, State.resume, running]
    exact congrArg Host.Outcome.next (State.reply_require_not unresumable .recipe .wrongState _)

end Sys2Proof.Machine
end

section
/-! PROOFS. RESUME of a HALTED head (R26, R126): O14. -/
namespace Sys2Proof.Machine

section
variable {s : State} {b : List Byte} {h : HeadId} {d o : StationId} {w : Working}

/-- RESUME of a head whose halt is not final retries what halted it (R126). -/
theorem exec_resume_halted {r : HaltReason} {e : Option EndState} (opens : s.opens .recipe) (len : b.length = 1)
    (head : headOf (le8 b 0) = some h) (halted : (s.seq h).state = .halted r e) (retried : ∀ x, r ≠ .final x)
    (clear : s.trip.tripped = false) :
    exec (.resume .recipe b) s = .next ((s.resumeHalted h r e).accepted .recipe) := by
  have untripped : (!s.trip.tripped) = true := by rw [clear]; rfl
  rw [exec_resume opens len head, State.resume, halted]
  cases r with
  | final x => exact absurd rfl (retried x)
  | _ => exact congrArg Host.Outcome.next (State.reply_require_accept untripped .recipe .tripped)

theorem State.seq_setHead (s : State) (h : HeadId) (x : HeadState) : (s.setHead h x).seq h = { s.seq h with state := x } :=
  State.seq_setSeq_self ..

theorem State.current_setHead (s : State) (h : HeadId) (x : HeadState) : (s.setHead h x).current h = s.current h := by
  rw [State.current, State.seq_setHead]
  rfl

/-- A step that is no POLISH step, or whose wafer is there, is not lost (R126). -/
theorem State.retryLost_not (current : s.current h = some w)
    (wafer : (∃ r, w.record.kind = .polish r) → (s.seq h).vacuum = true) : s.retryLost h = false := by
  rw [State.retryLost, current]
  dsimp only
  cases kind : w.polish? with
  | none => rfl
  | some r =>
    rw [wafer ⟨r, Working.polish?_eq_some_iff.1 kind⟩]
    rfl

theorem State.endIfClear_step (current : (s.seq h).activity = some (.step w)) : s.endIfClear h = s := by
  rw [State.endIfClear, State.causesGone, current, Bool.and_false]
  exact if_neg Bool.false_ne_true

/-- A request that is granted brings the step on its way (R4, R6). -/
theorem State.askStation_granted (current : s.current h = some w) (stands : (s.carrier h).position = .stands o)
    (ne : o ≠ w.station) (op : s.closedTo w.station = false) (free : (s.station w.station).holder = none)
    (unkept : s.keptForRun w.station = false) :
    s.askStation h =
      ((s.modStation w.station fun r => { r with holder := some (.head h) }).sendMove h o w.station).setWorking h
        { w with phase := some .inTransit } := by
  have current' : ((s.modStation w.station fun r => { r with holder := some (.head h) }).sendMove h o w.station).current h =
      some w := current
  rw [State.askStation, current]
  dsimp only
  rw [State.acquire_granted stands ne op free unkept, State.moveAnswered, State.modWorking, current']
  rfl

theorem State.retryRequest_moves (current : s.current h = some w) (fresh : w.phase = none) :
    s.retryRequest h = s.askStation h := by
  rw [State.retryRequest, current]
  dsimp only
  rw [fresh]
  rfl

/-- The halted move of a head is sent again (R126). -/
theorem State.retryMove_step (current : (s.seq h).activity = some (.step w))
    (transit : (s.carrier h).position = .inTransit o d .halted) (clear : s.trip.tripped = false) :
    s.retryMove h = s.modCarrier h fun c => { c with
      position := .inTransit o d (.moving 0 c.moveLimit)
      moveNumber := c.moveNumber + 1
      sent := c.sent ++ [.move d (c.moveNumber + 1)] } := by
  rw [State.retryMove, transit]
  dsimp only
  rw [State.forwardMove_still transit nofun, State.sendMove_clear clear, State.endIfClear_step (w := w)]
  exact current

theorem exec_resume_refused {x : HeadState} (opens : s.opens .recipe) (len : b.length = 1)
    (head : headOf (le8 b 0) = some h) (state : (s.seq h).state = x) (other : x ≠ .running)
    (unhalted : ∀ r e, x = .halted r e → ∃ y, r = .final y) :
    exec (.resume .recipe b) s = .next (s.refusal .recipe .wrongState) := by
  rw [exec_resume opens len head, State.resume, state]
  cases x with
  | running => exact absurd rfl other
  | halted r e =>
    obtain ⟨y, rfl⟩ := unhalted r e rfl
    rfl
  | _ => rfl

end

/-- Settles O14: RESUME makes again what halted the head, a request or a move. -/
theorem resumeRetriesTheHalt : Obligations.ResumeRetriesTheHalt := by
  unfold Obligations.ResumeRetriesTheHalt
  refine fun s b h opens len head => ⟨fun r w d o reason halted clear busy kind station fresh stands ne op free unkept => ?request,
    fun w o d halted clear busy wafer transit => ?move, fun e o d halted clear transit => ?closing,
    fun r e halted => exec_resume_refused opens len head halted nofun fun _ _ same => ?_,
    fun r e halted retried tripped => ?tripped, fun unhalted => ?unhalted⟩
  case request =>
    let u := s.setHead h .running
    have current : u.current h = some w := (State.current_setHead ..).trans (State.current_eq_some_iff.2 busy)
    have notMove : r ≠ .moveFault ∧ ∀ x, r ≠ .final x := by
      obtain rfl | rfl := reason
      all_goals exact ⟨nofun, nofun⟩
    have kept : s.retryLost h = false := State.retryLost_not (State.current_eq_some_iff.2 busy) fun ⟨p, polish⟩ => by
      rw [polish] at kind
      cases kind
    subst station
    have asks : s.resumeHalted h r none =
        ((u.modStation w.station fun k => { k with holder := some (.head h) }).sendMove h o w.station).setWorking h
          { w with phase := some .inTransit } := by
      rw [← State.askStation_granted (s := u) current stands ne op free unkept, ← State.retryRequest_moves current fresh,
        State.resumeHalted]
      rw [kept, if_neg Bool.false_ne_true, if_neg notMove.1]
    rw [State.sendMove_clear (s := u.modStation w.station _) clear] at asks
    refine ⟨_, exec_resume_halted opens len head halted notMove.2 clear, State.response_accepted .., ?_, ?_, ?_⟩
    · rw [State.seq_accepted, asks, State.setWorking, State.modSeq_eq, State.seq_setSeq_self, State.modCarrier_eq,
        State.seq_setCarrier, State.modStation_eq, State.seq_setStation, State.seq_setHead]
    · rw [State.carrier_accepted, asks, State.setWorking, State.modSeq_eq, State.carrier_setSeq, State.modCarrier_eq,
        State.carrier_setCarrier_self]
      rfl
    · rw [State.station_accepted, asks]
      exact congrArg Station.holder (State.station_setStation_self ..)
  case move =>
    let u := s.setHead h .running
    have busy' : (u.seq h).activity = some (.step w) := by rw [State.seq_setHead]; exact busy
    have kept : s.retryLost h = false := State.retryLost_not (State.current_eq_some_iff.2 busy) wafer
    have moves : s.resumeHalted h .moveFault none = u.retryMove h := by
      rw [State.resumeHalted]
      rw [kept, if_neg Bool.false_ne_true, if_pos rfl]
    rw [State.retryMove_step (s := u) busy' transit clear] at moves
    refine ⟨_, exec_resume_halted opens len head halted nofun clear, State.response_accepted .., ?_, ?_⟩
    · rw [State.seq_accepted, moves, State.modCarrier_eq, State.seq_setCarrier, State.seq_setHead]
    · rw [State.carrier_accepted, moves, State.modCarrier_eq, State.carrier_setCarrier_self]
      rfl
  case closing =>
    let u := s.setHead h (.closing e)
    have closes : s.resumeHalted h .moveFault (some e) = u.sendMove h o d := by
      rw [← State.forwardMove_still (s := u) transit nofun]
      exact State.close_transit transit e
    rw [State.sendMove_clear (s := u) clear] at closes
    refine ⟨_, exec_resume_halted opens len head halted nofun clear, State.response_accepted .., ?_, ?_⟩
    · rw [State.seq_accepted, closes, State.modCarrier_eq, State.seq_setCarrier, State.seq_setHead]
    · rw [State.carrier_accepted, closes, State.modCarrier_eq, State.carrier_setCarrier_self]
      rfl
  · cases same
    exact ⟨r, rfl⟩
  case tripped =>
    have untripped : (!s.trip.tripped) = false := by rw [tripped]; rfl
    rw [exec_resume opens len head, State.resume, halted]
    cases r with
    | final x => exact absurd rfl (retried x)
    | _ => exact congrArg Host.Outcome.next (State.reply_require_not untripped .recipe .tripped _)
  case unhalted =>
    obtain state | state | ⟨e, state⟩ := unhalted
    all_goals exact exec_resume_refused opens len head state nofun fun _ _ same => nomatch same

end Sys2Proof.Machine
end

section
/-! PROOFS. LINE_CONFIG (R94): O18. A line that is DISABLED and that no nozzle waits for stays so whatever the heads do. -/
namespace Sys2Proof.Machine

/-- No head joins the wait list of a DISABLED line (R78, R79). -/
theorem Acts.shut {W : HeadId → Prop} {D : StationId → Prop} {s t : State} {l : LineId} (k : Acts W D s t)
    (shut : (s.line l).state = .disabled ∧ (s.line l).wait = []) : (t.line l).state = .disabled ∧ (t.line l).wait = [] := by
  induction k with
  | refl s => exact shut
  | trans _ _ first second => exact second (first shut)
  | @outer W D s p =>
    obtain ⟨c, k, r, refreshed⟩ := s.refreshOuter_writes p
    rw [refreshed]
    exact shut
  | lines f stays fewer _ =>
    rw [State.line, PerLine.get_map]
    exact ⟨stays _ shut.1, List.eq_nil_of_subset_nil (shut.2 ▸ fewer _)⟩
  | line j x enabled _ =>
    have other : l ≠ j := fun own => enabled (by rw [← own]; exact shut.1)
    rw [State.line_setLine_ne _ _ other]
    exact shut
  | called _ _ acts => exact acts shut
  | _ => exact shut

section
variable {s : State} {b : List Byte} {l : LineId} {c : LineClass}

theorem exec_lineConfig (o : s.opens .recipe) (len : b.length = 4) (line : lineOf (le8 b 0) = some l)
    (cls : lineClassOf (le8 b 1) = some c) :
    exec (.lineConfig .recipe b) s = .next (s.reply .recipe
      (require (inRange 0 60000 (le16 b 2)) .outOfRange (s.lineConfig l c (le16 b 2)))) := by
  have arm : exec (.lineConfig .recipe b) s = execLineConfig .recipe b s := rfl
  rw [arm, execLineConfig, State.takeRequest_recipe o len, requireField_of line, requireField_of cls]

theorem exec_lineConfig_of (o : s.opens .recipe) (len : b.length = 4) (line : lineOf (le8 b 0) = some l)
    (cls : lineClassOf (le8 b 1) = some c) (range : le16 b 2 ≤ 60000) (free : (s.line l).busy = false) :
    exec (.lineConfig .recipe b) s = .next ((s.configureLine l c (le16 b 2)).accepted .recipe) := by
  have open_ : (!(s.line l).busy) = true := by rw [free]; rfl
  rw [exec_lineConfig o len line cls, require_of (inRange_iff.2 ⟨Nat.zero_le _, range⟩), State.lineConfig,
    State.reply_require_accept open_]

theorem Line.eq_of_fields {a b : Line} (cls : a.cls = b.cls) (state : a.state = b.state)
    (time : a.recoveryTime = b.recoveryTime) (ready : a.supplyReady = b.supplyReady) (wait : a.wait = b.wait) : a = b := by
  obtain ⟨_, _, _, _, _⟩ := a
  obtain ⟨_, _, _, _, _⟩ := b
  congr

/-! ## The state that a class gives a line -/

theorem Line.configure_none (k : Line) (n : Nat) : (k.configure .none n).state = .disabled := rfl

theorem Line.configure_enables {k : Line} (some : c ≠ .none) (disabled : k.state = .disabled) (n : Nat) :
    (k.configure c n).state = if k.supplyReady then .idle else .faulted none := by
  cases c with
  | none => exact absurd rfl some
  | _ => unfold Line.configure; rw [disabled]

theorem Line.configure_keeps {k : Line} (some : c ≠ .none) (enabled : k.state ≠ .disabled) (n : Nat) :
    (k.configure c n).state = k.state := by
  unfold Line.configure
  dsimp only
  split
  · next off => exact absurd rfl some
  · next off _ => exact absurd off enabled
  · rfl

theorem Line.busy_eq_false_iff {k : Line} : k.busy = false ↔ k.pumpOn = false ∧ k.wait = [] := by
  rw [Line.busy, Bool.or_eq_false_iff, Bool.not_eq_false', List.isEmpty_iff]

/-- A LINE_CONFIG that neither faults a line nor disables a FAULTED one writes the record and does nothing else. -/
theorem State.configureLine_quiet {n : Nat} {x : LineState} (state : ((s.line l).configure c n).state = x)
    (works : (s.line l).state = .disabled → x.isFaulted = false)
    (kept : (s.line l).state.isFaulted = true → c ≠ .none) :
    s.configureLine l c n = s.modLine l fun k => { k with cls := c, recoveryTime := n, state := x } := by
  have record : (s.line l).configure c n = { s.line l with cls := c, recoveryTime := n, state := x } := by
    rw [← state]
    rfl
  have unfaulted : ¬((s.line l).state = .disabled ∧ x.isFaulted = true) := fun ⟨off, faults⟩ => by
    rw [works off] at faults
    cases faults
  rw [State.configureLine]
  rw [state, if_neg unfaulted, if_neg fun k => kept k.1 k.2, record]
  rfl

theorem State.deliverRecovery_acts (s : State) (l : LineId) :
    Machine.Acts (fun _ => True) (fun _ => True) s (s.deliverRecovery l) :=
  .foldl (fun s h => .recoverHead (h := h) trivial s l) headIds s

end

/-- Settles O18: LINE_CONFIG takes a line that is free, and its new class decides between DISABLED, IDLE and FAULTED. -/
theorem lineConfig : Obligations.LineConfig := by
  unfold Obligations.LineConfig
  refine fun s b l c o len line cls => ⟨fun range empty => ?free, fun range taken => ?busy, fun beyond => ?beyond⟩
  case free =>
    have free (unbound : (s.line l).pumpOn = false) :=
      exec_lineConfig_of o len line cls range (Line.busy_eq_false_iff.2 ⟨unbound, empty⟩)
    refine ⟨fun disabled none => ?_, fun disabled some ready => ?_, fun disabled some absent => ?_, fun idle none => ?_,
      fun state some => ?_, fun ⟨x, faulted⟩ none => ?_⟩
    · rw [free (by rw [Line.pumpOn, disabled]), State.configureLine_quiet (x := .disabled) (by rw [none]; exact Line.configure_none ..)
        (fun _ => rfl) fun k => by rw [disabled] at k; cases k]
      have same : s.modLine l (fun k => { k with cls := c, recoveryTime := le16 b 2, state := .disabled }) =
          s.modLine l fun k => { k with cls := .none, recoveryTime := le16 b 2 } := by
        rw [State.modLine_eq, State.modLine_eq, none, ← disabled]
      rw [same]
    · rw [free (by rw [Line.pumpOn, disabled]), State.configureLine_quiet (x := .idle) ?_ (fun _ => rfl) fun _ => some]
      rw [Line.configure_enables some disabled, ready, if_pos rfl]
    · have state : ((s.line l).configure c (le16 b 2)).state = .faulted none := by
        rw [Line.configure_enables some disabled, absent, if_neg Bool.false_ne_true]
      have record : (s.line l).configure c (le16 b 2) =
          { s.line l with cls := c, recoveryTime := le16 b 2, state := .faulted none } := by
        rw [← state]
        rfl
      rw [free (by rw [Line.pumpOn, disabled]), State.configureLine]
      rw [if_pos ⟨disabled, by rw [state]; rfl⟩, record]
      rfl
    · rw [free (by rw [Line.pumpOn, idle]), State.configureLine_quiet (x := .disabled) (by rw [none]; exact Line.configure_none ..)
        (fun _ => rfl) (fun k => by rw [idle] at k; cases k), none]
    · have usable : (s.line l).state ≠ .disabled ∧ (s.line l).pumpOn = false := by
        obtain idle | ⟨x, faulted⟩ := state
        · rw [Line.pumpOn, idle]
          exact ⟨nofun, rfl⟩
        · rw [Line.pumpOn, faulted]
          exact ⟨nofun, rfl⟩
      rw [free usable.2, State.configureLine_quiet (Line.configure_keeps some usable.1 _) (fun k => absurd k usable.1) fun _ => some]
      rfl
    · have state : ((s.line l).configure c (le16 b 2)).state = .disabled := by
        rw [none]
        exact Line.configure_none ..
      have record : (s.line l).configure c (le16 b 2) =
          { s.line l with cls := .none, recoveryTime := le16 b 2, state := .disabled } := by
        rw [← state, none]
        rfl
      have recovers : s.configureLine l c (le16 b 2) =
          (s.setLine l { s.line l with cls := .none, recoveryTime := le16 b 2, state := .disabled }).deliverRecovery l := by
        have enabled : ¬((s.line l).state = .disabled ∧ ((s.line l).configure c (le16 b 2)).state.isFaulted = true) :=
          fun k => by
            rw [faulted] at k
            exact nomatch k.1
        have off : (s.line l).state.isFaulted = true ∧ c = .none := ⟨by rw [faulted]; rfl, none⟩
        rw [State.configureLine]
        dsimp only
        rw [if_neg enabled, if_pos off, record]
      refine ⟨_, free (by rw [Line.pumpOn, faulted]), State.response_accepted .., ?_⟩
      rw [State.line_accepted, recovers]
      let u := s.setLine l { s.line l with cls := .none, recoveryTime := le16 b 2, state := .disabled }
      have own : u.line l = { s.line l with cls := .none, recoveryTime := le16 b 2, state := .disabled } :=
        State.line_setLine_self ..
      have kept := (Cascade.deliverRecovery u l).line l
      have shut := (u.deliverRecovery_acts l).shut (l := l) (by rw [own]; exact ⟨rfl, empty⟩)
      have cls := kept.cls
      have time := kept.time
      have ready := kept.ready
      rw [own] at cls time ready
      exact Line.eq_of_fields cls shut.1 time ready shut.2
  case busy =>
    have busy : (s.line l).busy = true := by
      rw [Line.busy, Bool.or_eq_true, Bool.not_eq_true', ← Bool.not_eq_true, List.isEmpty_iff]
      exact taken.imp (fun ⟨n, h, f, bound⟩ => by rw [Line.pumpOn, bound]) id
    have shut : (!(s.line l).busy) = false := by rw [busy]; rfl
    rw [exec_lineConfig o len line cls, require_of (inRange_iff.2 ⟨Nat.zero_le _, range⟩), State.lineConfig,
      State.reply_require_not shut]
  case beyond =>
    rw [exec_lineConfig o len line cls, State.reply_require_not (Bool.eq_false_iff.2 fun k =>
      absurd (inRange_iff.1 k).2 (Nat.not_le.2 beyond))]

end Sys2Proof.Machine
end

section
/-!
PROOFS. How a POLISH step comes out of ACQUIRE_LINE (R32 to R34, R79, R80): into KEEPOUT_WAIT, DOWN into GAP or POLISH, into the
wait list of its line, or to a halt.
-/
namespace Sys2Proof.Machine

/-- Head h has gone on at platen p with the step and in the head state given; its carrier and the timebase stand. -/
structure State.WentOn (s t : State) (h : HeadId) (p : PlatenId) (x : Working) (y : HeadState) : Prop where
  seq : t.seq h = { s.seq h with activity := some (.step x), state := y }
  carrier : t.carrier h = s.carrier h
  base : t.base p = s.base p

section
variable {s : State} {h : HeadId} {w : Working} {r : PolishRecord} {p : PlatenId}

theorem State.carrier_supplied (s : State) (h : HeadId) (p : PlatenId) (w : Working) (r : PolishRecord) (g : HeadId) :
    (s.supplied h p w r).carrier g = s.carrier g := by
  obtain ⟨c, k, e⟩ := State.supplied_writes s h p w r
  rw [e]
  rfl

theorem State.zone_supplied (s : State) (h : HeadId) (p : PlatenId) (w : Working) (r : PolishRecord) (g : HeadId) :
    (s.supplied h p w r).zone g = s.zone g := by
  obtain ⟨c, k, e⟩ := State.supplied_writes s h p w r
  rw [e]
  rfl

theorem State.seq_running {x : Activity} (polishes : s.polishing h = some (w, r, p)) :
    { s.seq h with activity := some x } = { s.seq h with activity := some x, state := .running } := by
  rw [← (State.polishing_iff.1 polishes).1]

/-! ## KEEPOUT_WAIT -/

theorem State.lines_armAwaited (s : State) (h : HeadId) (p : PlatenId) (w : Working) :
    (s.armAwaited h p w).lines = s.lines := by
  obtain ⟨c, k, x, e⟩ := State.refreshOuter_writes (s.setWorking h w.waitsForArm) p
  rw [State.armAwaited, e]
  rfl

/-- The arm stands beyond K: the step waits for it UP (R33). -/
theorem State.enterAcquire_awaits (polishes : s.polishing h = some (w, r, p)) (up : s.isDown h = false)
    (ready : s.lineReady p r.line) (free : s.IdleLinesFree)
    (beyond : (s.base p).config.keepOut < (s.cond p).position) :
    s.WentOn (s.enterAcquire h) h p (w.acquiring r (s.diskUsable p)).waitsForArm .running ∧
      (s.enterAcquire h).isDown h = false ∧ ∀ l, (s.enterAcquire h).line l = (s.supplied h p w r).line l := by
  obtain ⟨-, up', base, -⟩ := State.supplied_ready polishes up
  rw [State.enterAcquire_waits polishes up ready free beyond]
  refine ⟨⟨?_, ?_, ?_⟩, (State.isDown_armAwaited ..).trans up', fun l => ?_⟩
  · rw [State.seq_armAwaited, State.seq_supplied]
    exact State.seq_running polishes
  · rw [State.carrier_armAwaited, State.carrier_supplied]
  · rw [State.base_armAwaited, base]
  · exact congrArg (fun x => PerLine.get x l) (State.lines_armAwaited ..)

/-! ## GAP and POLISH -/

/-- The working record of a step whose head has just gone DOWN: a gap of 0 is over at once (R34, R35). -/
def Working.touched (w : Working) (r : PolishRecord) (lead : Nat) : Working :=
  { w.inGap r lead with
    phase := some (if (effectiveGap r lead w.keptLine).1 = 0 then .polish else .gap) }

/-- The zone set of a step whose head has just gone DOWN (R67, R69). -/
def PolishRecord.touchSet (r : PolishRecord) (gap : Nat) : ZoneSet := if gap = 0 then .polish r.zones else .gap r.gapPressure

/-- The head goes DOWN, its step into GAP or past a gap of 0 into POLISH (R33 to R35, R67). -/
theorem State.toKeepout_touches (polishes : s.polishing h = some (w, r, p)) (up : s.isDown h = false)
    (within : (s.cond p).position ≤ (s.base p).config.keepOut) (moving : (s.base p).stalled = false)
    (forward : (s.base p).direction = .forward) (clear : s.trip.tripped = false)
    (fresh : (effectiveGap r (s.base p).config.lead w.keptLine).1 = 0 → w.confirmed = none) :
    (s.toKeepout h).seq h = { s.seq h with activity := some (.step (w.touched r (s.base p).config.lead)) } ∧
      (s.toKeepout h).zone h =
        { s.zone h with
          lift := .down (r.touchSet (effectiveGap r (s.base p).config.lead w.keptLine).1)
            ⟨0, !(s.zone h).inBand.allTrue, false⟩ } ∧
      (s.toKeepout h).carrier h = s.carrier h := by
  by_cases short : (effectiveGap r (s.base p).config.lead w.keptLine).1 = 0
  · let t := (s.armAwaited h p w).lowered h p w.waitsForArm r
    have base : (s.armAwaited h p w).base p = s.base p := State.base_armAwaited ..
    have seq : t.seq h = { s.seq h with activity := some (.step (w.inGap r (s.base p).config.lead)) } := by
      rw [State.seq_lowered, State.seq_armAwaited, base, Working.inGap_waitsForArm]
    have zone : t.zone h = { s.zone h with lift := .down (.gap r.gapPressure) ⟨0, !(s.zone h).inBand.allTrue, false⟩ } := by
      rw [State.zone_lowered (by rw [State.trip_armAwaited]; exact clear), State.zone_armAwaited]
    have carrier : t.carrier h = s.carrier h := by rw [State.carrier_lowered, State.carrier_armAwaited]
    obtain ⟨running, -, stands, kind⟩ := State.polishing_iff.1 polishes
    have polishes' : t.polishing h = some (w.inGap r (s.base p).config.lead, r, p) :=
      State.polishing_iff.2 ⟨by rw [seq]; exact running, by rw [seq], by rw [carrier]; exact stands, kind⟩
    have aside := State.enterPolish_aside polishes'
    have pressed : (t.pressed h (w.inGap r (s.base p).config.lead) r).zone h =
        { t.zone h with lift := .down (.polish r.zones) ⟨0, !(s.zone h).inBand.allTrue, false⟩ } := by
      rw [State.pressed, State.setWorking, State.modSeq_eq, State.zone_setSeq, State.applySet, State.modZone_eq,
        State.zone_setZone_self, ZoneMonitor.applySet, zone]
    have touched : w.touched r (s.base p).config.lead =
        { w.inGap r (s.base p).config.lead with
          phase := some (if (w.inGap r (s.base p).config.lead).confirmed = none then .polish else .overpolish)
          gapRemaining := 0 } := by
      have fresh' : (w.inGap r (s.base p).config.lead).confirmed = none := fresh short
      rw [Working.touched, if_pos short, if_pos fresh', ← short]
      rfl
    rw [State.toKeepout_lowers polishes up within moving forward, if_pos short, aside.seq, aside.zone, aside.carrier,
      State.seq_pressed, pressed, touched, PolishRecord.touchSet, if_pos short]
    refine ⟨?_, ?_, carrier⟩
    · rw [seq]
    · rw [zone]
  · obtain ⟨seq, zone, carrier⟩ := State.toKeepout_gap polishes up within moving forward clear (Nat.pos_of_ne_zero short)
    have touched : w.touched r (s.base p).config.lead = w.inGap r (s.base p).config.lead := by
      rw [Working.touched, if_neg short]
      rfl
    rw [touched, PolishRecord.touchSet, if_neg short]
    exact ⟨seq, zone, carrier⟩

/-- A step that has its line, and the arm out of its way, goes DOWN (R32 to R34, R67). -/
theorem State.enterAcquire_touches (polishes : s.polishing h = some (w, r, p)) (up : s.isDown h = false)
    (ready : s.lineReady p r.line) (free : s.IdleLinesFree)
    (within : (s.cond p).position ≤ (s.base p).config.keepOut) (moving : (s.base p).stalled = false)
    (forward : (s.base p).direction = .forward) (clear : s.trip.tripped = false)
    (fresh : (effectiveGap r (s.base p).config.lead w.keptLine).1 = 0 → w.confirmed = none) :
    s.WentOn (s.enterAcquire h) h p ((w.acquiring r (s.diskUsable p)).touched r (s.base p).config.lead) .running ∧
      ((s.enterAcquire h).zone h).lift = .down (r.touchSet (effectiveGap r (s.base p).config.lead w.keptLine).1)
        ⟨0, !(s.zone h).inBand.allTrue, false⟩ ∧
      ∀ l, (s.enterAcquire h).line l = (s.supplied h p w r).line l := by
  obtain ⟨polishes', up', base, arm⟩ := State.supplied_ready polishes up
  have calm : (s.supplied h p w r).isDown h = false ∧
        ((s.supplied h p w r).base p).config.keepOut < ((s.supplied h p w r).cond p).position ∨
      ((s.supplied h p w r).base p).stalled = false ∧ ((s.supplied h p w r).base p).direction = .forward :=
    .inr (by rw [base]; exact ⟨moving, forward⟩)
  obtain ⟨seq, zone, carrier⟩ := State.toKeepout_touches polishes' up' (by rw [base, arm]; exact within)
    (by rw [base]; exact moving) (by rw [base]; exact forward) (by rw [State.trip_supplied]; exact clear)
    (by rw [base]; exact fresh)
  rw [base, State.seq_supplied] at seq
  rw [base, State.zone_supplied] at zone
  rw [State.enterAcquire_goes polishes up ready free (.inr ⟨moving, forward⟩)]
  refine ⟨⟨seq.trans (State.seq_running polishes), carrier.trans (State.carrier_supplied ..), ?_⟩,
    congrArg ZoneMonitor.lift zone, fun l => ?_⟩
  · rw [State.base, State.base_toKeepout polishes' calm]
    exact base
  · rw [State.line, State.lines_toKeepout polishes' calm]
    rfl

/-! ## The wait list of the line -/

theorem State.base_asked (s : State) (h : HeadId) (p : PlatenId) (w : Working) (r : PolishRecord) (j : PlatenId) :
    (s.asked h p w r).base j = s.base j := congrArg (fun x => PerPlaten.get x j) (State.bases_asked s h p w r)

theorem State.idleLinesFree_setLine {l : LineId} {x : Line} (free : s.IdleLinesFree) (quiet : x.state = .idle → x.wait = []) :
    (s.setLine l x).IdleLinesFree := fun k => by
  by_cases own : k = l
  · subst own
    rw [State.line_setLine_self]
    exact quiet
  · rw [State.line_setLine_ne _ _ own]
    exact free k

/-- The line feeds another nozzle or is FAULTED: the step waits UP for it (R32, R79). -/
theorem State.enterAcquire_waitsForLine {l : LineId} (polishes : s.polishing h = some (w, r, p)) (line : r.line = .line l)
    (other : (s.line l).feeds p = false) (up : s.isDown h = false)
    (busy : (∃ n g f, (s.line l).state = .bound n g f) ∨ (∃ x, (s.line l).state = .faulted x) ∧ w.resuming = false)
    (new : p ∉ (s.line l).wait) (free : s.IdleLinesFree) :
    s.WentOn (s.enterAcquire h) h p (w.acquiring r (s.diskUsable p)) .running ∧
      (s.enterAcquire h).isDown h = false ∧ (s.enterAcquire h).line l = { s.line l with wait := (s.line l).wait ++ [p] } ∧
      .lineWait h ∈ ((s.enterAcquire h).port .recipe).notices := by
  have joined : (s.line l).join p = { s.line l with wait := (s.line l).wait ++ [p] } := if_neg new
  have unfree : (s.line l).state ≠ .idle := by
    obtain ⟨n, g, f, bound⟩ | ⟨⟨x, faulted⟩, -⟩ := busy
    · rw [bound]; exact nofun
    · rw [faulted]; exact nofun
  have free' : ((s.asked h p w r).setLine l ((s.line l).join p)).IdleLinesFree :=
    State.idleLinesFree_setLine (fun k => by rw [State.line_asked]; exact free k) fun idle => by
      rw [joined] at idle
      exact absurd idle unfree
  have quiet : (((s.asked h p w r).setLine l ((s.line l).join p)).raise .recipe (.lineWait h)).IdleLinesFree := free'
  rw [State.enterAcquire_queues polishes line other up busy, State.handOnAll_of_free quiet]
  refine ⟨⟨?_, ?_, ?_⟩, ?_, ?_, State.notice_raise⟩
  · rw [State.seq_raise, State.seq_setLine, State.seq_asked]
    exact State.seq_running polishes
  · rw [State.carrier_raise, State.carrier_setLine, State.carrier_asked]
  · rw [State.base_raise, State.base_setLine, State.base_asked]
  · exact (State.isDown_asked ..).trans up
  · rw [State.line_raise, State.line_setLine_self, joined]

/-! ## The halt on a DISABLED line -/

theorem State.haltResumable_writes (s : State) (h : HeadId) (x : HaltReason) :
    ∃ o q z c k y, s.haltResumable h x =
      { s with stations := o, seqs := q, zones := z, conds := c, disks := k, ports := y } := by
  obtain ⟨z, c, k, y, lifted⟩ := (s.leaveWaits h).liftUp_writes h
  rw [State.haltResumable, lifted]
  exact ⟨_, _, _, _, _, _, rfl⟩

/-- The line is DISABLED: the head halts, and its step stays in ACQUIRE_LINE (R80). -/
theorem State.enterAcquire_halts {l : LineId} (polishes : s.polishing h = some (w, r, p)) (line : r.line = .line l)
    (disabled : (s.line l).state = .disabled) (free : s.IdleLinesFree) :
    s.WentOn (s.enterAcquire h) h p (w.acquiring r (s.diskUsable p)) (.halted .stationUnavailable none) ∧
      (s.enterAcquire h).isDown h = false ∧ (s.enterAcquire h).line l = s.line l ∧
      .halted h ∈ ((s.enterAcquire h).port .recipe).notices := by
  obtain ⟨c, withdrawn⟩ := (s.asked h p w r).withdraw_writes h
  obtain ⟨o, q, z, x, k, y, halted⟩ := ((s.asked h p w r).withdraw h).haltResumable_writes h .stationUnavailable
  have lines (j : LineId) : (((s.asked h p w r).withdraw h).haltResumable h .stationUnavailable).line j = s.line j := by
    rw [halted, withdrawn]
    exact State.line_asked ..
  have quiet : (((s.asked h p w r).withdraw h).haltResumable h .stationUnavailable).IdleLinesFree := fun j => by
    rw [lines]
    exact free j
  rw [State.enterAcquire_unavailable polishes line disabled, State.handOnAll_of_free quiet]
  refine ⟨⟨?_, ?_, ?_⟩, State.isDown_haltResumable .., lines l, State.notice_haltResumable ..⟩
  · rw [State.seq_haltResumable, (Aside.withdraw (h := h) _ h).seq, State.seq_asked,
      (State.polishing_iff.1 polishes).1]
    rfl
  · rw [State.carrier_haltResumable, (Aside.withdraw (h := h) _ h).carrier, State.carrier_asked]
  · rw [halted, withdrawn]
    exact State.base_asked ..

end

end Sys2Proof.Machine
end

section
/-! PROOFS. START (R27 to R33): O11. The steps that their guards skip come first, then the first step that is executed. -/
namespace Sys2Proof.Machine

/-! ## The steps that are skipped (R23) -/

/-- A head that RUNS a new list, with the results written so far (R27). -/
def State.begun (s : State) (h : HeadId) (rs : List ResultRecord) (a : Option Activity) : State :=
  s.setSeq h { s.seq h with results := rs, stack := [], lost := none, activity := a, state := .running }

section
variable {s : State} {h : HeadId}

theorem State.seq_begun (s : State) (h : HeadId) (rs : List ResultRecord) (a : Option Activity) :
    (s.begun h rs a).seq h =
      { s.seq h with results := rs, stack := [], lost := none, activity := a, state := .running } :=
  State.seq_setSeq_self ..

/-- A guard reads user flags, endpoint flags and the pad of the head's platen: no result and no head state (R22, R23). -/
theorem State.guardSkips_begun (s : State) (h : HeadId) (rs : List ResultRecord) (a : Option Activity) (g : Option Guard) :
    (s.begun h rs a).guardSkips h g = s.guardSkips h g := by
  have flags (f : FlagName) : (s.begun h rs a).flag h f = s.flag h f := by
    cases f with
    | padwarn => rfl
    | _ =>
      rw [State.flag, State.seq_begun]
      rfl
  cases g with
  | none => rfl
  | some g =>
    rw [State.guardSkips, State.guardSkips, flags]

theorem State.advance_skips {pre : List StepRecord} (skips : ∀ x ∈ pre, s.guardSkips h x.guard = true)
    (rest : List StepRecord) (i : Nat) (rs : List ResultRecord) (prev : Option StepLine) :
    State.advance h (pre ++ rest) i prev (s.begun h rs none) =
      State.advance h rest (i + pre.length) prev
        (s.begun h (rs ++ pre.mapIdx fun j x => skippedResult (i + j) x s.beat.counter) none) := by
  induction pre generalizing i rs with
  | nil => rw [List.mapIdx_nil, List.append_nil]; rfl
  | cons x pre ih =>
    have first : (s.begun h rs none).guardSkips h x.guard = true :=
      (State.guardSkips_begun ..).trans (skips x List.mem_cons_self)
    have written : (s.begun h rs none).modSeq h (fun q => { q with
        results := q.results ++ [skippedResult i x (s.begun h rs none).beat.counter] }) =
        s.begun h (rs ++ [skippedResult i x s.beat.counter]) none := by
      rw [State.modSeq_eq, State.seq_begun, State.begun, State.setSeq_setSeq]
      rfl
    have shifted : ∀ j, i + 1 + j = i + (j + 1) := fun j => by omega
    rw [List.cons_append, State.advance, if_pos first, written, ih fun y mem => skips y (List.mem_cons_of_mem _ mem)]
    rw [List.mapIdx_cons, List.length_cons, List.append_assoc, List.singleton_append]
    simp only [shifted, Nat.add_comm pre.length 1, Nat.add_zero]

/-- The results of the steps before the first step that is executed (R23, R40). -/
def skippedResults (pre : List StepRecord) (beat : Nat) : List ResultRecord :=
  pre.mapIdx fun i x => skippedResult i x beat

variable {b : List Byte} {pre rest : List StepRecord} {o : StationId}

theorem exec_start (opens : s.opens .recipe) (len : b.length = 1) (head : headOf (le8 b 0) = some h) :
    exec (.start .recipe b) s = .next (s.reply .recipe (s.start h)) := by
  have arm : exec (.start .recipe b) s = execStart .recipe b s := rfl
  rw [arm, execStart, State.takeRequest_recipe opens len, requireField_of head]

/-- START comes to the first step whose guard does not skip it (R27, R28). -/
theorem exec_start_advances (opens : s.opens .recipe) (len : b.length = 1) (head : headOf (le8 b 0) = some h)
    (idle : (s.seq h).state = .idle) (unclaimed : (s.seq h).claim = none) (clear : s.trip.tripped = false)
    (steps : (s.seq h).steps = pre ++ rest) (some : (s.seq h).steps ≠ [])
    (skips : ∀ x ∈ pre, s.guardSkips h x.guard = true) :
    exec (.start .recipe b) s = .next
      ((State.advance h rest pre.length none (s.begun h (skippedResults pre s.beat.counter) none)).accepted .recipe) := by
  have written : (!(s.seq h).steps.isEmpty) = true := by
    rw [Bool.not_eq_true', ← Bool.not_eq_true, List.isEmpty_iff]
    exact some
  have untripped : (!s.trip.tripped) = true := by rw [clear]; rfl
  have starts : s.startList h =
      State.advance h rest pre.length none (s.begun h (skippedResults pre s.beat.counter) none) := by
    have first := State.advance_skips skips rest 0 [] none
    simp only [Nat.zero_add, List.nil_append] at first
    rw [State.startList, steps]
    exact first
  rw [exec_start opens len head, State.start, require_of (decide_eq_true idle),
    require_of (by rw [unclaimed]; rfl), require_of untripped, State.reply_require_accept written, starts]

/-! ## The first step that is executed (R28 to R31) -/

variable {rec_ : StepRecord} {more : List StepRecord} {i : Nat} {rs : List ResultRecord}

/-- The first executed step of a list, its working record made (R28). -/
def State.taken (s : State) (h : HeadId) (rs : List ResultRecord) (i : Nat) (x : StepRecord) (o : StationId) : State :=
  s.begun h rs (some (.step (Working.fresh i x o s.beat.counter false)))

/-- What a step of the kind given does when it becomes current (R29 to R31). -/
def State.firstStep (t : State) (h : HeadId) (more : List StepRecord) (i : Nat) : StepKind → State
  | .dwell _ => t.refreshHere h
  | .polish r => t.polishChecks h r
  | .move d =>
    let a := (t.refreshHere h).acquire h d
    if a.2 = .alreadyHeld then State.advance h more (i + 1) none (a.1.closeStep h .completed) else a.1.moveAnswered h a.2

theorem State.advance_takes (stands : (s.carrier h).position = .stands o) (runs : s.guardSkips h rec_.guard = false) :
    State.advance h (rec_ :: more) i none (s.begun h rs none) =
      (s.taken h rs i rec_ o).firstStep h more i rec_.kind := by
  have fresh : rec_.continues none = false := by
    rw [StepRecord.continues]
    split <;> rfl
  have here : (s.begun h rs none).stationOf h = o := by
    show s.stationOf h = o
    rw [State.stationOf, stands]
  have takes : ((s.begun h rs none).leaveBehind h none (some rec_)).setWorking h
      (Working.fresh i rec_ ((s.begun h rs none).stationOf h) (s.begun h rs none).beat.counter (rec_.continues none)) =
      s.taken h rs i rec_ o := by
    rw [here, fresh, State.taken, State.begun, State.setWorking, State.leaveBehind, State.modSeq_eq, State.begun,
      State.setSeq_setSeq, State.seq_setSeq_self]
    rfl
  rw [State.advance, if_neg (by rw [State.guardSkips_begun, runs]; exact Bool.false_ne_true), takes]
  cases rec_.kind <;> rfl

theorem State.refreshHere_writes (s : State) (h : HeadId) : ∃ b, s.refreshHere h = { s with bases := b } := by
  unfold State.refreshHere
  split
  · exact ⟨_, rfl⟩
  · exact ⟨s.bases, rfl⟩

theorem State.seq_taken (s : State) (h : HeadId) (rs : List ResultRecord) (i : Nat) (x : StepRecord) (o : StationId) :
    (s.taken h rs i x o).seq h = { s.seq h with
      results := rs, stack := [], lost := none, state := .running
      activity := some (.step (Working.fresh i x o s.beat.counter false)) } := State.seq_begun ..

theorem State.current_taken (s : State) (h : HeadId) (rs : List ResultRecord) (i : Nat) (x : StepRecord) (o : StationId) :
    (s.taken h rs i x o).current h = some (Working.fresh i x o s.beat.counter false) := by
  rw [State.current, State.seq_taken]

/-- A MOVE to a free station is granted and sent (R4, R6, R29). -/
theorem State.advance_move {d : StationId} (stands : (s.carrier h).position = .stands o)
    (runs : s.guardSkips h rec_.guard = false) (kind : rec_.kind = .move d) (ne : d ≠ o) (op : s.closedTo d = false)
    (free : (s.station d).holder = none) (unkept : s.keptForRun d = false) (clear : s.trip.tripped = false) :
    let t := State.advance h (rec_ :: more) i none (s.begun h rs none)
    t.seq h = { s.seq h with
        results := rs, stack := [], lost := none, state := .running
        activity := some (.step { Working.fresh i rec_ o s.beat.counter false with phase := some .inTransit }) } ∧
      t.carrier h = { s.carrier h with
        position := .inTransit o d (.moving 0 (s.carrier h).moveLimit)
        moveNumber := (s.carrier h).moveNumber + 1
        sent := (s.carrier h).sent ++ [.move d ((s.carrier h).moveNumber + 1)] } ∧
      (t.station d).holder = some (.head h) := by
  obtain ⟨b, refreshed⟩ := (s.taken h rs i rec_ o).refreshHere_writes h
  intro t
  have steps : t =
      ((((s.taken h rs i rec_ o).refreshHere h).modStation d fun r => { r with holder := some (.head h) }).sendMove h o d).setWorking h
        { Working.fresh i rec_ o s.beat.counter false with phase := some .inTransit } := by
    have current : ((((s.taken h rs i rec_ o).refreshHere h).modStation d fun r =>
        { r with holder := some (.head h) }).sendMove h o d).current h =
        some (Working.fresh i rec_ o s.beat.counter false) := by
      rw [refreshed]
      exact State.current_taken ..
    have granted := State.acquire_granted (s := (s.taken h rs i rec_ o).refreshHere h) (h := h) (d := d) (o := o)
      (by rw [refreshed]; exact stands) (Ne.symm ne) (by rw [refreshed]; exact op) (by rw [refreshed]; exact free)
      (by rw [refreshed]; exact unkept)
    show State.advance h (rec_ :: more) i none (s.begun h rs none) = _
    rw [State.advance_takes stands runs, kind, State.firstStep]
    dsimp only
    rw [granted, if_neg nofun, State.moveAnswered, State.modWorking, current]
  rw [State.sendMove_clear (by rw [refreshed]; exact clear), refreshed] at steps
  refine ⟨?_, ?_, ?_⟩
  · rw [steps, State.setWorking, State.modSeq_eq, State.seq_setSeq_self, State.modCarrier_eq, State.seq_setCarrier,
      State.modStation_eq, State.seq_setStation]
    exact congrArg (fun q : Sequencer => { q with
      activity := some (.step { Working.fresh i rec_ o s.beat.counter false with phase := some .inTransit }) })
      (State.seq_taken s h rs i rec_ o)
  · rw [steps, State.setWorking, State.modSeq_eq, State.carrier_setSeq, State.modCarrier_eq, State.carrier_setCarrier_self]
    rfl
  · rw [steps]
    exact congrArg Station.holder (State.station_setStation_self ..)

/-! ## A POLISH step that comes first (R31, R58) -/

variable {k : PolishRecord} {p : PlatenId}

/-- A POLISH step away from a platen is refused (R31). -/
theorem State.advance_refusedPlace (stands : (s.carrier h).position = .stands o)
    (runs : s.guardSkips h rec_.guard = false) (kind : rec_.kind = .polish k) (away : ∀ p, o ≠ .platen p) :
    State.advance h (rec_ :: more) i none (s.begun h rs none) = (s.taken h rs i rec_ o).finalHalt h .refusedPlace := by
  have none : (s.taken h rs i rec_ o).platenOf h = none := by
    rw [Option.eq_none_iff_forall_ne_some]
    exact fun p platen => away p (Position.stands.inj (stands.symm.trans (State.platenOf_eq_some_iff.1 platen)))
  rw [State.advance_takes stands runs, kind, State.firstStep, State.polishChecks, none]

/-- The working record of a POLISH step that has its platen (R31). -/
def Working.placed (w : Working) (p : PlatenId) : Working := { w with platen := some p }

/-- The first executed step of a list, a POLISH step at its platen (R31). -/
def State.takenAt (s : State) (h : HeadId) (rs : List ResultRecord) (i : Nat) (x : StepRecord) (p : PlatenId) : State :=
  s.begun h rs (some (.step ((Working.fresh i x (.platen p) s.beat.counter false).placed p)))

theorem State.modWorking_taken (s : State) (h : HeadId) (rs : List ResultRecord) (i : Nat) (x : StepRecord) (p : PlatenId) :
    (s.taken h rs i x (.platen p)).modWorking h (fun w => w.placed p) = s.takenAt h rs i x p := by
  rw [State.modWorking, State.current_taken]
  dsimp only
  rw [State.setWorking, State.modSeq_eq, State.seq_taken, State.taken, State.begun, State.setSeq_setSeq]
  rfl

theorem State.seq_takenAt (s : State) (h : HeadId) (rs : List ResultRecord) (i : Nat) (x : StepRecord) (p : PlatenId) :
    (s.takenAt h rs i x p).seq h = { s.seq h with
      results := rs, stack := [], lost := none, state := .running
      activity := some (.step ((Working.fresh i x (.platen p) s.beat.counter false).placed p)) } := State.seq_begun ..

/-- A POLISH step without a wafer is refused (R31). -/
theorem State.advance_refusedNoWafer (stands : (s.carrier h).position = .stands (.platen p))
    (runs : s.guardSkips h rec_.guard = false) (kind : rec_.kind = .polish k) (empty : (s.seq h).vacuum = false) :
    State.advance h (rec_ :: more) i none (s.begun h rs none) =
      (s.takenAt h rs i rec_ p).finalHalt h .refusedNoWafer := by
  have platen : (s.taken h rs i rec_ (.platen p)).platenOf h = some p := State.platenOf_eq_some_iff.2 stands
  have vacuum : ((s.taken h rs i rec_ (.platen p)).seq h).vacuum = false := by rw [State.seq_taken]; exact empty
  rw [State.advance_takes stands runs, kind, State.firstStep, State.polishChecks, platen]
  dsimp only
  rw [vacuum, if_neg Bool.false_ne_true, ← State.modWorking_taken]
  rfl

/-- What a refused first step leaves: one more result, and a final halt (R26, R31, R40). -/
theorem State.refused_first {w : Working} {r : FinalReason} (current : s.current h = some w)
    (stands : (s.carrier h).position = .stands o) :
    ∃ x : ResultRecord, ((s.finalHalt h r).seq h).results = (s.seq h).results ++ [x] ∧ x.index = w.index ∧
      x.outcome = r.outcome ∧ x.platen = w.platen ∧ ((s.finalHalt h r).seq h).activity = none ∧
      (s.finalHalt h r).isDown h = false ∧ ((s.finalHalt h r).seq h).state = .halted (.final r) none := by
  obtain ⟨a, l, f, collected⟩ := s.collect_eq h w
  have result : s.stepResult h r.outcome = some ((s.collect h w).result r.outcome s.beat.counter) := by
    rw [State.stepResult, current]
  rw [State.seq_finalHalt, State.stopped, result, stands]
  exact ⟨_, rfl, by rw [collected]; rfl, rfl, by rw [collected]; rfl, rfl, State.isDown_finalHalt .., rfl⟩

/-- A POLISH step at its platen has taken the accumulator (R58). -/
def State.clocked (s : State) (h : HeadId) (rs : List ResultRecord) (i : Nat) (x : StepRecord) (p : PlatenId)
    (k : PolishRecord) : State :=
  (s.takenAt h rs i x p).setBase p ((s.base p).own h 0 k.limit k.clock)

/-- A POLISH step at a platen, its wafer there, enters ACQUIRE_LINE (R31, R32, R58). -/
theorem State.advance_polish (stands : (s.carrier h).position = .stands (.platen p))
    (runs : s.guardSkips h rec_.guard = false) (kind : rec_.kind = .polish k) (wafer : (s.seq h).vacuum = true) :
    State.advance h (rec_ :: more) i none (s.begun h rs none) = (s.clocked h rs i rec_ p k).enterAcquire h := by
  have platen : (s.taken h rs i rec_ (.platen p)).platenOf h = some p := State.platenOf_eq_some_iff.2 stands
  have vacuum : ((s.taken h rs i rec_ (.platen p)).seq h).vacuum = true := by rw [State.seq_taken]; exact wafer
  rw [State.advance_takes stands runs, kind, State.firstStep, State.polishChecks, platen]
  dsimp only
  have placed : (s.taken h rs i rec_ (.platen p)).modWorking h (fun w => { w with platen := some p }) =
      s.takenAt h rs i rec_ p := State.modWorking_taken ..
  rw [vacuum, if_pos rfl, placed]
  rfl

theorem State.seq_clocked (s : State) (h : HeadId) (rs : List ResultRecord) (i : Nat) (x : StepRecord) (p : PlatenId)
    (k : PolishRecord) :
    (s.clocked h rs i x p k).seq h = { s.seq h with
      results := rs, stack := [], lost := none, state := .running
      activity := some (.step ((Working.fresh i x (.platen p) s.beat.counter false).placed p)) } :=
  (State.seq_setBase ..).trans (State.seq_takenAt ..)

theorem State.base_clocked (s : State) (h : HeadId) (rs : List ResultRecord) (i : Nat) (x : StepRecord) (p : PlatenId)
    (k : PolishRecord) : (s.clocked h rs i x p k).base p = (s.base p).own h 0 k.limit k.clock := State.base_setBase_self ..

theorem State.polishing_clocked (stands : (s.carrier h).position = .stands (.platen p)) (kind : rec_.kind = .polish k) :
    (s.clocked h rs i rec_ p k).polishing h =
      some ((Working.fresh i rec_ (.platen p) s.beat.counter false).placed p, k, p) := by
  refine State.polishing_iff.2 ⟨?_, ?_, stands, kind⟩
  · rw [State.seq_clocked]
  · rw [State.seq_clocked]

/-- What a first POLISH step that has gone on leaves at its head and its platen (R27, R58). -/
theorem State.WentOn.of_clocked {t : State} {x : Working} {y : HeadState}
    (went : (s.clocked h rs i rec_ p k).WentOn t h p x y) :
    t.carrier h = s.carrier h ∧ (t.base p).accumulator = 0 ∧ (t.base p).owner = some ⟨h, k.limit, k.clock⟩ ∧
      t.seq h = { s.seq h with
        results := rs, stack := [], lost := none, state := y, activity := some (.step x) } := by
  refine ⟨went.carrier, ?_, ?_, ?_⟩
  · rw [went.base, State.base_clocked]
    rfl
  · rw [went.base, State.base_clocked]
    rfl
  · rw [went.seq, State.seq_clocked]

theorem effectiveGap_fresh (k : PolishRecord) (lead : Nat) :
    effectiveGap k lead false =
      (if (!decide (k.line = .none) && decide (k.gap < lead)) = true then lead else k.gap,
        !decide (k.line = .none) && decide (k.gap < lead)) := by
  rw [effectiveGap_eq]
  by_cases none : k.line = .none
  · simp [none]
  · by_cases long : k.gap < lead
    · simp [none, long, Nat.not_le.2 long]
    · simp [long, Nat.le_of_not_lt long]

end

/-- Settles O11: START writes the results of the skipped steps and takes the first step that no guard skips. -/
theorem startTakesTheFirstStep : Obligations.StartTakesTheFirstStep := by
  unfold Obligations.StartTakesTheFirstStep
  refine ⟨fun s b h o pre rest opens len head idle unclaimed clear stands steps written skips => ?starts,
    fun s b h opens len head => ⟨fun busy => ?busy, fun idle claimed => ?claimed, fun idle unclaimed tripped => ?tripped,
      fun idle unclaimed clear empty => ?empty⟩⟩
  case starts =>
    have starts := exec_start_advances opens len head idle unclaimed clear steps written skips
    intro done
    have done_eq : skippedResults pre s.beat.counter = done := by
      refine congrArg (fun f => pre.mapIdx f) (funext fun i => funext fun x => ?_)
      unfold skippedResult StepRecord.line
      cases x.kind <;> rfl
    rw [done_eq] at starts
    refine ⟨fun none => ?listDone, fun rec more first runs => ?first⟩
    case listDone =>
      subst none
      have ends : State.advance h [] pre.length none (s.begun h done none) = (s.begun h done none).enterIdle h := rfl
      rw [ends] at starts
      refine ⟨_, starts, State.response_accepted .., ?_, State.notice_accepted (State.notice_enterIdle ..), ?_⟩
      · rw [State.carrier_accepted]
        exact State.takeEnd_carrier (s.begun h done none) h .idle h
      · rw [State.seq_accepted]
        refine (State.seq_takeEnd (s.begun h done none) h .idle).trans ?_
        rw [State.seq_begun]
        rfl
    case first =>
      subst first
      intro w
      refine ⟨fun d kind ne op free unkept => ?moves, fun n kind => ?dwells, fun k kind wrong => ?refused,
        fun k p kind place wafer up free => ?polishes⟩
      case moves =>
        obtain ⟨seq, carrier, holder⟩ := State.advance_move (more := more) (i := pre.length) (rs := done) stands runs kind ne op free
          unkept clear
        exact ⟨_, starts, State.response_accepted .., (State.seq_accepted ..).trans seq,
          (State.carrier_accepted ..).trans carrier, (congrArg Station.holder (State.station_accepted ..)).trans holder⟩
      case dwells =>
        have takes : State.advance h (rec :: more) pre.length none (s.begun h done none) =
            (s.taken h done pre.length rec o).refreshHere h := by
          rw [State.advance_takes stands runs, kind, State.firstStep]
        obtain ⟨x, refreshed⟩ := (s.taken h done pre.length rec o).refreshHere_writes h
        rw [takes, refreshed] at starts
        exact ⟨_, starts, State.response_accepted .., State.carrier_accepted ..,
          (State.seq_accepted ..).trans (State.seq_taken s h done pre.length rec o)⟩
      case refused =>
        by_cases away : ∀ p, o ≠ .platen p
        · rw [State.advance_refusedPlace stands runs kind away] at starts
          obtain ⟨x, results, index, outcome, platen, stops, lifted, state⟩ :=
            State.refused_first (r := .refusedPlace) (State.current_taken s h done pre.length rec o) (o := o) stands
          rw [State.seq_taken] at results
          refine ⟨_, x, starts, State.response_accepted .., ?_, index, ?_, ?_, fun _ => ⟨outcome, platen, ?_⟩,
            fun p place => absurd place (away p)⟩
          · rw [State.seq_accepted, results]
          · rw [State.seq_accepted, stops]
          · rw [State.isDown_accepted, lifted]
          · rw [State.seq_accepted, state]
        · obtain ⟨p, place⟩ := not_forall_not.1 away
          subst place
          have empty : (s.seq h).vacuum = false := wrong.resolve_left away
          rw [State.advance_refusedNoWafer stands runs kind empty] at starts
          have current : (s.takenAt h done pre.length rec p).current h = some (w.placed p) := by
            rw [State.current, State.seq_takenAt]
          obtain ⟨x, results, index, outcome, platen, stops, lifted, state⟩ :=
            State.refused_first (r := .refusedNoWafer) current (o := .platen p) stands
          rw [State.seq_takenAt] at results
          refine ⟨_, x, starts, State.response_accepted .., ?_, index, ?_, ?_, fun k => absurd k away, fun j place =>
            ⟨outcome, ?_, ?_⟩⟩
          · rw [State.seq_accepted, results]
          · rw [State.seq_accepted, stops]
          · rw [State.isDown_accepted, lifted]
          · rw [platen, StationId.platen.inj place]
            rfl
          · rw [State.seq_accepted, state]
      case polishes =>
        subst place
        rw [State.advance_polish stands runs kind wafer] at starts
        intro v taken
        have polishes := State.polishing_clocked (i := pre.length) (rs := done) stands kind
        have reaches {x : Working} {y : HeadState}
            (went : (s.clocked h done pre.length rec p k).WentOn ((s.clocked h done pre.length rec p k).enterAcquire h) h p x y) :
            taken (((s.clocked h done pre.length rec p k).enterAcquire h).accepted .recipe) x y := by
          obtain ⟨carrier, accrued, owner, seq⟩ := went.of_clocked
          refine ⟨starts, State.response_accepted .., (State.carrier_accepted ..).trans carrier, ?_, ?_,
            (State.seq_accepted ..).trans seq⟩
          · rw [State.base_accepted, (SettleKept.settle _).accumulator]
            exact accrued
          · rw [State.base_accepted, (SettleKept.settle _).owner]
            exact owner
        refine ⟨fun supply => ?supplied, fun l line busy new => ?queued, fun l line disabled => ?disabled⟩
        case supplied =>
          have ready : (s.clocked h done pre.length rec p k).lineReady p k.line := by
            obtain line | line | ⟨l, line, free'⟩ := supply
            · rw [line]; trivial
            · rw [line]; trivial
            · rw [line]
              exact .inr ⟨free', free l free', clear⟩
          have bound (l : LineId) (line : k.line = .line l) :
              (((s.clocked h done pre.length rec p k).supplied h p (w.placed p) k).line l) =
                { s.line l with state := .bound p h k.flow } := by
            have idle : (s.line l).state = .idle := by
              obtain other | other | ⟨j, other, idle⟩ := supply
              · rw [line] at other; cases other
              · rw [line] at other; cases other
              · rw [line] at other
                cases other
                exact idle
            exact State.line_supplied (s := s.clocked h done pre.length rec p k) h p (w.placed p) line idle
          refine ⟨fun beyond => ?_, fun within moving forward => ?_⟩
          · obtain ⟨went, lifted, lines⟩ := State.enterAcquire_awaits polishes up ready free
              (by rw [State.base_clocked]; exact beyond)
            refine ⟨_, reaches went, (State.isDown_accepted ..).trans lifted, fun l line => ?_⟩
            rw [State.line_accepted, lines]
            exact bound l line
          · obtain ⟨went, zone, lines⟩ := State.enterAcquire_touches polishes up ready free
              (by rw [State.base_clocked]; exact within) (by rw [State.base_clocked]; exact moving)
              (by rw [State.base_clocked]; exact forward) clear fun _ => rfl
            intro long n
            have lead : ((s.clocked h done pre.length rec p k).base p).config.lead = (s.base p).config.lead := by
              rw [State.base_clocked]
              rfl
            have gap : effectiveGap k (s.base p).config.lead false = (n, long) := effectiveGap_fresh ..
            have touched : ((w.placed p).acquiring k ((s.clocked h done pre.length rec p k).diskUsable p)).touched k
                (s.base p).config.lead = { v with
                  phase := some (if n = 0 then .polish else .gap)
                  gapRemaining := n
                  flags := { v.flags with gapExtended := long } } := by
              have kept : ((w.placed p).acquiring k ((s.clocked h done pre.length rec p k).diskUsable p)).keptLine = false :=
                rfl
              rw [Working.touched, Working.inGap, kept, gap]
              rfl
            rw [lead, touched] at went
            rw [lead, show (w.placed p).keptLine = false from rfl, gap] at zone
            refine ⟨_, reaches went, ?_, fun l line => ?_⟩
            · rw [State.zone_accepted]
              exact zone
            · rw [State.line_accepted, lines]
              exact bound l line
        case queued =>
          have other : (s.line l).feeds p = false := by
            obtain ⟨n, x, f, bound, ne⟩ | ⟨x, faulted⟩ := busy
            · rw [Line.feeds, bound]
              exact decide_eq_false ne
            · rw [Line.feeds, faulted]
          obtain ⟨went, lifted, joined, notice⟩ := State.enterAcquire_waitsForLine polishes line other up
            (busy.imp (fun ⟨n, x, f, bound, _⟩ => ⟨n, x, f, bound⟩) fun faulted => ⟨faulted, rfl⟩) new free
          exact ⟨_, reaches went, (State.isDown_accepted ..).trans lifted, (State.line_accepted ..).trans joined,
            State.notice_accepted notice⟩
        case disabled =>
          obtain ⟨went, lifted, kept, notice⟩ := State.enterAcquire_halts polishes line disabled free
          exact ⟨_, reaches went, (State.isDown_accepted ..).trans lifted, (State.line_accepted ..).trans kept,
            State.notice_accepted notice⟩
  case busy =>
    rw [exec_start opens len head, State.start, State.reply_require_not (decide_eq_false busy)]
  case claimed =>
    rw [exec_start opens len head, State.start, require_of (decide_eq_true idle), State.reply_require_not (by
      rw [Option.isNone_eq_false_iff, Option.isSome_iff_ne_none]; exact claimed)]
  case tripped =>
    rw [exec_start opens len head, State.start, require_of (decide_eq_true idle), require_of (by rw [unclaimed]; rfl),
      State.reply_require_not (by rw [tripped]; rfl)]
  case empty =>
    rw [exec_start opens len head, State.start, require_of (decide_eq_true idle), require_of (by rw [unclaimed]; rfl),
      require_of (by rw [clear]; rfl), State.reply_require_not (by rw [empty]; rfl)]

end Sys2Proof.Machine
end

section
/-!
PROOFS. What the work of one head leaves of a station that another party holds or waits for (R3, R8): the wait list, the pad, the
run of the conditioner and the waiters themselves.
-/
namespace Sys2Proof.Machine

/-! ## Runs -/

/-- An ex-situ run that stands in both arms: held alike, its sweeps alike, and deploying where it deployed (R146). -/
structure RunKept (a b : Conditioner) : Prop where
  held : b.runHeld = a.runHeld
  sweeps : b.sweepsDone = a.sweepsDone
  arm : a.arm = .deploying .exSitu → b.arm = .deploying .exSitu

theorem RunKept.refl (a : Conditioner) : RunKept a a := ⟨rfl, rfl, id⟩

theorem RunKept.trans {a b c : Conditioner} (x : RunKept a b) (y : RunKept b c) : RunKept a c :=
  ⟨y.held.trans x.held, y.sweeps.trans x.sweeps, fun arm => y.arm (x.arm arm)⟩

theorem RunKept.stow {c : Conditioner} {j : HeadId} (mode : c.arm.mode = some (.inSitu j)) (g : PlatenConfig) :
    RunKept c (c.stow g) := by
  have other : c.arm ≠ .deploying .exSitu := fun arm => by rw [arm] at mode; cases mode
  unfold Conditioner.stow Conditioner.enter
  repeat' split
  all_goals exact ⟨rfl, rfl, fun arm => absurd arm other⟩

theorem RunKept.beginSweep (c : Conditioner) (g : PlatenConfig) (j : HeadId) : RunKept c (c.beginSweep g (.inSitu j)) := by
  unfold Conditioner.beginSweep Conditioner.enter
  repeat' split
  all_goals exact ⟨rfl, rfl, fun arm => by simp_all⟩

theorem RunKept.outer (c : Conditioner) (g : PlatenConfig) : RunKept c (c.decided g .outer) := ⟨rfl, rfl, id⟩

/-- The heads write neither a pad record nor a run of the conditioner (R7, R145, R156). -/
theorem Acts.run {W : HeadId → Prop} {D : StationId → Prop} {s t : State} (k : Acts W D s t) (p : PlatenId)
    (run : (s.station (.platen p)).holder = some .conditioner) :
    (t.station (.platen p)).holder = some .conditioner ∧ RunKept (s.cond p) (t.cond p) := by
  induction k with
  | refl s => exact ⟨run, .refl _⟩
  | trans _ _ first second =>
    obtain ⟨run', kept⟩ := first run
    obtain ⟨run'', kept'⟩ := second run'
    exact ⟨run'', kept.trans kept'⟩
  | @outer W D s j =>
    refine ⟨?_, ?_⟩
    · obtain ⟨c, k, r, refreshed⟩ := s.refreshOuter_writes j
      rw [refreshed]
      exact run
    · rw [State.cond_refreshOuter]
      split
      · next own =>
        subst own
        rw [State.outerWanted_noHead (State.headOn_eq_none fun g held => by rw [run] at held; cases held)]
        exact .outer ..
      · exact .refl _
  | @stow W D s j q mode =>
    refine ⟨run, ?_⟩
    rw [State.cond_setCond]
    split
    · next own => subst own; exact .stow mode _
    · exact .refl _
  | @sweep W D s j q stands =>
    refine ⟨run, ?_⟩
    rw [State.cond_setCond]
    split
    · next own => subst own; exact .beginSweep ..
    · exact .refl _
  | @leave W D s j w =>
    rw [State.station_leaveWaits]
    exact ⟨run, .refl _⟩
  | @take W D s d j asked free unowed =>
    have other : StationId.platen p ≠ d := fun own => by rw [own, free] at run; cases run
    rw [State.station_setStation_ne _ _ other]
    exact ⟨run, .refl _⟩
  | @join W D s d j asked =>
    rw [State.station_setStation]
    split
    · next own =>
      subst own
      refine ⟨?_, .refl _⟩
      unfold Station.join
      split <;> exact run
    · exact ⟨run, .refl _⟩
  | called _ _ acts => exact acts run
  | _ => exact ⟨run, .refl _⟩

theorem Acts.pads {W : HeadId → Prop} {D : StationId → Prop} {s t : State} (k : Acts W D s t) : t.pads = s.pads := by
  induction k with
  | trans _ _ first second => exact second.trans first
  | @outer W D s j =>
    obtain ⟨c, k, r, refreshed⟩ := s.refreshOuter_writes j
    rw [refreshed]
  | called _ _ acts => exact acts
  | _ => rfl

/-! ## Waiters -/

theorem Station.leave_stranger {r : Station} {h : HeadId} (stranger : h ∉ r.wait) : r.leave h = r := by
  have kept : r.wait.filter (fun g => !decide (g = h)) = r.wait :=
    List.filter_eq_self.2 fun g mem => by
      have ne : g ≠ h := fun own => stranger (own ▸ mem)
      simp [ne]
  rw [Station.leave, kept]

/-- A station that no head asks for, and whose waiters do not work, keeps its record, and they theirs (R3). -/
theorem Acts.waiters {W : HeadId → Prop} {D : StationId → Prop} {s t : State} (k : Acts W D s t) {o : StationId}
    {gs : List HeadId} (unasked : ¬D o) (still : ∀ g ∈ gs, ¬W g ∧ s.polishing g = none)
    (wait : ∀ g ∈ (s.station o).wait, g ∈ gs) :
    t.station o = s.station o ∧ ∀ g ∈ gs, Aside g s t := by
  induction k with
  | refl s => exact ⟨rfl, fun g _ => .refl g s⟩
  | trans _ _ first second =>
    obtain ⟨station, aside⟩ := first unasked still wait
    obtain ⟨station', aside'⟩ := second unasked
      (fun g mem => ⟨(still g mem).1, (aside g mem).polishing.trans (still g mem).2⟩) (by rw [station]; exact wait)
    exact ⟨station'.trans station, fun g mem => (aside g mem).trans (aside' g mem)⟩
  | @seq W D s j w x => exact ⟨rfl, fun g mem => .setSeq _ _ fun own => (still g mem).1 (own ▸ w)⟩
  | @zone W D s j w x => exact ⟨rfl, fun g mem => .setZone _ _ fun own => (still g mem).1 (own ▸ w)⟩
  | @carrier W D s j w x place => exact ⟨rfl, fun g mem => .setCarrier _ _ fun own => (still g mem).1 (own ▸ w)⟩
  | @outer W D s j =>
    obtain ⟨c, k, r, refreshed⟩ := s.refreshOuter_writes j
    rw [refreshed]
    exact ⟨rfl, fun g _ => {}⟩
  | @leave W D s j w =>
    refine ⟨?_, fun g _ => .leaveWaits ..⟩
    rw [State.station_leaveWaits]
    exact Station.leave_stranger fun mem => (still j (wait j mem)).1 w
  | @take W D s d j asked free unowed =>
    refine ⟨?_, fun g _ => {}⟩
    rw [State.station_setStation_ne _ _ fun own => unasked (by rw [own]; exact asked)]
  | @join W D s d j asked =>
    refine ⟨?_, fun g _ => {}⟩
    rw [State.station_setStation_ne _ _ fun own => unasked (by rw [own]; exact asked)]
  | @called W D s t j polishes acts ih =>
    refine ih unasked (fun g mem => ⟨?_, (still g mem).2⟩) wait
    rintro (w | rfl)
    · exact (still g mem).1 w
    · rw [(still g mem).2] at polishes
      cases polishes
  | _ => exact ⟨rfl, fun g _ => {}⟩

end Sys2Proof.Machine
end

section
/-!
PROOFS. The release of a station (R8): the hand-on to the oldest waiter, to an owed run or to nobody, and that later work of a
head leaves it as it is.
-/
namespace Sys2Proof.Machine

section
variable {s u t v : State} {o d : StationId} {p : PlatenId} {g h : HeadId}

/-! ## Handing on -/

/-- The station once its holder has left it (R8 step 1). -/
def State.leftAt (s : State) (o : StationId) : State := (s.accountRelease o).modStation o fun r => { r with holder := none }

theorem State.release_eq (s : State) (o : StationId) : s.release o = (s.leftAt o).handStation o := rfl

theorem State.accountRelease_writes (s : State) (o : StationId) : ∃ k, s.accountRelease o = { s with pads := k } := by
  unfold State.accountRelease
  split
  · exact ⟨_, rfl⟩
  · exact ⟨s.pads, rfl⟩

theorem State.leftAt_writes (s : State) (o : StationId) : ∃ k r, s.leftAt o = { s with pads := k, stations := r } := by
  obtain ⟨k, account⟩ := s.accountRelease_writes o
  rw [State.leftAt, account]
  exact ⟨k, _, rfl⟩

theorem State.station_leftAt (s : State) (o : StationId) : (s.leftAt o).station o = { s.station o with holder := none } := by
  rw [State.leftAt, State.modStation_eq, State.station_setStation_self, State.station_accountRelease]

theorem State.aside_leftAt (s : State) (o : StationId) (g : HeadId) : Aside g s (s.leftAt o) :=
  (Aside.accountRelease s o).trans (.modStation ..)

theorem State.pad_leftAt (s : State) (p : PlatenId) : (s.leftAt (.platen p)).pad p = s.padLeft p := by
  have same : (s.leftAt (.platen p)).pad p = (s.accountRelease (.platen p)).pad p := rfl
  rw [same]
  unfold State.accountRelease State.padLeft State.headOn
  cases holder : (s.station (.platen p)).holder with
  | none => rfl
  | some x =>
    cases x with
    | head j =>
      dsimp only
      rw [State.modPad_eq, State.pad_setPad_self, Pad.countWafer]
      simp only [Option.isSome_some, true_and]
      rfl
    | conditioner => rfl

/-- The oldest waiter is granted a station that nobody holds (R8 steps 3 and 5). -/
theorem State.granted_grantNext (station : v.station d = { s.station d with holder := none }) (trip : v.trip = s.trip)
    (aside : ∀ g ∈ (s.station d).wait, Aside g s v) : s.Granted (v.grantNext d) d := by
  have wait : (v.station d).wait = (s.station d).wait := by rw [station]
  refine ⟨fun empty => ?_, fun g rest oldest => ?_⟩
  · rw [State.grantNext_nil (wait.trans empty), station]
  · have own := aside g (by rw [oldest]; exact List.mem_cons_self)
    have here : v.stationOf g = s.stationOf g := by rw [State.stationOf, own.carrier, State.stationOf]
    have carrier : (v.grantNext d).carrier g = (s.carrier g).send s.trip.tripped (s.stationOf g) d := by
      rw [State.grantNext_cons (wait.trans oldest), State.carrier_setSeq, State.carrier_setCarrier_self, own.carrier, trip, here]
    have seq : (v.grantNext d).seq g = { s.seq g with activity := (s.seq g).activity.map Activity.granted } := by
      rw [State.grantNext_cons (wait.trans oldest), State.seq_setSeq_self, own.seq]
    refine ⟨?_, fun clear => ?_, fun tripped => ?_, fun w step => ?_, fun k cs x park => ?_⟩
    · rw [State.grantNext_cons (wait.trans oldest), State.station_setSeq, State.station_setCarrier,
        State.station_setStation_self, station]
    · rw [carrier, clear]
      rfl
    · rw [carrier, tripped]
      rfl
    · rw [seq, step]
      rfl
    · rw [seq, park]
      rfl

/-- The release of a station, stage by stage (R8). -/
theorem State.released_release (s : State) (o : StationId) : s.Released (s.release o) o := by
  have station := s.station_leftAt o
  obtain ⟨k, r, writes⟩ := s.leftAt_writes o
  have trip : (s.leftAt o).trip = s.trip := by rw [writes]
  have granted := State.granted_grantNext station trip fun g _ => s.aside_leftAt o g
  refine ⟨?_, fun p platen => ?_⟩
  · rintro (rfl | rfl)
    · exact granted
    · exact granted
  · subst platen
    have pad := s.pad_leftAt p
    have cond : (s.leftAt (.platen p)).cond p = s.cond p := by rw [writes]; rfl
    have disk : (s.leftAt (.platen p)).disk p = s.disk p := by rw [writes]; rfl
    rw [State.release_eq, State.handStation, pad]
    by_cases owed : 0 < (s.padLeft p).owed
    · rw [if_pos owed]
      by_cases claims : (s.leftAt (.platen p)).mayClaim p = true
      · obtain ⟨-, active, clear, free⟩ := State.mayClaim_iff.1 claims
        rw [disk] at active
        rw [trip] at clear
        rw [cond] at free
        obtain ⟨holder, held, sweeps, arm⟩ := (s.leftAt (.platen p)).startRun_effect p
        rw [station] at holder
        rw [cond] at arm
        rw [if_pos claims]
        refine ⟨pad, fun _ => ⟨fun _ _ _ => ⟨holder, held, sweeps, arm⟩, fun barred => ?_⟩,
          fun none => absurd none owed.ne', fun none => absurd none owed.ne'⟩
        rw [active, clear, free] at barred
        simp at barred
      · rw [if_neg claims]
        refine ⟨pad, fun _ => ⟨fun active clear free => absurd (State.mayClaim_iff.2 ?_) claims, fun _ => station⟩,
          fun none => absurd none owed.ne', fun none => absurd none owed.ne'⟩
        rw [pad, disk, trip, cond]
        exact ⟨owed, active, clear, free⟩
    · rw [if_neg owed]
      by_cases usable : (s.padLeft p).state.usable = true
      · rw [if_pos usable]
        refine ⟨(State.pad_grantNext p).trans pad, fun some => absurd some owed, fun _ _ => granted,
          fun _ unserviced unwarned => ?_⟩
        obtain inService | warn := PadState.usable_iff.1 usable
        · exact absurd inService unserviced
        · exact absurd warn unwarned
      · rw [if_neg usable]
        refine ⟨?_, fun some => absurd some owed, fun _ fit => absurd (PadState.usable_iff.2 fit) usable,
          fun _ _ _ => ⟨?_, fun g mem running => ?_⟩⟩
        · rw [State.dismissAll_eq, State.pad, State.pads_dismissed]
          exact pad
        · rw [State.station_dismissAll, station]
        · have open_ : ((s.leftAt (.platen p)).seq g).state.halt .stationUnavailable = .halted .stationUnavailable none := by
            rw [(s.aside_leftAt (.platen p) g).seq, running]
            rfl
          have mem' : g ∈ ((s.leftAt (.platen p)).station (.platen p)).wait := by rw [station]; exact mem
          rw [State.dismissAll_eq]
          exact ⟨(State.state_dismissed _ _ open_).1 mem', State.notice_dismissed _ _ mem'⟩

/-! ## What is left of a release by later work -/

/-- From u to t, station o, its pad, its run and the waiters that it had in s stand. -/
structure State.Keeps (s u t : State) (o : StationId) : Prop where
  station : t.station o = u.station o
  pads : t.pads = u.pads
  run : ∀ p, o = .platen p → (u.station o).holder = some .conditioner → RunKept (u.cond p) (t.cond p)
  aside : ∀ g ∈ (s.station o).wait, Aside g u t
  cascade : Cascade u t

theorem State.Keeps.trans (a : s.Keeps u t o) (b : s.Keeps t v o) : s.Keeps u v o where
  station := b.station.trans a.station
  pads := b.pads.trans a.pads
  run := fun p platen run => (a.run p platen run).trans (b.run p platen (by rw [a.station]; exact run))
  aside := fun g mem => (a.aside g mem).trans (b.aside g mem)
  cascade := a.cascade.trans b.cascade

theorem State.Keeps.settle (s u : State) (o : StationId) : s.Keeps u u.settle o where
  station := State.station_settle ..
  pads := (SettleKept.settle u).pads
  run := fun p platen run => by
    subst platen
    have free : u.headOn p = none := State.headOn_eq_none fun g held => by rw [run] at held; cases held
    rw [State.cond_settle_outer (State.outerWanted_noHead free)]
    exact ⟨rfl, rfl, id⟩
  aside := fun g _ => .settle u
  cascade := .settle u

theorem State.Keeps.raise (s u : State) (o : StationId) (q : Port) (n : Notice) : s.Keeps u (u.raise q n) o :=
  ⟨rfl, rfl, fun _ _ _ => .refl _, fun _ _ => .raise .., .raise ..⟩

/-- The grant seen from before, and through work that leaves the station and its waiters alone. -/
theorem State.Granted.keeps (k : s.Granted u o) (kept : s.Keeps u t o) : s.Granted t o := by
  obtain ⟨free, granted⟩ := k
  refine ⟨fun empty => kept.station.trans (free empty), fun g rest oldest => ?_⟩
  have given := granted g rest oldest
  have aside := kept.aside g (by rw [oldest]; exact List.mem_cons_self)
  rw [kept.station, aside.carrier, aside.seq]
  exact given

theorem State.Released.keeps (k : s.Released u o) (kept : s.Keeps u t o) : s.Released t o := by
  obtain ⟨early, platens⟩ := k
  refine ⟨fun place => (early place).keeps kept, fun p platen => ?_⟩
  obtain ⟨pad, owed, usable, gone⟩ := platens p platen
  refine ⟨(congrArg (PerPlaten.get · p) kept.pads).trans pad, fun some => ⟨fun active clear free => ?_, fun barred => ?_⟩,
    fun none fit => (usable none fit).keeps kept, fun none unserviced unwarned => ⟨?_, fun g mem running => ?_⟩⟩
  · obtain ⟨station, held, sweeps, arm⟩ := (owed some).1 active clear free
    have run := kept.run p platen (by rw [station])
    exact ⟨kept.station.trans station, run.held.trans held, run.sweeps.trans sweeps, fun stowed => run.arm (arm stowed)⟩
  · exact kept.station.trans ((owed some).2 barred)
  · exact kept.station.trans (gone none unserviced unwarned).1
  · obtain ⟨halted, notice⟩ := (gone none unserviced unwarned).2 g mem running
    exact ⟨(congrArg Sequencer.state (kept.aside g mem).seq).trans halted, kept.cascade.notice notice⟩

/-- The grant seen from a state before it in which only another head differs. -/
theorem State.Granted.before (k : v.Granted t o) (station : v.station o = s.station o) (trip : v.trip = s.trip)
    (aside : ∀ g ∈ (s.station o).wait, Aside g s v) : s.Granted t o := by
  obtain ⟨free, granted⟩ := k
  rw [station] at free granted
  refine ⟨free, fun g rest oldest => ?_⟩
  have own := aside g (by rw [oldest]; exact List.mem_cons_self)
  have here : v.stationOf g = s.stationOf g := by rw [State.stationOf, own.carrier, State.stationOf]
  have given := granted g rest oldest
  rw [trip, own.carrier, own.seq, here] at given
  exact given

/-- The release by a head whose carrier has just arrived elsewhere (R8, R12). -/
theorem State.Released.arrived {f : Carrier → Carrier} (k : (s.modCarrier h f).Released t o) (stranger : h ∉ (s.station o).wait) :
    s.Released t o := by
  have aside : ∀ g ∈ (s.station o).wait, Aside g s (s.modCarrier h f) := fun g mem =>
    .modCarrier _ _ fun own => stranger (own ▸ mem)
  obtain ⟨early, platens⟩ := k
  refine ⟨fun place => (early place).before rfl rfl aside, fun p platen => ?_⟩
  obtain ⟨pad, owed, usable, gone⟩ := platens p platen
  exact ⟨pad, owed, fun none fit => (usable none fit).before rfl rfl aside,
    fun none unserviced unwarned => gone none unserviced unwarned⟩

/-! ## What a release leaves alone -/

theorem State.dismiss_writes (s : State) (g : HeadId) :
    ∃ r q z c k y, s.dismiss g = { s with stations := r, seqs := q, zones := z, conds := c, disks := k, ports := y } := by
  have working (u : State) (f : Working → Working) : ∃ q, u.modWorking g f = { u with seqs := q } := by
    unfold State.modWorking
    split
    · exact ⟨_, rfl⟩
    · exact ⟨u.seqs, rfl⟩
  obtain ⟨q, worked⟩ := working (s.leaveWaits g) fun w => { w with phase := none }
  obtain ⟨r, q', z, c, k, y, halted⟩ := State.haltResumable_writes
    ((s.leaveWaits g).modWorking g fun w => { w with phase := none }) g .stationUnavailable
  refine ⟨r, q', z, c, k, y, ?_⟩
  rw [State.dismiss, State.haltRequest, halted, worked]
  rfl

theorem State.dismissed_writes (gs : List HeadId) (s : State) :
    ∃ r q z c k y, gs.foldl State.dismiss s =
      { s with stations := r, seqs := q, zones := z, conds := c, disks := k, ports := y } := by
  induction gs generalizing s with
  | nil => exact ⟨_, _, _, _, _, _, rfl⟩
  | cons g gs ih =>
    obtain ⟨r, q, z, c, k, y, first⟩ := s.dismiss_writes g
    obtain ⟨r', q', z', c', k', y', rest⟩ := ih (s.dismiss g)
    refine ⟨r', q', z', c', k', y', ?_⟩
    rw [List.foldl_cons, rest, first]

theorem State.grantNext_writes (s : State) (o : StationId) :
    ∃ r c q, s.grantNext o = { s with stations := r, carriers := c, seqs := q } := by
  unfold State.grantNext
  split
  · exact ⟨_, _, _, rfl⟩
  · exact ⟨_, _, _, rfl⟩

theorem State.handStation_writes (s : State) (o : StationId) :
    ∃ r c q z x k y, s.handStation o =
      { s with stations := r, carriers := c, seqs := q, zones := z, conds := x, disks := k, ports := y } := by
  unfold State.handStation
  split
  · split
    · split
      · exact ⟨_, _, _, _, _, _, _, rfl⟩
      · exact ⟨_, _, _, _, _, _, _, rfl⟩
    · split
      · obtain ⟨r, c, q, granted⟩ := s.grantNext_writes _
        exact ⟨r, c, q, _, _, _, _, granted⟩
      · obtain ⟨r, q, z, c, k, y, gone⟩ := State.dismissed_writes _ s
        exact ⟨r, _, q, z, c, k, y, gone⟩
  · obtain ⟨r, c, q, granted⟩ := s.grantNext_writes _
    exact ⟨r, c, q, _, _, _, _, granted⟩
  · obtain ⟨r, c, q, granted⟩ := s.grantNext_writes _
    exact ⟨r, c, q, _, _, _, _, granted⟩

/-- A release writes no timebase and no line. -/
theorem State.release_writes (s : State) (o : StationId) :
    ∃ j r c q z x k y, s.release o =
      { s with pads := j, stations := r, carriers := c, seqs := q, zones := z, conds := x, disks := k, ports := y } := by
  obtain ⟨j, r, left⟩ := s.leftAt_writes o
  obtain ⟨r', c, q, z, x, k, y, handed⟩ := (s.leftAt o).handStation_writes o
  refine ⟨j, r', c, q, z, x, k, y, ?_⟩
  rw [State.release_eq, handed, left]

theorem State.polishing_dismiss (still : s.polishing g = none) (j : HeadId) : (s.dismiss j).polishing g = none := by
  by_cases own : g = j
  · subst own
    refine State.polishing_none (.inl ?_)
    rw [State.isRunning, decide_eq_false_iff_not, State.state_dismiss, if_pos rfl]
    cases (s.seq g).state <;> exact nofun
  · exact (((Aside.leaveWaits (h := g) s j).trans (.haltRequest _ _ (Ne.symm own))).polishing).trans still

theorem State.polishing_dismissed (gs : List HeadId) (still : s.polishing g = none) :
    (gs.foldl State.dismiss s).polishing g = none := by
  induction gs generalizing s with
  | nil => exact still
  | cons j gs ih => exact ih (State.polishing_dismiss still j)

theorem State.polishing_grantNext (still : s.polishing g = none) (o : StationId) : (s.grantNext o).polishing g = none := by
  cases wait : (s.station o).wait with
  | nil => rw [State.grantNext_nil wait]; exact still
  | cons j rest =>
    by_cases own : g = j
    · subst own
      obtain ⟨st, transit⟩ := Carrier.send_transit (s.carrier g) s.trip.tripped (s.stationOf g) o
      refine State.polishing_of_transit (o := s.stationOf g) (e := o) (st := st) ?_
      rw [State.grantNext_cons wait, State.carrier_setSeq, State.carrier_setCarrier_self]
      exact transit
    · have aside : Aside g s (s.grantNext o) := by
        rw [State.grantNext_cons wait]
        exact ((Aside.modStation s o fun r => { r with holder := some (.head j), wait := rest }).trans (.setCarrier _ _ (Ne.symm own))).trans (.setSeq _ _ (Ne.symm own))
      exact aside.polishing.trans still

/-- No head comes to polish by a release (R8). -/
theorem State.polishing_release (still : s.polishing g = none) (o : StationId) : (s.release o).polishing g = none := by
  have left : (s.leftAt o).polishing g = none := (s.aside_leftAt o g).polishing.trans still
  rw [State.release_eq]
  unfold State.handStation
  split
  · split
    · split
      · exact (Aside.startRun (h := g) _ _).polishing.trans left
      · exact left
    · split
      · exact State.polishing_grantNext left _
      · exact State.polishing_dismissed _ left
  · exact State.polishing_grantNext left _
  · exact State.polishing_grantNext left _

end

end Sys2Proof.Machine
end

section
/-!
PROOFS. The arrival of a head (R8, R12): its carrier stands at the destination, the origin is released, and what the head goes on
with leaves that release as it is.
-/
namespace Sys2Proof.Machine

section
variable {s u t : State} {o d : StationId} {p : PlatenId} {g h : HeadId}

/-! ## The wait list after a release -/

theorem State.Granted.waits (k : s.Granted u o) : (u.station o).wait ⊆ (s.station o).wait := by
  obtain ⟨free, granted⟩ := k
  cases wait : (s.station o).wait with
  | nil => rw [free wait, wait]; exact List.Subset.refl _
  | cons g rest =>
    rw [(granted g rest wait).1]
    exact List.subset_cons_self ..

/-- Nobody comes to wait by a release (R8). -/
theorem State.Released.waits (k : s.Released u o) : (u.station o).wait ⊆ (s.station o).wait := by
  obtain ⟨early, platens⟩ := k
  cases o with
  | load => exact (early (.inl rfl)).waits
  | rinse => exact (early (.inr rfl)).waits
  | platen p =>
    obtain ⟨-, owed, usable, gone⟩ := platens p rfl
    by_cases some : 0 < (s.padLeft p).owed
    · by_cases claims : (s.disk p).state = .active ∧ s.trip.tripped = false ∧ (s.cond p).runHeld = false
      · obtain ⟨active, clear, free⟩ := claims
        rw [((owed some).1 active clear free).1]
        exact List.Subset.refl _
      · rw [(owed some).2 (by simpa only [not_and_or, Bool.not_eq_false] using claims)]
        exact List.Subset.refl _
    · have none : (s.padLeft p).owed = 0 := Nat.eq_zero_of_not_pos some
      by_cases fit : (s.padLeft p).state = .inService ∨ (s.padLeft p).state = .warn
      · exact (usable none fit).waits
      · rw [not_or] at fit
        rw [(gone none fit.1 fit.2).1]
        exact List.nil_subset _

/-! ## What later work leaves of a release -/

/-- The work of heads that leaves the station and its waiters alone leaves its release (R3, R8). -/
theorem State.Keeps.of_acts {W : HeadId → Prop} {D : StationId → Prop} (acts : Machine.Acts W D u t) (cascade : Cascade u t)
    (station : t.station o = u.station o) (aside : ∀ g ∈ (s.station o).wait, Aside g u t) : s.Keeps u t o where
  station := station
  pads := acts.pads
  run := fun p platen run => by
    subst platen
    exact (acts.run p run).2
  aside := aside
  cascade := cascade

/-- Heads that neither ask for a station nor wait at it leave its release, where no waiter polishes (R3, R29). -/
theorem State.Keeps.of_waiters {W : HeadId → Prop} {D : StationId → Prop} (acts : Machine.Acts W D u t) (cascade : Cascade u t)
    (unasked : ¬D o) (still : ∀ g ∈ (s.station o).wait, ¬W g ∧ u.polishing g = none)
    (waits : (u.station o).wait ⊆ (s.station o).wait) : s.Keeps u t o := by
  obtain ⟨station, aside⟩ := acts.waiters unasked still waits
  exact .of_acts acts cascade station aside

/-! ## The origin left -/

/-- The head stands at its destination, and the station it came from is released (R12). -/
def State.departed (s : State) (h : HeadId) (o d : StationId) : State :=
  (s.modCarrier h fun c => { c with position := .stands d }).release o

theorem State.departed_writes (s : State) (h : HeadId) (o d : StationId) :
    ∃ j r c q z x k y, s.departed h o d =
      { s with pads := j, stations := r, carriers := c, seqs := q, zones := z, conds := x, disks := k, ports := y } := by
  obtain ⟨j, r, c, q, z, x, k, y, writes⟩ := (s.modCarrier h fun c => { c with position := .stands d }).release_writes o
  refine ⟨j, r, c, q, z, x, k, y, ?_⟩
  rw [State.departed, writes]
  rfl

theorem State.base_departed (s : State) (h : HeadId) (o d : StationId) (p : PlatenId) :
    (s.departed h o d).base p = s.base p := by
  obtain ⟨j, r, c, q, z, x, k, y, writes⟩ := s.departed_writes h o d
  rw [writes]
  rfl

theorem State.line_departed (s : State) (h : HeadId) (o d : StationId) (l : LineId) :
    (s.departed h o d).line l = s.line l := by
  obtain ⟨j, r, c, q, z, x, k, y, writes⟩ := s.departed_writes h o d
  rw [writes]
  rfl

theorem State.trip_departed (s : State) (h : HeadId) (o d : StationId) : (s.departed h o d).trip = s.trip := by
  obtain ⟨j, r, c, q, z, x, k, y, writes⟩ := s.departed_writes h o d
  rw [writes]

theorem State.beat_departed (s : State) (h : HeadId) (o d : StationId) : (s.departed h o d).beat = s.beat := by
  obtain ⟨j, r, c, q, z, x, k, y, writes⟩ := s.departed_writes h o d
  rw [writes]

theorem State.armPosition_departed (s : State) (h : HeadId) (o d : StationId) (p : PlatenId) :
    ((s.departed h o d).cond p).position = (s.cond p).position :=
  ((Cascade.release (s.modCarrier h fun c => { c with position := .stands d }) o).arm p).position

theorem State.polishing_departed (still : s.polishing g = none) (ne : g ≠ h) : (s.departed h o d).polishing g = none :=
  State.polishing_release ((Aside.modCarrier s _ (Ne.symm ne)).polishing.trans still) o

section
variable (away : h ∉ (s.station o).wait)
include away

theorem State.aside_departed :
    Aside h (s.modCarrier h fun c => { c with position := .stands d }) (s.departed h o d) := .release _ o away

theorem State.seq_departed : (s.departed h o d).seq h = s.seq h := (State.aside_departed away).seq

theorem State.carrier_departed : (s.departed h o d).carrier h = { s.carrier h with position := .stands d } :=
  (State.aside_departed away).carrier.trans (State.carrier_setCarrier_self ..)

theorem State.isDown_departed : (s.departed h o d).isDown h = s.isDown h := (State.aside_departed away).isDown

theorem State.current_departed : (s.departed h o d).current h = s.current h := by
  rw [State.current, State.seq_departed away]
  rfl

theorem State.released_departed : s.Released (s.departed h o d) o := (State.released_release _ o).arrived away

/-- What the head goes on with leaves the release, and so does the settling at the end of the event. -/
theorem State.Keeps.released (k : s.Keeps (s.departed h o d) t o) : s.Released t.settle o :=
  (State.released_departed away).keeps (k.trans (.settle s t o))

end

/-! ## The disk of the platen at which the head arrives -/

/-- A head other than one in KEEPOUT_WAIT holds platen p, UP: the arm of p has all of its travel (R138). -/
def State.OuterHeld (s : State) (p : PlatenId) (h : HeadId) : Prop := s.headOn p = some h ∧ s.outerWanted p = .outer

theorem State.OuterHeld.congr (k : s.OuterHeld p h) (holder : (u.station (.platen p)).holder = (s.station (.platen p)).holder)
    (aside : Aside h s u) : u.OuterHeld p h := by
  obtain ⟨on, want⟩ := k
  have on' : u.headOn p = some h := State.headOn_eq_some_iff.2 (holder.trans (State.headOn_eq_some_iff.1 on))
  refine ⟨on', ?_⟩
  rw [State.outerWanted_head on] at want
  rw [State.outerWanted_head on', aside.isDown, State.current, aside.seq]
  exact want

theorem State.disk_refreshOuter_held (k : s.OuterHeld p h) (j : PlatenId) : (s.refreshOuter j).disk p = s.disk p := by
  rw [State.disk_refreshOuter, if_neg]
  rintro ⟨rfl, turns⟩
  rw [k.2] at turns
  exact Bool.noConfusion turns

theorem State.disk_liftUp_held (k : s.OuterHeld p h) (ne : g ≠ h) : (s.liftUp g).disk p = s.disk p := by
  have lifted : (s.modZone g fun z => { z with lift := .up }).OuterHeld p h := k.congr rfl (.modZone _ _ ne)
  unfold State.liftUp
  split
  · dsimp only
    split
    · exact State.disk_refreshOuter_held lifted _
    · rfl
  · rfl

theorem State.disk_dismiss (k : s.OuterHeld p h) (ne : g ≠ h) : (s.dismiss g).disk p = s.disk p := by
  have holder : ((s.leaveWaits g).station (.platen p)).holder = (s.station (.platen p)).holder := by
    rw [State.station_leaveWaits]
    rfl
  have held : (s.leaveWaits g).OuterHeld p h := k.congr holder (.leaveWaits ..)
  let v := (s.leaveWaits g).modWorking g fun w => { w with phase := none }
  have worked : v.OuterHeld p h := held.congr (by rw [State.station_modWorking]) (.modWorking _ _ ne)
  have left : (v.leaveWaits g).OuterHeld p h :=
    worked.congr (by rw [State.station_leaveWaits]; rfl) (.leaveWaits ..)
  have lifted : ((v.leaveWaits g).liftUp g).disk p = v.disk p := State.disk_liftUp_held left ne
  have disk : v.disk p = s.disk p := State.disk_modWorking ..
  rw [← disk, ← lifted, State.dismiss, State.haltRequest, State.haltResumable, State.disk_raise, State.modSeq_eq,
    State.disk_setSeq]

theorem State.disk_dismissed (k : s.OuterHeld p h) {gs : List HeadId} (away : h ∉ gs) :
    (gs.foldl State.dismiss s).disk p = s.disk p := by
  induction gs generalizing s with
  | nil => rfl
  | cons g gs ih =>
    rw [List.mem_cons, not_or] at away
    have ne : g ≠ h := Ne.symm away.1
    have next : (s.dismiss g).OuterHeld p h := k.congr (by rw [State.station_dismiss]; rfl)
      ((Aside.leaveWaits s g).trans (.haltRequest _ _ ne))
    exact (ih next away.2).trans (State.disk_dismiss k ne)

theorem State.disk_handStation (k : s.OuterHeld p h) (away : h ∉ (s.station o).wait) :
    (s.handStation o).disk p = s.disk p := by
  unfold State.handStation
  split
  · split
    · split
      · rfl
      · rfl
    · split
      · exact State.disk_grantNext p
      · exact State.disk_dismissed k away
  · exact State.disk_grantNext p
  · exact State.disk_grantNext p

/-- No disk of a platen that the arriving head holds UP counts a sweep by the release (R138, R140). -/
theorem State.disk_departed (held : (s.station (.platen p)).holder = some (.head h)) (want : s.outerWanted p = .outer)
    (other : o ≠ .platen p) (away : h ∉ (s.station o).wait) : (s.departed h o d).disk p = s.disk p := by
  have on : s.headOn p = some h := State.headOn_eq_some_iff.2 held
  let v := s.modCarrier h fun c => { c with position := .stands d }
  have moved : v.OuterHeld p h := by
    have same : v.outerWanted p = s.outerWanted p := by
      rw [State.outerWanted_head on, State.outerWanted_head (show v.headOn p = some h from on)]
      rfl
    exact ⟨on, same.trans want⟩
  obtain ⟨k, account⟩ := v.accountRelease_writes o
  have station : (v.leftAt o).station (.platen p) = v.station (.platen p) := by
    rw [State.leftAt, State.modStation_eq, State.station_setStation_ne _ _ (Ne.symm other), account]
    rfl
  have left : (v.leftAt o).OuterHeld p h := moved.congr (by rw [station]) (v.aside_leftAt o h)
  have wait : h ∉ ((v.leftAt o).station o).wait := by rw [State.station_leftAt]; exact away
  have disk : (v.leftAt o).disk p = s.disk p := by
    rw [State.leftAt, account]
    rfl
  rw [State.departed, State.release_eq, State.disk_handStation left wait, disk]

end

end Sys2Proof.Machine
end

section
/-!
PROOFS. MOVE_DONE (R10, R12): what the head goes on with at its destination, by its state and its activity.
-/
namespace Sys2Proof.Machine

section
variable {s u : State} {h : HeadId} {num : MoveNo} {o d : StationId} {st : MoveStatus} {w : Working} {r : PolishRecord}
  {p : PlatenId}

/-! ## The three ways of a completion -/

theorem exec_moveDone (current : num = (s.carrier h).moveNumber) :
    exec (.moveDone h num) s = .next (s.completeMove h).settle := congrArg Host.Outcome.next (if_pos current)

theorem exec_moveDone_other (other : num ≠ (s.carrier h).moveNumber) : exec (.moveDone h num) s = .next s :=
  congrArg Host.Outcome.next (if_neg other)

theorem State.completeMove_placed (placed : ∀ o d st, (s.carrier h).position ≠ .inTransit o d st) : s.completeMove h = s := by
  rw [State.completeMove]
  split
  · next transit => exact absurd transit (placed _ _ _)
  · rfl

theorem State.completeMove_moving {n l : Nat} (transit : (s.carrier h).position = .inTransit o d (.moving n l)) :
    s.completeMove h = (s.departed h o d).moveCompleted h true := by
  rw [State.completeMove, transit]
  rfl

/-- A CLOSING head takes its end state, whatever the status of its move (R12, R26). -/
theorem State.completeMove_closing {e : EndState} (transit : (s.carrier h).position = .inTransit o d st)
    (away : h ∉ (s.station o).wait) (closing : (s.seq h).state = .closing e) :
    s.completeMove h = (s.departed h o d).takeEnd h e := by
  have state : ((s.departed h o d).seq h).state = .closing e := by rw [State.seq_departed away, closing]
  rw [State.completeMove, transit]
  dsimp only
  rw [← State.departed, State.moveCompleted, state]

/-- A late completion leaves the activity as it is (R12). -/
theorem State.completeMove_late (transit : (s.carrier h).position = .inTransit o d st) (away : h ∉ (s.station o).wait)
    (open_ : ∀ e, (s.seq h).state ≠ .closing e) (late : ∀ n l, st ≠ .moving n l) :
    s.completeMove h = s.departed h o d := by
  have state : ((s.departed h o d).seq h).state = (s.seq h).state := by rw [State.seq_departed away]
  rw [State.completeMove, transit]
  dsimp only
  rw [← State.departed, State.moveCompleted, state]
  cases st with
  | moving n l => exact absurd rfl (late n l)
  | halted => cases phase : (s.seq h).state with
    | closing e => exact absurd phase (open_ e)
    | _ => rfl
  | deferred => cases phase : (s.seq h).state with
    | closing e => exact absurd phase (open_ e)
    | _ => rfl

theorem State.moveCompleted_running (running : (s.seq h).state = .running) : s.moveCompleted h true = s.continueMove h := by
  rw [State.moveCompleted, running]
  rfl

/-- A step whose move has arrived goes on at its station (R12, R123). -/
theorem State.completeMove_step {n l : Nat} (transit : (s.carrier h).position = .inTransit o d (.moving n l))
    (away : h ∉ (s.station o).wait) (running : (s.seq h).state = .running) (activity : (s.seq h).activity = some (.step w))
    (phase : w.phase = some .inTransit) (station : w.station = d) :
    s.completeMove h = (s.departed h o d).arrived h := by
  have current : (s.departed h o d).current h = some w := by
    rw [State.current_departed away, State.current, activity]
  rw [State.completeMove_moving transit, State.moveCompleted_running (by rw [State.seq_departed away]; exact running),
    State.continueMove, State.seq_departed away, activity]
  dsimp only
  rw [if_pos phase]
  exact State.askStation_here current (by rw [State.carrier_departed away, station])

/-- A PARK has arrived (R119). -/
theorem State.completeMove_park {n l : Nat} {cs : List Cause}
    (transit : (s.carrier h).position = .inTransit o .rinse (.moving n l)) (away : h ∉ (s.station o).wait)
    (running : (s.seq h).state = .running) (activity : (s.seq h).activity = some (.intervention .park cs (some .moving))) :
    s.completeMove h = (s.departed h o .rinse).setPark h .atRinse := by
  have stands : (s.departed h o .rinse).stands? h = some .rinse :=
    State.stands?_eq_some_iff.2 (by rw [State.carrier_departed away])
  rw [State.completeMove_moving transit, State.moveCompleted_running (by rw [State.seq_departed away]; exact running),
    State.continueMove, State.seq_departed away, activity]
  dsimp only
  rw [if_pos stands]

/-! ## A CLOSING head, a late completion, a PARK and a DWELL -/

theorem moveDone_closing {e : EndState} (current : num = (s.carrier h).moveNumber)
    (transit : (s.carrier h).position = .inTransit o d st) (away : h ∉ (s.station o).wait)
    (closing : (s.seq h).state = .closing e) :
    ∃ t, exec (.moveDone h num) s = .next t ∧ t.carrier h = { s.carrier h with position := .stands d } ∧
      t.seq h = { s.seq h with state := e.head } ∧
      (e = .idle → .listDone h ∈ (t.port .recipe).notices) ∧
      (∀ r, e = .halted r → .halted h ∈ (t.port .recipe).notices) ∧
      s.Released t o := by
  have ends := State.completeMove_closing transit away closing
  let v := (s.departed h o d).takeEnd h e
  have seq : v.seq h = { s.seq h with state := e.head } := by rw [State.seq_takeEnd, State.seq_departed away]
  have keeps : s.Keeps (s.departed h o d) v o :=
    .of_acts (.takeEnd (W := (· = h)) (D := fun _ => False) rfl _ e) (.takeEnd ..)
      (by
        obtain ⟨q, x, writes⟩ := (s.departed h o d).takeEnd_writes h e
        exact (congrArg (State.station · o) writes).trans rfl)
      fun g mem => .takeEnd _ h (fun own => away (own ▸ mem)) e
  refine ⟨v.settle, (exec_moveDone current).trans (by rw [ends]), ?_, ?_, ?_, ?_, keeps.released away⟩
  · rw [State.carrier_settle, State.takeEnd_carrier, State.carrier_departed away]
  · rw [State.seq_settle, seq]
  · rintro rfl
    exact State.notice_settle (State.notice_enterIdle ..)
  · rintro r rfl
    exact State.notice_settle (State.notice_takeEnd_halted ..)

theorem moveDone_late (current : num = (s.carrier h).moveNumber)
    (transit : (s.carrier h).position = .inTransit o d st) (away : h ∉ (s.station o).wait)
    (open_ : ∀ e, (s.seq h).state ≠ .closing e) (late : ∀ n l, st ≠ .moving n l) :
    ∃ t, exec (.moveDone h num) s = .next t ∧ t.carrier h = { s.carrier h with position := .stands d } ∧
      t.seq h = s.seq h ∧ s.Released t o := by
  refine ⟨(s.departed h o d).settle, (exec_moveDone current).trans
    (by rw [State.completeMove_late transit away open_ late]), ?_, ?_, (State.released_departed away).keeps (.settle ..)⟩
  · rw [State.carrier_settle, State.carrier_departed away]
  · rw [State.seq_settle, State.seq_departed away]

theorem moveDone_park {n l : Nat} {cs : List Cause} (current : num = (s.carrier h).moveNumber)
    (transit : (s.carrier h).position = .inTransit o .rinse (.moving n l)) (away : h ∉ (s.station o).wait)
    (running : (s.seq h).state = .running) (activity : (s.seq h).activity = some (.intervention .park cs (some .moving))) :
    ∃ t, exec (.moveDone h num) s = .next t ∧ t.carrier h = { s.carrier h with position := .stands .rinse } ∧
      t.seq h = { s.seq h with activity := some (.intervention .park cs (some .atRinse)) } ∧ s.Released t o := by
  let v := (s.departed h o .rinse).setPark h .atRinse
  have keeps : s.Keeps (s.departed h o .rinse) v o :=
    .of_acts (.setPark (W := (· = h)) (D := fun _ => False) rfl _ _) (.setPark ..) rfl
      fun g mem => .setPark _ _ fun own => away (own ▸ mem)
  refine ⟨v.settle, (exec_moveDone current).trans (by rw [State.completeMove_park transit away running activity]), ?_, ?_,
    keeps.released away⟩
  · rw [State.carrier_settle]
    exact State.carrier_departed away
  · have set : v.seq h = _ := State.seq_setSeq_self ..
    rw [State.seq_settle, set, State.seq_departed away]
    dsimp only
    rw [activity]
    rfl

theorem moveDone_dwell {n l k : Nat} (current : num = (s.carrier h).moveNumber)
    (transit : (s.carrier h).position = .inTransit o d (.moving n l)) (away : h ∉ (s.station o).wait)
    (running : (s.seq h).state = .running) (activity : (s.seq h).activity = some (.step w))
    (phase : w.phase = some .inTransit) (kind : w.record.kind = .dwell k) (station : w.station = d) :
    ∃ t, exec (.moveDone h num) s = .next t ∧ t.carrier h = { s.carrier h with position := .stands d } ∧
      t.seq h = { s.seq h with activity := some (.step { w with phase := some .dwell, resume := none }) } ∧
      s.Released t o := by
  have step : (s.departed h o d).current h = some w := by
    rw [State.current_departed away, State.current, activity]
  let v := (s.departed h o d).setWorking h { w with phase := some .dwell, resume := none }
  have keeps : s.Keeps (s.departed h o d) v o :=
    .of_acts (.setWorking (W := (· = h)) (D := fun _ => False) rfl _ _) (.setWorking ..) rfl
      fun g mem => .setWorking _ _ fun own => away (own ▸ mem)
  refine ⟨v.settle, (exec_moveDone current).trans ?_, ?_, ?_, keeps.released away⟩
  · rw [State.completeMove_step transit away running activity phase station, State.arrived_dwell step kind]
  · rw [State.carrier_settle]
    exact State.carrier_departed away
  · have set : v.seq h = _ := State.seq_setSeq_self ..
    rw [State.seq_settle, set, State.seq_departed away]

/-! ## A MOVE step -/

theorem State.arrived_move (current : s.current h = some w) (kind : w.record.kind = .move d) :
    s.arrived h = s.finishStep h .completed := by
  rw [State.arrived, current]
  dsimp only
  rw [kind]

/-- A MOVE step that completes leaves a station that no later step of its list asks for (R38, R39). -/
theorem State.keeps_finishStep (current : u.current h = some w)
    (unasked : ∀ x ∈ (u.seq h).steps.drop (w.index + 1), x.kind ≠ .move o)
    (still : ∀ g ∈ (s.station o).wait, g ≠ h ∧ u.polishing g = none)
    (waits : (u.station o).wait ⊆ (s.station o).wait) : s.Keeps u (u.finishStep h .completed) o := by
  let D : StationId → Prop := fun d => ∃ x ∈ (u.seq h).steps.drop (w.index + 1), x.kind = .move d
  have acts : Machine.Acts (· = h) D u (u.finishStep h .completed) := by
    rw [State.finishStep_eq current]
    exact (Acts.closeStep (W := (· = h)) (D := D) (h := h) rfl u _).trans
      (.advance (W := (· = h)) (D := D) rfl _ _ (fun x mem d kind => ⟨x, mem, kind⟩) _ _)
  exact .of_waiters acts (.finishStep ..) (fun ⟨x, mem, kind⟩ => unasked x mem kind) still waits

theorem moveDone_move {n l : Nat} (current : num = (s.carrier h).moveNumber)
    (transit : (s.carrier h).position = .inTransit o d (.moving n l)) (away : h ∉ (s.station o).wait)
    (running : (s.seq h).state = .running) (activity : (s.seq h).activity = some (.step w))
    (phase : w.phase = some .inTransit) (kind : w.record.kind = .move d) (station : w.station = d) :
    ∃ t r, exec (.moveDone h num) s = .next t ∧ (s.seq h).results ++ [r] <+: (t.seq h).results ∧
      r.index = w.index ∧ r.outcome = .completed ∧ r.endBeat = s.beat.counter ∧
      ((s.seq h).steps.length ≤ w.index + 1 →
        t.carrier h = { s.carrier h with position := .stands d } ∧ .listDone h ∈ (t.port .recipe).notices ∧
        t.seq h = { (s.seq h).applyAction w.record.action with
          results := (s.seq h).results ++ [r], activity := none, state := .idle }) ∧
      ((∀ x ∈ (s.seq h).steps.drop (w.index + 1), x.kind ≠ .move o) →
        (∀ g ∈ (s.station o).wait, s.polishing g = none) → s.Released t o) := by
  let u := s.departed h o d
  have step : u.current h = some w := by
    rw [State.current_departed away, State.current, activity]
  have seq : u.seq h = s.seq h := State.seq_departed away
  have results := State.results_finishStep step .completed
  obtain ⟨a, limit, f, collect⟩ := u.collect_eq h w
  have beat : u.beat = s.beat := State.beat_departed ..
  rw [seq, beat] at results
  refine ⟨(u.finishStep h .completed).settle, (u.collect h w).result .completed s.beat.counter, ?_, ?_, ?_, rfl, rfl,
    fun last => ?_, fun unasked idle => ?_⟩
  · rw [exec_moveDone current, State.completeMove_step transit away running activity phase station,
      State.arrived_move step kind]
  · rw [State.seq_settle]
    exact results
  · rw [collect]
    rfl
  · have plain : w.polish? = none := by rw [Working.polish?, kind]
    have ends : u.finishStep h .completed = (u.closeStep h .completed).takeEnd h .idle := by
      rw [State.finishStep_last step (by rw [seq]; exact last), plain]
      rfl
    rw [ends]
    refine ⟨?_, State.notice_settle (State.notice_enterIdle ..), ?_⟩
    · rw [State.carrier_settle, State.takeEnd_carrier, State.carrier_closeStep, State.carrier_departed away]
    · rw [State.seq_settle, State.seq_takeEnd, State.seq_closeStep step, seq, beat]
      rfl
  · refine (State.keeps_finishStep (s := s) step (by rw [seq]; exact unasked) (fun g mem => ?_)
      (State.released_departed away).waits).released away
    have ne : g ≠ h := fun own => away (own ▸ mem)
    exact ⟨ne, State.polishing_departed (idle g mem) ne⟩

/-! ## A POLISH step moved back -/

/-- A step that goes on by the arm with its line writes no station, and its own head alone. -/
theorem State.seated_goes (polishes : s.polishing h = some (w, r, p)) (up : s.isDown h = false)
    (ready : s.lineReady p r.line) (free : s.IdleLinesFree)
    (calm : (s.base p).config.keepOut < (s.cond p).position ∨
      (s.base p).stalled = false ∧ (s.base p).direction = .forward) :
    (s.enterAcquire h).stations = s.stations ∧ ∀ g, h ≠ g → Aside g s (s.enterAcquire h) := by
  obtain ⟨polishes', up', base, arm⟩ := State.supplied_ready polishes up
  obtain ⟨q, z, x, c, k, y, gone⟩ := State.toKeepout_writes polishes'
    (by rw [base, arm]; exact calm.imp_left fun beyond => ⟨up', beyond⟩)
  obtain ⟨c', k', taken⟩ := State.supplied_writes s h p w r
  rw [State.enterAcquire_goes polishes up ready free calm]
  refine ⟨?_, fun g ne => (State.aside_supplied s p w r ne).trans (.toKeepout _ ne)⟩
  rw [gone, taken]
  rfl

/-- A step that waits for its line writes no station, and its own head alone. -/
theorem State.seated_queues {l : LineId} (polishes : s.polishing h = some (w, r, p)) (line : r.line = .line l)
    (other : (s.line l).feeds p = false) (up : s.isDown h = false)
    (bound : ∃ n g f, (s.line l).state = .bound n g f) (free : s.IdleLinesFree) :
    (s.enterAcquire h).stations = s.stations ∧ ∀ g, h ≠ g → Aside g s (s.enterAcquire h) := by
  let v := ((s.asked h p w r).setLine l ((s.line l).join p)).raise .recipe (.lineWait h)
  have unfree : ((s.line l).join p).state ≠ .idle := by
    obtain ⟨n, g, f, bound⟩ := bound
    rw [Line.join]
    split
    · rw [bound]; exact nofun
    · rw [bound]; exact nofun
  have quiet : v.IdleLinesFree :=
    State.idleLinesFree_setLine (s := s.asked h p w r) (fun k => by rw [State.line_asked]; exact free k)
      fun idle => absurd idle unfree
  have queued : s.enterAcquire h = v := by
    rw [State.enterAcquire_queues polishes line other up (.inl bound), State.handOnAll_of_free quiet]
  obtain ⟨c, asked⟩ := State.asked_writes s h p w r
  rw [queued]
  refine ⟨?_, fun g ne => (State.aside_asked s p w r ne).trans {}⟩
  show (s.asked h p w r).stations = _
  rw [asked]
  rfl

/-- A head UP whose move takes a POLISH step back to the platen it holds (R123). -/
structure State.MovesBack (s : State) (h : HeadId) (num : MoveNo) (o : StationId) (w : Working) (r : PolishRecord)
    (p : PlatenId) : Prop where
  current : num = (s.carrier h).moveNumber
  transit : ∃ n l, (s.carrier h).position = .inTransit o (.platen p) (.moving n l)
  away : h ∉ (s.station o).wait
  running : (s.seq h).state = .running
  activity : (s.seq h).activity = some (.step w)
  phase : w.phase = some .inTransit
  kind : w.record.kind = .polish r
  station : w.station = .platen p
  platen : w.platen = some p
  other : o ≠ .platen p
  held : (s.station (.platen p)).holder = some (.head h)
  up : s.isDown h = false
  free : s.IdleLinesFree

/-- A step that takes its clock back at its platen. -/
def State.returned (s : State) (h : HeadId) (o : StationId) (w : Working) (r : PolishRecord) (p : PlatenId) : State :=
  (s.departed h o (.platen p)).reowned h p w r

/-- The working record of the step as it asks for its line, its sweep asked for where the disk is ACTIVE (R32, R142). -/
def State.asking (s : State) (w : Working) (r : PolishRecord) (p : PlatenId) : Working :=
  { w with
    resume := none
    flags := { w.flags with noInsitu := w.flags.noInsitu || (r.inSitu && !decide ((s.disk p).state = .active)) } }

theorem State.base_returned (s : State) (h : HeadId) (o : StationId) (w : Working) (r : PolishRecord) (p : PlatenId) :
    (s.returned h o w r p).base p = (s.base p).own h w.accrued w.limit r.clock := by
  rw [State.returned, State.reowned, State.base_setBase_self, State.base_departed]

namespace State.MovesBack

variable (k : s.MovesBack h num o w r p)
include k

theorem arrives : s.completeMove h = (s.departed h o (.platen p)).arrived h := by
  obtain ⟨n, l, transit⟩ := k.transit
  exact State.completeMove_step transit k.away k.running k.activity k.phase k.station

theorem step : (s.departed h o (.platen p)).current h = some w := by
  rw [State.current_departed k.away, State.current, k.activity]

theorem seq : (s.returned h o w r p).seq h = s.seq h := State.seq_departed k.away

theorem carrier : (s.returned h o w r p).carrier h = { s.carrier h with position := .stands (.platen p) } :=
  State.carrier_departed k.away

theorem polishes : (s.returned h o w r p).polishing h = some (w, r, p) :=
  State.polishing_iff.2 ⟨by rw [k.seq]; exact k.running, by rw [k.seq]; exact k.activity, by rw [k.carrier], k.kind⟩

theorem isDown : (s.returned h o w r p).isDown h = false := (State.isDown_departed k.away).trans k.up

theorem linesFree : (s.returned h o w r p).IdleLinesFree := fun l => by
  have line : (s.returned h o w r p).line l = s.line l := State.line_departed ..
  rw [line]
  exact k.free l

theorem outer : s.outerWanted p = .outer := by
  have current : s.current h = some w := by rw [State.current, k.activity]
  rw [State.outerWanted_head (State.headOn_eq_some_iff.2 k.held), k.up, current]
  dsimp only
  rw [k.phase]
  simp

theorem usable : (s.returned h o w r p).diskUsable p = decide ((s.disk p).state = .active) := by
  have disk : (s.returned h o w r p).disk p = s.disk p := State.disk_departed k.held k.outer k.other k.away
  rw [State.diskUsable, disk]

theorem acquiring : w.acquiring r ((s.returned h o w r p).diskUsable p) =
    { s.asking w r p with phase := some .acquireLine } := by
  rw [k.usable]
  rfl

/-- The step goes on from the line it asks for, and its head has left its origin for good. -/
theorem goesOn {x : Working} (vacuum : (s.seq h).vacuum = true)
    (went : (s.returned h o w r p).WentOn ((s.returned h o w r p).enterAcquire h) h p x .running)
    (seated : ((s.returned h o w r p).enterAcquire h).stations = (s.returned h o w r p).stations ∧
      ∀ g, h ≠ g → Aside g (s.returned h o w r p) ((s.returned h o w r p).enterAcquire h)) :
    let t := ((s.returned h o w r p).enterAcquire h).settle
    exec (.moveDone h num) s = .next t ∧ t.carrier h = { s.carrier h with position := .stands (.platen p) } ∧
      (t.base p).accumulator = w.accrued ∧ (t.base p).owner = some ⟨h, w.limit, r.clock⟩ ∧
      t.seq h = { s.seq h with activity := some (.step x) } ∧ s.Released t o := by
  obtain ⟨stations, aside⟩ := seated
  have arrived : (s.departed h o (.platen p)).arrived h = (s.returned h o w r p).enterAcquire h :=
    State.arrived_polish k.step k.kind k.platen (by rw [State.seq_departed k.away]; exact vacuum)
  have keeps : s.Keeps (s.departed h o (.platen p)) ((s.returned h o w r p).enterAcquire h) o := by
    refine .of_acts (W := (· = h)) (D := fun _ => True) (by rw [← arrived]; exact .arrived (W := (· = h)) rfl _)
      (by rw [← arrived]; exact .arrived ..) (congrArg (PerStation.get · o) stations) fun g mem => ?_
    have ne : h ≠ g := fun own => k.away (own ▸ mem)
    have left : Aside g (s.departed h o (.platen p)) (s.returned h o w r p) := {}
    exact left.trans (aside g ne)
  have kept := SettleKept.settle ((s.returned h o w r p).enterAcquire h)
  refine ⟨by rw [exec_moveDone k.current, k.arrives, arrived], ?_, ?_, ?_, ?_, keeps.released k.away⟩
  · rw [State.carrier_settle, went.carrier, k.carrier]
  · rw [kept.accumulator, went.base, State.base_returned]
    rfl
  · rw [kept.owner, went.base, State.base_returned]
    rfl
  · rw [State.seq_settle, went.seq, k.seq, ← k.running]

/-- The arm stands beyond K: the step waits for it, UP (R33). -/
theorem awaits (vacuum : (s.seq h).vacuum = true) (line : r.line = .none)
    (beyond : (s.base p).config.keepOut < (s.cond p).position) :
    ∃ t, (exec (.moveDone h num) s = .next t ∧ t.carrier h = { s.carrier h with position := .stands (.platen p) } ∧
      (t.base p).accumulator = w.accrued ∧ (t.base p).owner = some ⟨h, w.limit, r.clock⟩ ∧
      t.seq h = { s.seq h with activity := some (.step { s.asking w r p with phase := some .keepoutWait }) } ∧
      s.Released t o) ∧ t.isDown h = false := by
  have ready : (s.returned h o w r p).lineReady p r.line := by rw [line]; exact trivial
  have beyond' : ((s.returned h o w r p).base p).config.keepOut < ((s.returned h o w r p).cond p).position := by
    have arm : ((s.returned h o w r p).cond p).position = (s.cond p).position := State.armPosition_departed ..
    rw [State.base_returned, arm]
    exact beyond
  obtain ⟨went, up, -⟩ := State.enterAcquire_awaits k.polishes k.isDown ready k.linesFree beyond'
  have back := k.goesOn vacuum went (State.seated_goes k.polishes k.isDown ready k.linesFree (.inl beyond'))
  rw [k.acquiring] at back
  exact ⟨_, back, (State.isDown_settle ..).trans up⟩

/-- The arm stands within K: the step goes DOWN into its GAP (R34). -/
theorem lowers (vacuum : (s.seq h).vacuum = true) (line : r.line = .none)
    (within : (s.cond p).position ≤ (s.base p).config.keepOut) (moving : (s.base p).stalled = false)
    (forward : (s.base p).direction = .forward) (clear : s.trip.tripped = false) (long : 0 < r.gap) :
    ∃ t, (exec (.moveDone h num) s = .next t ∧ t.carrier h = { s.carrier h with position := .stands (.platen p) } ∧
      (t.base p).accumulator = w.accrued ∧ (t.base p).owner = some ⟨h, w.limit, r.clock⟩ ∧
      t.seq h = { s.seq h with activity := some (.step { s.asking w r p with phase := some .gap, gapRemaining := r.gap }) } ∧
      s.Released t o) ∧ t.isDown h = true := by
  have ready : (s.returned h o w r p).lineReady p r.line := by rw [line]; exact trivial
  have arm : ((s.returned h o w r p).cond p).position = (s.cond p).position := State.armPosition_departed ..
  have clear' : (s.returned h o w r p).trip.tripped = false := by
    have trip : (s.returned h o w r p).trip = s.trip := State.trip_departed ..
    rw [trip]
    exact clear
  have base := s.base_returned h o w r p
  have gap (lead : Nat) (kept : Bool) : effectiveGap r lead kept = (r.gap, false) := by
    rw [effectiveGap_eq, if_pos (.inl line)]
  obtain ⟨went, zone, -⟩ := State.enterAcquire_touches k.polishes k.isDown ready k.linesFree
    (by rw [base, arm]; exact within) (by rw [base]; exact moving) (by rw [base]; exact forward) clear'
    (fun short => absurd ((congrArg Prod.fst (gap _ _)).symm.trans short) long.ne')
  have back := k.goesOn vacuum went
    (State.seated_goes k.polishes k.isDown ready k.linesFree (.inr (by rw [base]; exact ⟨moving, forward⟩)))
  have touched : (w.acquiring r ((s.returned h o w r p).diskUsable p)).touched r
      ((s.returned h o w r p).base p).config.lead =
      { s.asking w r p with phase := some .gap, gapRemaining := r.gap } := by
    rw [k.acquiring, Working.touched, Working.inGap, gap, if_neg long.ne', Bool.or_false]
  rw [touched] at back
  refine ⟨_, back, (State.isDown_settle ..).trans ?_⟩
  rw [State.isDown, zone]

/-- The line feeds another nozzle: the step waits for it, UP (R79). -/
theorem waitsForLine {l : LineId} (vacuum : (s.seq h).vacuum = true) (line : r.line = .line l)
    (bound : ∃ m x f, (s.line l).state = .bound m x f ∧ m ≠ p) (new : p ∉ (s.line l).wait) :
    ∃ t, (exec (.moveDone h num) s = .next t ∧ t.carrier h = { s.carrier h with position := .stands (.platen p) } ∧
      (t.base p).accumulator = w.accrued ∧ (t.base p).owner = some ⟨h, w.limit, r.clock⟩ ∧
      t.seq h = { s.seq h with activity := some (.step { s.asking w r p with phase := some .acquireLine }) } ∧
      s.Released t o) ∧ t.isDown h = false ∧ t.line l = { s.line l with wait := (s.line l).wait ++ [p] } ∧
      .lineWait h ∈ (t.port .recipe).notices := by
  have same : (s.returned h o w r p).line l = s.line l := State.line_departed ..
  have other : ((s.returned h o w r p).line l).feeds p = false := by
    obtain ⟨m, x, f, bound, ne⟩ := bound
    rw [same, Line.feeds, bound]
    simp [ne]
  have busy : ∃ n g f, ((s.returned h o w r p).line l).state = .bound n g f := by
    obtain ⟨m, x, f, bound, -⟩ := bound
    exact ⟨m, x, f, by rw [same, bound]⟩
  obtain ⟨went, up, queue, notice⟩ := State.enterAcquire_waitsForLine k.polishes line other k.isDown (.inl busy)
    (by rw [same]; exact new) k.linesFree
  have back := k.goesOn vacuum went (State.seated_queues k.polishes line other k.isDown busy k.linesFree)
  rw [k.acquiring] at back
  refine ⟨_, back, (State.isDown_settle ..).trans up, ?_, State.notice_settle notice⟩
  rw [State.line_settle, queue, same]

/-- The wafer is lost: the list halts at the platen (R26, R123). -/
theorem loses (lost : (s.seq h).vacuum = false) :
    ∃ t k, exec (.moveDone h num) s = .next t ∧ t.carrier h = { s.carrier h with position := .stands (.platen p) } ∧
      (t.seq h).results = (s.seq h).results ++ [k] ∧ k.index = w.index ∧ k.outcome = .waferLost ∧
      (t.seq h).state = .halted (.final .waferLost) none ∧ (t.seq h).activity = none ∧
      ((∀ g ∈ (s.station o).wait, s.polishing g = none) → s.Released t o) := by
  let u := s.departed h o (.platen p)
  have arrived : u.arrived h = u.finalHalt h .waferLost :=
    State.arrived_lost k.step k.kind (by rw [State.seq_departed k.away]; exact lost)
  have stands : (u.carrier h).position = .stands (.platen p) := by rw [State.carrier_departed k.away]
  obtain ⟨x, results, index, outcome, -, activity, -, state⟩ := State.refused_first (r := .waferLost) k.step stands
  have seq : u.seq h = s.seq h := State.seq_departed k.away
  refine ⟨(u.finalHalt h .waferLost).settle, x, ?_, ?_, ?_, index, outcome, ?_, ?_, fun idle => ?_⟩
  · rw [exec_moveDone k.current, k.arrives, arrived]
  · rw [State.carrier_settle, State.carrier_finalHalt_stands stands, State.carrier_departed k.away]
  · rw [State.seq_settle, results, seq]
  · rw [State.seq_settle, state]
  · rw [State.seq_settle, activity]
  · refine (State.Keeps.of_waiters (s := s) (D := fun _ => False) (.finalHalt (W := (· = h)) rfl u .waferLost) (.finalHalt ..)
      id (fun g mem => ?_) (State.released_departed k.away).waits).released k.away
    have ne : g ≠ h := fun own => k.away (own ▸ mem)
    exact ⟨ne, State.polishing_departed (idle g mem) ne⟩

end State.MovesBack

end

/-- Settles O44: by the state of the head and the activity that has arrived, one lemma for each. -/
theorem moveDone : Obligations.MoveDone := by
  intro s h num
  refine ⟨exec_moveDone_other, fun current placed => ?_, fun o d st current transit away =>
    ⟨fun e closing => ?closing, fun open_ late => moveDone_late current transit away open_ late, ?move, ?dwell, ?polish, ?park⟩⟩
  · rw [exec_moveDone current, State.completeMove_placed placed]
  case closing =>
    obtain ⟨t, runs, carrier, seq, listDone, halted, released⟩ := moveDone_closing current transit away closing
    refine ⟨t, runs, carrier, ?_, listDone, halted, released⟩
    rw [seq]
    cases e <;> rfl
  case move =>
    rintro n l w rfl running activity phase kind station
    exact moveDone_move current transit away running activity phase kind station
  case dwell =>
    rintro n l w k rfl running activity phase kind station
    exact moveDone_dwell current transit away running activity phase kind station
  case polish =>
    rintro n l w r p rfl running activity phase kind rfl station platen other held up free
    have back : s.MovesBack h num o w r p :=
      ⟨current, ⟨n, l, transit⟩, away, running, activity, phase, kind, station, platen, other, held, up, free⟩
    exact ⟨fun vacuum line => ⟨fun beyond => back.awaits vacuum line beyond,
        fun within moving forward clear long => back.lowers vacuum line within moving forward clear long⟩,
      fun l vacuum line bound new => back.waitsForLine vacuum line bound new, fun lost => back.loses lost⟩
  case park =>
    rintro n l cs rfl running rfl activity
    exact moveDone_park current transit away running activity

end Sys2Proof.Machine
end

section
/-!
PROOFS. RESUME_MODULE (R132): the stages of the trip's clearing, and what they leave of a head that does not polish.
-/
namespace Sys2Proof.Machine

/-- The turn of one entry in a pass over a list without repetitions. -/
theorem foldl_turn {α β : Type} (f : β → α → β) {xs : List α} {x : α} (nodup : xs.Nodup) (mem : x ∈ xs) (s : β) :
    ∃ pre post, x ∉ pre ∧ x ∉ post ∧ xs = pre ++ x :: post ∧ xs.foldl f s = post.foldl f (f (pre.foldl f s) x) := by
  obtain ⟨pre, post, rfl⟩ := List.append_of_mem mem
  have apart := List.nodup_middle.1 nodup
  rw [List.nodup_cons, List.mem_append, not_or] at apart
  exact ⟨pre, post, apart.1.1, apart.1.2, rfl, by rw [List.foldl_append, List.foldl_cons]⟩

theorem headIds_nodup : headIds.Nodup := by decide

theorem platenIds_nodup : platenIds.Nodup := by decide

theorem mem_platenIds (p : PlatenId) : p ∈ platenIds := by cases p <;> decide

/-! ## The stages -/

section
variable {s t : State} {h g : HeadId} {p : PlatenId}

/-- The trip is clear, and the owed moves are sent (R132). -/
def State.owedSent (s : State) : State := headIds.foldl State.sendOwed s.tripCleared

/-- The IDLE lines have bound their waiters (R86). -/
def State.linesHanded (s : State) : State := s.owedSent.handOnAll

/-- The arms have taken up their runs, stowed their sweeps and tried their claims (R149). -/
def State.armsCleared (s : State) : State := platenIds.foldl State.condTripCleared s.linesHanded

theorem State.clearTrip_eq (s : State) : s.clearTrip = headIds.foldl State.clearInterlock s.armsCleared := rfl

theorem exec_resumeModule_refused (opens : s.opens .recipe) (level : s.trip.atLevel = true) :
    exec (.resumeModule .recipe []) s = .next (s.refusal .recipe .wrongState) := by
  have barred : (!s.trip.atLevel) = false := by rw [level]; rfl
  refine congrArg Host.Outcome.next ?_
  rw [State.takeRequest_recipe opens (b := []) (n := 0) rfl]
  exact State.reply_require_not barred ..

theorem exec_resumeModule (opens : s.opens .recipe) (level : s.trip.atLevel = false) :
    exec (.resumeModule .recipe []) s =
      .next ((if s.trip.tripped then s.clearTrip else s).accepted .recipe) := by
  have free : (!s.trip.atLevel) = true := by rw [level]; rfl
  refine congrArg Host.Outcome.next ?_
  rw [State.takeRequest_recipe opens (b := []) (n := 0) rfl]
  exact State.reply_require_accept free ..

/-! ## Moves owed (R11, R26) -/

/-- The carrier of a head in the state given, its owed move sent. -/
def Carrier.owed (c : Carrier) (q : HeadState) : Carrier :=
  match c.position, q with
  | .inTransit o d .deferred, _ => c.send false o d
  | .inTransit o d .halted, .closing _ => c.send false o d
  | _, _ => c

theorem Carrier.owed_deferred {c : Carrier} {o d : StationId} (transit : c.position = .inTransit o d .deferred) (q : HeadState) :
    c.owed q = c.send false o d := by
  unfold Carrier.owed
  rw [transit]

theorem Carrier.owed_closing {c : Carrier} {o d : StationId} {st : MoveStatus} {e : EndState} (transit : c.position = .inTransit o d st)
    (owes : st = .halted ∨ st = .deferred) : c.owed (.closing e) = c.send false o d := by
  unfold Carrier.owed
  rw [transit]
  rcases owes with rfl | rfl
  · rfl
  · rfl

theorem Carrier.owed_other {c : Carrier} {q : HeadState} (undeferred : ∀ o d, c.position ≠ .inTransit o d .deferred)
    (unhalted : ∀ o d e, c.position = .inTransit o d .halted → q ≠ .closing e) : c.owed q = c := by
  unfold Carrier.owed
  split
  · next transit => exact absurd transit (undeferred _ _)
  · next transit => exact absurd rfl (unhalted _ _ _ transit)
  · rfl

theorem State.sendOwed_eq (clear : s.trip.tripped = false) (h : HeadId) :
    s.sendOwed h = s.setCarrier h ((s.carrier h).owed (s.seq h).state) := by
  have sent (o d : StationId) : s.sendMove h o d = s.setCarrier h ((s.carrier h).send false o d) := by
    rw [State.sendMove, clear]
    rfl
  unfold State.sendOwed
  split
  · next transit =>
    rw [Carrier.owed_deferred transit, State.forwardMove_still transit nofun]
    exact sent _ _
  · next transit closing =>
    rw [closing, Carrier.owed_closing transit (.inl rfl), State.forwardMove_still transit nofun]
    exact sent _ _
  · next undeferred unhalted => rw [Carrier.owed_other undeferred unhalted, State.setCarrier_carrier]

theorem Carrier.owed_stands {c : Carrier} {o : StationId} (stands : c.position = .stands o) (q : HeadState) : c.owed q = c := by
  unfold Carrier.owed
  rw [stands]

theorem Carrier.stands_of_owed {c : Carrier} {o : StationId} {q : HeadState} (stands : (c.owed q).position = .stands o) :
    c.position = .stands o := by
  unfold Carrier.owed at stands
  split at stands
  · cases stands
  · cases stands
  · exact stands

theorem State.trip_sendOwed (s : State) (h : HeadId) : (s.sendOwed h).trip = s.trip := (Cascade.sendOwed s h).trip

theorem Aside.sendOwed (s : State) (ne : h ≠ g) : Aside g s (s.sendOwed h) := by
  unfold State.sendOwed
  split
  · exact .forwardMove s ne
  · exact .forwardMove s ne
  · exact .refl g s

theorem Acts.sendOwed {W : HeadId → Prop} {D : StationId → Prop} (w : W h) (s : State) : Acts W D s (s.sendOwed h) := by
  unfold State.sendOwed
  split
  · exact .forwardMove w s
  · exact .forwardMove w s
  · exact .refl s

/-- The state with the trip clear and the owed moves sent, at one head. -/
theorem State.owedSent_at (s : State) (h : HeadId) :
    s.owedSent.seq h = s.seq h ∧ s.owedSent.zone h = s.zone h ∧
      s.owedSent.carrier h = (s.carrier h).owed (s.seq h).state := by
  obtain ⟨pre, post, before, after, -, turn⟩ := foldl_turn State.sendOwed headIds_nodup (mem_headIds h) s.tripCleared
  have others : ∀ (xs : List HeadId) (u : State), h ∉ xs → Aside h u (xs.foldl State.sendOwed u) := by
    intro xs
    induction xs with
    | nil => exact fun u _ => .refl h u
    | cons x xs ih =>
      intro u away
      rw [List.mem_cons, not_or] at away
      exact (Aside.sendOwed u (Ne.symm away.1)).trans (ih _ away.2)
  let v := pre.foldl State.sendOwed s.tripCleared
  have clear : v.trip.tripped = false := by
    have trip : v.trip = s.tripCleared.trip := (Cascade.foldl Cascade.sendOwed pre s.tripCleared).trip
    rw [trip]
    rfl
  have early : Aside h s.tripCleared v := others pre _ before
  have own : v.sendOwed h = v.setCarrier h ((v.carrier h).owed (v.seq h).state) := State.sendOwed_eq clear h
  have late : Aside h (v.sendOwed h) s.owedSent := by
    rw [State.owedSent, turn]
    exact others post _ after
  refine ⟨?_, ?_, ?_⟩
  · rw [late.seq, own]
    exact early.seq
  · rw [late.zone, own]
    exact early.zone
  · rw [late.carrier, own, State.carrier_setCarrier_self, early.carrier, early.seq]
    rfl

theorem State.acts_linesHanded {W : HeadId → Prop} {D : StationId → Prop} (s : State) (w : ∀ h, W h) :
    Machine.Acts W D s.tripCleared s.linesHanded :=
  (Acts.foldl (fun u h => .sendOwed (w h) u) headIds _).trans (.handOnAll _)

theorem State.cascade_linesHanded (s : State) : Cascade s.tripCleared s.linesHanded :=
  (Cascade.foldl Cascade.sendOwed headIds _).trans (.handOnAll _)

/-! ## The arms (R149) -/

theorem State.tryClaim_writes (s : State) (p : PlatenId) : ∃ r c, s.tryClaim p = { s with stations := r, conds := c } := by
  unfold State.tryClaim
  dsimp only
  split
  · exact ⟨_, _, rfl⟩
  · exact ⟨_, _, rfl⟩

theorem State.resumeRun_writes (s : State) (p : PlatenId) : ∃ c, s.resumeRun p = { s with conds := c } := by
  unfold State.resumeRun
  split
  · exact ⟨_, rfl⟩
  · exact ⟨_, rfl⟩

theorem State.condTripCleared_writes (s : State) (p : PlatenId) :
    ∃ r c, s.condTripCleared p = { s with stations := r, conds := c } := by
  obtain ⟨c, resumed⟩ := s.resumeRun_writes p
  unfold State.condTripCleared
  dsimp only
  split
  · obtain ⟨r, c', claimed⟩ := ((s.resumeRun p).modCond p fun c => c.stow ((s.resumeRun p).base p).config).tryClaim_writes p
    refine ⟨r, c', ?_⟩
    rw [claimed, resumed]
    rfl
  · obtain ⟨r, c', claimed⟩ := (s.resumeRun p).tryClaim_writes p
    refine ⟨r, c', ?_⟩
    rw [claimed, resumed]

theorem State.condsTripCleared_writes (ps : List PlatenId) (s : State) :
    ∃ r c, ps.foldl State.condTripCleared s = { s with stations := r, conds := c } := by
  induction ps generalizing s with
  | nil => exact ⟨_, _, rfl⟩
  | cons p ps ih =>
    obtain ⟨r, c, first⟩ := s.condTripCleared_writes p
    obtain ⟨r', c', rest⟩ := ih (s.condTripCleared p)
    refine ⟨r', c', ?_⟩
    rw [List.foldl_cons, rest, first]

/-- The clearing at the arms writes stations and Conditioner Units alone. -/
theorem State.armsCleared_writes (s : State) : ∃ r c, s.armsCleared = { s.linesHanded with stations := r, conds := c } :=
  State.condsTripCleared_writes ..

theorem State.aside_withPlatens (s : State) (h : HeadId) (r : PerStation Station) (c : PerPlaten Conditioner) :
    Aside h s { s with stations := r, conds := c } := {}

theorem State.aside_armsCleared (s : State) (h : HeadId) : Aside h s.linesHanded s.armsCleared := by
  obtain ⟨r, c, writes⟩ := s.armsCleared_writes
  rw [writes]
  exact State.aside_withPlatens ..

theorem State.cascade_armsCleared (s : State) : Cascade s.linesHanded s.armsCleared :=
  .foldl (fun _ _ => .condTripCleared ..) ..

theorem State.trip_armsCleared (s : State) : s.armsCleared.trip.tripped = false := by
  rw [(s.cascade_linesHanded.trans s.cascade_armsCleared).trip]
  rfl

/-! ## A head that does not polish -/

/-- The work of other heads leaves a head that does not polish as it is. -/
theorem Acts.aside {W : HeadId → Prop} {D : StationId → Prop} (k : Acts W D s t) (own : ¬W h) (still : s.polishing h = none) :
    Aside h s t := by
  induction k with
  | refl s => exact .refl h s
  | trans _ _ first second =>
    have aside := first own still
    exact aside.trans (second own (aside.polishing.trans still))
  | @seq W D s j w x => exact .setSeq _ _ fun same => own (same ▸ w)
  | @zone W D s j w x => exact .setZone _ _ fun same => own (same ▸ w)
  | @carrier W D s j w x place => exact .setCarrier _ _ fun same => own (same ▸ w)
  | @outer W D s j => exact .refreshOuter ..
  | @leave W D s j w => exact .leaveWaits ..
  | @called W D s t j polishes acts ih =>
    refine ih ?_ still
    rintro (w | rfl)
    · exact own w
    · rw [still] at polishes
      cases polishes
  | _ => exact {}

/-- A head that does not polish comes to the clearing of INTERLOCK with its owed move sent, and as it was otherwise. -/
theorem State.armsCleared_at (still : s.polishing h = none) :
    s.armsCleared.seq h = s.seq h ∧ s.armsCleared.zone h = s.zone h ∧
      s.armsCleared.carrier h = (s.carrier h).owed (s.seq h).state ∧ s.armsCleared.polishing h = none := by
  obtain ⟨seq, zone, carrier⟩ := s.owedSent_at h
  have still' : s.owedSent.polishing h = none := by
    rw [Option.eq_none_iff_forall_ne_some] at still ⊢
    rintro ⟨w, r, p⟩ polishes
    obtain ⟨running, step, stands, kind⟩ := State.polishing_iff.1 polishes
    rw [seq] at running step
    rw [carrier] at stands
    exact still ⟨w, r, p⟩ (State.polishing_iff.2 ⟨running, step, Carrier.stands_of_owed stands, kind⟩)
  have handed : Aside h s.owedSent s.linesHanded := .handOnAll _ still'
  have aside := handed.trans (s.aside_armsCleared h)
  exact ⟨aside.seq.trans seq, aside.zone.trans zone, aside.carrier.trans carrier, aside.polishing.trans still'⟩

/-! ## The heads in TRIP (R132) -/

theorem Acts.interlocks {xs : List HeadId} (s : State) : Acts (· ∈ xs) (fun _ => True) s (xs.foldl State.clearInterlock s) := by
  have each : ∀ (ys : List HeadId) (u : State), (∀ y ∈ ys, y ∈ xs) →
      Acts (· ∈ xs) (fun _ => True) u (ys.foldl State.clearInterlock u) := by
    intro ys
    induction ys with
    | nil => exact fun u _ => .refl u
    | cons y ys ih =>
      exact fun u sub => (Acts.clearInterlock (sub y List.mem_cons_self) u).trans
        (ih _ fun z mem => sub z (List.mem_cons_of_mem _ mem))
  exact each xs s fun _ => id

/-- The turn of a head that does not polish before it and after it. -/
theorem State.clearTrip_turn (still : s.armsCleared.polishing h = none) :
    ∃ v, Aside h s.armsCleared v ∧ v.trip.tripped = false ∧
      ((v.clearInterlock h).polishing h = none → Aside h (v.clearInterlock h) s.clearTrip) := by
  obtain ⟨pre, post, before, after, -, turn⟩ := foldl_turn State.clearInterlock headIds_nodup (mem_headIds h) s.armsCleared
  refine ⟨pre.foldl State.clearInterlock s.armsCleared, (Acts.interlocks _).aside before still, ?_, fun done => ?_⟩
  · rw [(Cascade.foldl Cascade.clearInterlock pre s.armsCleared).trip]
    exact s.trip_armsCleared
  · rw [State.clearTrip_eq, turn]
    exact (Acts.interlocks _).aside after done

theorem State.clearInterlock_of {cs : List Cause} {x : Option ParkProgress} (running : (s.seq h).state = .running)
    (trip : (s.seq h).activity = some (.intervention .trip cs x)) : s.clearInterlock h = s.endIntervention h := by
  rw [State.clearInterlock, trip]
  exact if_pos (decide_eq_true running)

/-- The head RUNS an intervention of class TRIP. -/
def State.inTrip (s : State) (h : HeadId) : Prop :=
  (s.seq h).state = .running ∧ ∃ cs x, (s.seq h).activity = some (.intervention .trip cs x)

theorem State.clearInterlock_not (untripped : ¬s.inTrip h) : s.clearInterlock h = s := by
  unfold State.clearInterlock
  split
  · next trip =>
    exact if_neg fun running => untripped ⟨of_decide_eq_true running, _, _, trip⟩
  · rfl

end

end Sys2Proof.Machine
end

section
/-!
PROOFS. RESUME_MODULE (R132) at a head that does not polish: owed moves, and the end of a TRIP over an intervention, over a step
in transit and over a DWELL at its station.
-/
namespace Sys2Proof.Machine

section
variable {s t : State} {h g : HeadId} {o d : StationId} {w : Working} {cs : List Cause} {x : Option ParkProgress}
  {rest : List Context} {tr : Option Position}

/-- The state in which INTERLOCK is cleared on head h: as it was, but for its owed move. -/
structure State.ReachesTurn (s v : State) (h : HeadId) : Prop where
  seq : v.seq h = s.seq h
  zone : v.zone h = s.zone h
  carrier : v.carrier h = (s.carrier h).owed (s.seq h).state
  still : v.polishing h = none
  clear : v.trip.tripped = false
  done : (v.clearInterlock h).polishing h = none → Aside h (v.clearInterlock h) s.clearTrip

theorem State.reachesTurn (still : s.polishing h = none) : ∃ v, s.ReachesTurn v h := by
  obtain ⟨seq, zone, carrier, still'⟩ := State.armsCleared_at still
  obtain ⟨v, aside, clear, done⟩ := State.clearTrip_turn still'
  exact ⟨v, aside.seq.trans seq, aside.zone.trans zone, aside.carrier.trans carrier, aside.polishing.trans still', clear, done⟩

theorem Carrier.owed_halted {c : Carrier} (transit : c.position = .inTransit o d .halted) {q : HeadState}
    (open_ : ∀ e, q ≠ .closing e) : c.owed q = c := by
  unfold Carrier.owed
  rw [transit]
  cases q with
  | closing e => exact absurd rfl (open_ e)
  | _ => rfl

/-! ## A head that is not in TRIP -/

theorem State.clearTrip_untripped (still : s.polishing h = none) (untripped : ¬s.inTrip h) :
    s.clearTrip.seq h = s.seq h ∧ s.clearTrip.carrier h = (s.carrier h).owed (s.seq h).state := by
  obtain ⟨v, turn⟩ := State.reachesTurn still
  have same : v.clearInterlock h = v := State.clearInterlock_not fun ⟨running, trip⟩ =>
    untripped ⟨by rw [← turn.seq]; exact running, by rw [← turn.seq]; exact trip⟩
  have done := turn.done (by rw [same]; exact turn.still)
  rw [same] at done
  exact ⟨done.seq.trans turn.seq, done.carrier.trans turn.carrier⟩

/-- The owed move of a CLOSING head is sent (R26). -/
theorem State.clearTrip_closing {st : MoveStatus} {e : EndState} (transit : (s.carrier h).position = .inTransit o d st)
    (owes : st = .halted ∨ st = .deferred) (closing : (s.seq h).state = .closing e) :
    (s.clearTrip.seq h).state = .closing e ∧ s.clearTrip.carrier h = (s.carrier h).send false o d := by
  obtain ⟨seq, carrier⟩ := State.clearTrip_untripped (State.polishing_of_transit transit)
    fun ⟨running, _⟩ => by rw [closing] at running; cases running
  exact ⟨by rw [seq, closing], by rw [carrier, closing, Carrier.owed_closing transit owes]⟩

/-- The deferred move of a head that is not in TRIP is sent (R11). -/
theorem State.clearTrip_deferred (transit : (s.carrier h).position = .inTransit o d .deferred)
    (untripped : ∀ cs p, (s.seq h).activity ≠ some (.intervention .trip cs p)) :
    s.clearTrip.seq h = s.seq h ∧ s.clearTrip.carrier h = (s.carrier h).send false o d := by
  obtain ⟨seq, carrier⟩ := State.clearTrip_untripped (State.polishing_of_transit transit)
    fun ⟨_, cs, p, trip⟩ => untripped cs p trip
  exact ⟨seq, by rw [carrier, Carrier.owed_deferred transit]⟩

/-! ## A head in TRIP -/

theorem State.resumeIntervention_quick {k : Intervention} (unparked : k ≠ .park) (c : Cause) (cs : List Cause) :
    s.resumeIntervention h k (c :: cs) =
      s.setSeq h { s.seq h with activity := some (.intervention k (c :: cs) none) } := by
  unfold State.resumeIntervention
  cases k with
  | park => exact absurd rfl unparked
  | _ => rfl

section
variable (running : (s.seq h).state = .running) (trip : (s.seq h).activity = some (.intervention .trip cs x))
include running trip

theorem State.ReachesTurn.ends {v : State} (turn : s.ReachesTurn v h) :
    v.clearInterlock h = State.unwind h (s.seq h).stack (v.exited h (s.seq h).stack) := by
  rw [State.clearInterlock_of (by rw [turn.seq]; exact running) (by rw [turn.seq]; exact trip),
    State.endIntervention_eq, turn.seq]

/-- A TRIP over an intervention hands the head back to it (R122). -/
theorem State.clearTrip_intervention {k : Intervention} {c : Cause} {ks : List Cause}
    (stack : (s.seq h).stack = ⟨.intervention k (c :: ks), tr⟩ :: rest) (unparked : k ≠ .park) :
    s.clearTrip.seq h = { s.seq h with activity := some (.intervention k (c :: ks) none), stack := rest } := by
  obtain ⟨v, turn⟩ := State.reachesTurn (State.polishing_of_intervention trip)
  have ends := turn.ends running trip
  rw [stack, State.unwind_intervention, State.resumeIntervention_quick unparked] at ends
  have seq : (v.clearInterlock h).seq h =
      { s.seq h with activity := some (.intervention k (c :: ks) none), stack := rest } := by
    rw [ends, State.seq_setSeq_self, State.seq_exited, turn.seq]
  exact (turn.done (State.polishing_of_intervention (by rw [seq]))).seq.trans seq

/-- A TRIP over a step brings the step to ask for its station (R123). -/
theorem State.ReachesTurn.asks {v : State} (turn : s.ReachesTurn v h) (stack : (s.seq h).stack = ⟨.step w, tr⟩ :: rest) :
    v.clearInterlock h = (v.popped h rest w).askStation h := by
  rw [turn.ends running trip, stack, State.unwind_step, State.resumeStep_exited]

/-- A TRIP over a step in transit to its station: the transit goes forward (R123). -/
theorem State.clearTrip_forward {st : MoveStatus} (stack : (s.seq h).stack = ⟨.step w, tr⟩ :: rest)
    (transit : (s.carrier h).position = .inTransit o w.station st) (still : ∀ n l, st ≠ .moving n l) :
    s.clearTrip.seq h =
      { s.seq h with activity := some (.step { w.popped with phase := some .inTransit }), stack := rest } ∧
      s.clearTrip.carrier h = (s.carrier h).send false o w.station := by
  obtain ⟨v, turn⟩ := State.reachesTurn (State.polishing_of_transit transit)
  let u := v.popped h rest w
  have carrier : u.carrier h = (s.carrier h).owed .running := by rw [State.carrier_popped, turn.carrier, running]
  have sent : (u.forwardMove h).carrier h = (s.carrier h).send false o w.station := by
    cases st with
    | moving n l => exact absurd rfl (still n l)
    | deferred =>
      rw [Carrier.owed_deferred transit] at carrier
      rw [State.forwardMove_moving (o := o) (d := w.station) (n := 0) (l := (s.carrier h).moveLimit) (by rw [carrier]; rfl),
        carrier]
    | halted =>
      rw [Carrier.owed_halted transit (q := .running) nofun] at carrier
      have clear : u.trip.tripped = false := by rw [State.trip_popped]; exact turn.clear
      rw [State.forwardMove_still (st := .halted) (by rw [carrier]; exact transit) nofun, State.sendMove, State.modCarrier_eq,
        State.carrier_setCarrier_self, clear, carrier]
  have transit' : ∃ st', (u.carrier h).position = .inTransit o w.popped.station st' := by
    rw [carrier]
    cases st with
    | moving n l => exact absurd rfl (still n l)
    | deferred => exact ⟨_, by rw [Carrier.owed_deferred transit]; rfl⟩
    | halted => exact ⟨_, by rw [Carrier.owed_halted transit (q := .running) nofun]; exact transit⟩
  obtain ⟨st', transit'⟩ := transit'
  have seq : (u.forwardMove h).seq h = { s.seq h with activity := some (.step w.popped), stack := rest } := by
    rw [State.seq_forwardMove, State.seq_popped, turn.seq]
  have current : (u.forwardMove h).current h = some w.popped := by rw [State.current, seq]
  have asked : v.clearInterlock h = (u.forwardMove h).setWorking h { w.popped with phase := some .inTransit } := by
    rw [turn.asks running trip stack, State.askStation, State.current_popped]
    dsimp only
    rw [State.acquire_transit transit', State.moveAnswered, State.modWorking, current]
    rfl
  have carrier' : (v.clearInterlock h).carrier h = (s.carrier h).send false o w.station := by rw [asked]; exact sent
  have seq' : (v.clearInterlock h).seq h =
      { s.seq h with activity := some (.step { w.popped with phase := some .inTransit }), stack := rest } := by
    rw [asked, State.setWorking, State.modSeq_eq, State.seq_setSeq_self, seq]
  have done := turn.done (State.polishing_of_transit (o := o) (e := w.station) (st := .moving 0 (s.carrier h).moveLimit)
    (by rw [carrier']; rfl))
  exact ⟨done.seq.trans seq', done.carrier.trans carrier'⟩

/-- A TRIP over a DWELL at its station: the DWELL runs on (R124). -/
theorem State.clearTrip_dwell {n : Nat} (stack : (s.seq h).stack = ⟨.step w, tr⟩ :: rest) (kind : w.record.kind = .dwell n)
    (stands : (s.carrier h).position = .stands w.station) :
    s.clearTrip.carrier h = s.carrier h ∧ s.clearTrip.isDown h = false ∧
      s.clearTrip.seq h =
        { s.seq h with activity := some (.step { w.popped with phase := some .dwell, resume := none }), stack := rest } := by
  obtain ⟨v, turn⟩ := State.reachesTurn (State.polishing_of_intervention trip)
  let u := v.popped h rest w
  have carrier : u.carrier h = s.carrier h := by
    rw [State.carrier_popped, turn.carrier, Carrier.owed_stands stands]
  have asked : v.clearInterlock h = u.setWorking h { w.popped with phase := some .dwell, resume := none } := by
    rw [turn.asks running trip stack, State.askStation_here (State.current_popped ..) (by rw [carrier]; exact stands)]
    exact State.arrived_dwell (State.current_popped ..) kind
  have seq : (v.clearInterlock h).seq h =
      { s.seq h with activity := some (.step { w.popped with phase := some .dwell, resume := none }), stack := rest } := by
    rw [asked, State.setWorking, State.modSeq_eq, State.seq_setSeq_self, State.seq_popped, turn.seq]
  have quiet : (v.clearInterlock h).polishing h = none := by
    rw [Option.eq_none_iff_forall_ne_some]
    rintro ⟨y, r, p⟩ polishes
    obtain ⟨-, step, -, kind'⟩ := State.polishing_iff.1 polishes
    rw [seq] at step
    cases step
    exact absurd (kind.symm.trans kind') nofun
  have done := turn.done quiet
  refine ⟨done.carrier.trans (by rw [asked]; exact carrier), done.isDown.trans ?_, done.seq.trans seq⟩
  rw [asked]
  exact State.isDown_popped v h rest w

end

end

end Sys2Proof.Machine
end

section
/-!
PROOFS. RESUME_MODULE (R132, R149) at the arms: runs that go on, in-situ sweeps that stow, and owed runs that take their station.
-/
namespace Sys2Proof.Machine

/-! ## What heads leave of a run, of a platen where none stands and of a free station -/

section
variable {W : HeadId → Prop} {D : StationId → Prop} {s t : State} {p : PlatenId}

theorem Conditioner.beginSweep_exSitu {c : Conditioner} (mode : c.arm.mode = some .exSitu) (g : PlatenConfig) (m : ArmMode) :
    c.beginSweep g m = c := by
  unfold Conditioner.beginSweep
  cases arm : c.arm with
  | stowed => rw [arm] at mode; cases mode
  | stowing => rw [arm] at mode; cases mode
  | suspended _ _ => rfl
  | deploying k => rw [arm] at mode; cases mode; rfl
  | sweeping k => rw [arm] at mode; cases mode; rfl

/-- While a run holds its platen no head writes the unit but for its outer limit (R138, R146). -/
theorem Acts.exSitu (k : Acts W D s t) (run : (s.station (.platen p)).holder = some .conditioner)
    (mode : (s.cond p).arm.mode = some .exSitu) : ∃ o, t.cond p = { s.cond p with outer := o } := by
  induction k with
  | refl s => exact ⟨_, rfl⟩
  | trans early _ first second =>
    obtain ⟨o, kept⟩ := first run mode
    obtain ⟨o', kept'⟩ := second (early.run p run).1 (by rw [kept]; exact mode)
    exact ⟨o', by rw [kept', kept]⟩
  | @outer W D s j =>
    rw [State.cond_refreshOuter]
    split
    · next own =>
      subst own
      rw [State.outerWanted_noHead (State.headOn_eq_none fun g held => by rw [run] at held; cases held)]
      exact ⟨_, rfl⟩
    · exact ⟨_, rfl⟩
  | @stow W D s j q other =>
    rw [State.cond_setCond_ne _ _ fun own => by rw [← own, mode] at other; cases other]
    exact ⟨_, rfl⟩
  | @sweep W D s j q stands =>
    by_cases own : p = q
    · subst own
      rw [State.cond_setCond_self, Conditioner.beginSweep_exSitu mode]
      exact ⟨_, rfl⟩
    · rw [State.cond_setCond_ne _ _ own]
      exact ⟨_, rfl⟩
  | called _ _ acts => exact acts run mode
  | _ => exact ⟨_, rfl⟩

/-- Heads stall no platen (R55). -/
theorem Acts.unstalled (k : Acts W D s t) (moving : (s.base p).stalled = false) : (t.base p).stalled = false := by
  induction k with
  | refl s => exact moving
  | trans _ _ first second => exact second (first moving)
  | @base W D s q x kept =>
    rw [State.base_setBase]
    split
    · next own => subst own; exact kept.stalled.trans moving
    · exact moving
  | @speed W D s q =>
    rw [State.refreshSpeed, State.modBase_eq, State.base_setBase]
    split
    · next own =>
      subst own
      unfold Timebase.setSpeed
      repeat' split
      · exact moving
      · rfl
      · exact moving
    · exact moving
  | @outer W D s q => rw [State.base_refreshOuter]; exact moving
  | called _ _ acts => exact acts moving
  | _ => exact moving

/-- An arm that a trip has suspended in an in-situ sweep, where it may still be so (b), or that has stowed since (R148, R149). -/
def State.SweepEnds (s : State) (p : PlatenId) (b : Prop) : Prop :=
  (b ∧ ∃ h m, (s.cond p).arm = .suspended (.inSitu h) m) ∨
    (s.cond p).arm = (if (s.cond p).position ≤ (s.base p).config.stow then .stowed else .stowing) ∧
      (s.cond p).forceOut = 0

theorem Conditioner.stow_suspended {c : Conditioner} {m : ArmMode} {x : ArmMotion} (suspended : c.arm = .suspended m x)
    (g : PlatenConfig) : c.stow g = c.enter g (if c.position ≤ g.stow then .stowed else .stowing) := by
  unfold Conditioner.stow
  split
  · rfl
  · rw [if_neg (by rw [suspended]; exact nofun)]

/-- Where no head stands, no head makes a sweep begin again (R142). -/
theorem Acts.sweepEnds (k : Acts W D s t) {b : Prop} (ends : s.SweepEnds p b)
    (away : ∀ g, (s.carrier g).position ≠ .stands (.platen p)) : t.SweepEnds p b ∧ ∀ g, (t.carrier g).position ≠ .stands (.platen p) := by
  induction k with
  | refl s => exact ⟨ends, away⟩
  | trans _ _ first second =>
    obtain ⟨ends', away'⟩ := first ends away
    exact second ends' away'
  | @carrier W D s j w x place =>
    refine ⟨ends, fun g stands => ?_⟩
    rw [State.carrier_setCarrier] at stands
    split at stands
    · exact away j (place _ stands)
    · exact away g stands
  | @base W D s q x kept =>
    refine ⟨?_, away⟩
    have config : ((s.setBase q x).base p).config = (s.base p).config := by
      rw [State.base_setBase]
      split
      · next own => subst own; exact kept.config
      · rfl
    rw [State.SweepEnds, config]
    exact ends
  | @speed W D s q =>
    have config : ((s.refreshSpeed q).base p).config = (s.base p).config := ((Cascade.refreshSpeed s q).base p).config
    refine ⟨?_, away⟩
    rw [State.SweepEnds, config]
    exact ends
  | @outer W D s q =>
    obtain ⟨c, k, r, refreshed⟩ := s.refreshOuter_writes q
    refine ⟨?_, by rw [refreshed]; exact away⟩
    have rests : (s.cond p).arm.isSweeping = false := by
      obtain ⟨-, h, m, suspended⟩ | ⟨stowed, -⟩ := ends
      · rw [suspended]; rfl
      · rw [stowed]; split <;> rfl
    obtain ⟨o, kept⟩ := ((OuterAlone.refreshOuter p q s).kept rests).1
    rw [State.SweepEnds, kept, State.base_refreshOuter]
    exact ends
  | @stow W D s j q mode =>
    refine ⟨?_, away⟩
    by_cases own : p = q
    · subst own
      obtain ⟨-, h, m, suspended⟩ | ⟨stowed, -⟩ := ends
      · rw [State.SweepEnds, State.cond_setCond_self, Conditioner.stow_suspended suspended]
        refine .inr ⟨rfl, ?_⟩
        show ArmState.force _ _ = 0
        split <;> rfl
      · rw [stowed] at mode
        split at mode <;> cases mode
    · rw [State.SweepEnds, State.cond_setCond_ne _ _ own]
      exact ends
  | @sweep W D s j q stands =>
    refine ⟨?_, away⟩
    rw [State.SweepEnds, State.cond_setCond_ne _ _ fun own => away j (by rw [own]; exact stands)]
    exact ends
  | called _ _ acts => exact acts ends away
  | _ => exact ⟨ends, away⟩

/-- A free platen that no head asks for stays free, its disk and its run as they are (R3, R138). -/
theorem Acts.unclaimed (k : Acts W D s t) (unasked : ¬D (.platen p)) (free : (s.station (.platen p)).holder = none) :
    (t.station (.platen p)).holder = none ∧ t.disk p = s.disk p ∧ (t.cond p).runHeld = (s.cond p).runHeld := by
  induction k with
  | refl s => exact ⟨free, rfl, rfl⟩
  | trans _ _ first second =>
    obtain ⟨free', disk, held⟩ := first unasked free
    obtain ⟨free'', disk', held'⟩ := second unasked free'
    exact ⟨free'', disk'.trans disk, held'.trans held⟩
  | @outer W D s q =>
    have want : s.outerWanted p = .outer :=
      State.outerWanted_noHead (State.headOn_eq_none fun g held => by rw [free] at held; cases held)
    refine ⟨?_, ?_, ?_⟩
    · obtain ⟨c, k, r, refreshed⟩ := s.refreshOuter_writes q
      rw [refreshed]
      exact free
    · rw [State.disk_refreshOuter, if_neg]
      rintro ⟨rfl, turns⟩
      rw [want] at turns
      exact Bool.noConfusion turns
    · rw [State.cond_refreshOuter]
      split
      · next own => subst own; rw [want]; rfl
      · rfl
  | @stow W D s j q mode =>
    refine ⟨free, rfl, ?_⟩
    rw [State.cond_setCond]
    split
    · next own => subst own; exact (RunKept.stow mode _).held
    · rfl
  | @sweep W D s j q stands =>
    refine ⟨free, rfl, ?_⟩
    rw [State.cond_setCond]
    split
    · next own => subst own; exact (RunKept.beginSweep ..).held
    · rfl
  | @leave W D s j w =>
    rw [State.station_leaveWaits]
    exact ⟨free, rfl, rfl⟩
  | @take W D s d j asked none unowed =>
    rw [State.station_setStation_ne _ _ fun own => unasked (by rw [own]; exact asked)]
    exact ⟨free, rfl, rfl⟩
  | @join W D s d j asked =>
    rw [State.station_setStation_ne _ _ fun own => unasked (by rw [own]; exact asked)]
    exact ⟨free, rfl, rfl⟩
  | called _ _ acts => exact acts unasked free
  | _ => exact ⟨free, rfl, rfl⟩

end

/-! ## An arm that is STOWED while lines are handed on -/

/-- A STOWED arm stays STOWED. -/
structure StowKept (p : PlatenId) (s t : State) : Prop where
  kept : (s.cond p).arm = .stowed → (t.cond p).arm = .stowed

section
variable {s t u : State} {p : PlatenId} {h : HeadId}

theorem StowKept.refl (p : PlatenId) (s : State) : StowKept p s s := ⟨id⟩

theorem StowKept.trans (a : StowKept p s t) (b : StowKept p t u) : StowKept p s u := ⟨fun stowed => b.kept (a.kept stowed)⟩

theorem StowKept.foldl {α : Type} {f : State → α → State} {xs : List α} (k : ∀ s, ∀ x ∈ xs, StowKept p s (f s x)) (s : State) :
    StowKept p s (xs.foldl f s) := by
  induction xs generalizing s with
  | nil => exact .refl p s
  | cons x xs ih =>
    exact (k s x List.mem_cons_self).trans (ih (fun s y mem => k s y (List.mem_cons_of_mem _ mem)) _)

theorem StowKept.of_cond (cond : t.cond p = s.cond p) : StowKept p s t := ⟨fun stowed => by rw [cond]; exact stowed⟩

theorem StowKept.of_outer (k : OuterAlone p s t) : StowKept p s t := ⟨fun stowed => by
  obtain ⟨o, kept⟩ := (k.kept (by rw [stowed]; rfl)).1
  rw [kept]
  exact stowed⟩

theorem StowKept.touchDown (s : State) (h : HeadId) (q : PlatenId) (n : Nat) : StowKept p s (s.touchDown h q n) := by
  unfold State.touchDown
  split
  · exact .refl p s
  · exact StowKept.trans (t := s.modZone h fun z => { z with lift := .down (.gap n) (BandTimer.start z.inBand.allTrue) })
      (.of_cond rfl) (.of_outer (.refreshOuter ..))

theorem StowKept.enterPolish (s : State) (h : HeadId) : StowKept p s (s.enterPolish h) := by
  obtain ⟨q, z, x, y, writes⟩ := s.enterPolish_writes h
  exact .of_cond (by rw [writes]; rfl)

theorem StowKept.enterGap (s : State) (h : HeadId) : StowKept p s (s.enterGap h).1 := by
  unfold State.enterGap
  split
  · exact .refl p s
  · next w r q _ =>
    let v := s.setWorking h (w.inGap r (s.base q).config.lead)
    dsimp only
    split
    · have set : StowKept p s (v.applySet h (.gap r.gapPressure)) := .of_cond rfl
      split
      · exact set.trans (.enterPolish ..)
      · exact set
    · have touched : StowKept p s (v.touchDown h q r.gapPressure) :=
        StowKept.trans (t := v) (.of_cond rfl) (.touchDown ..)
      split
      · exact touched.trans (.enterPolish ..)
      · exact touched

theorem StowKept.enterKeepout (s : State) (h : HeadId) : StowKept p s (s.enterKeepout h).1 := by
  unfold State.enterKeepout
  split
  · exact .refl p s
  · next w _ q _ =>
    have awaited : StowKept p s ((s.setWorking h w.waitsForArm).refreshOuter q) :=
      StowKept.trans (t := s.setWorking h w.waitsForArm) (.of_cond rfl) (.of_outer (.refreshOuter ..))
    dsimp only
    split
    · exact awaited.trans (.enterGap ..)
    · exact awaited

theorem StowKept.withdraw (s : State) (h : HeadId) : StowKept p s (s.withdraw h) := by
  refine .foldl (fun t q _ => ⟨fun stowed => ?_⟩) s
  rw [State.modCond_eq, State.cond_setCond]
  split
  · next own =>
    subst own
    rw [Conditioner.withdraw, if_neg (by rw [stowed]; exact nofun)]
    exact stowed
  · exact stowed

theorem StowKept.suspendStep (s : State) (h : HeadId) : StowKept p s (s.suspendStep h) := by
  obtain ⟨b, disowned⟩ := s.disown_writes h
  obtain ⟨q, r, closed⟩ := (s.disown h).closeWatchOf_writes h
  obtain ⟨k, dropped⟩ := (((s.disown h).closeWatchOf h).withdraw h).dropLine_writes h
  have before : StowKept p s ((s.disown h).closeWatchOf h) := .of_cond (by rw [closed, disowned]; rfl)
  have after : StowKept p (((s.disown h).closeWatchOf h).withdraw h) (s.suspendStep h) :=
    .of_cond (by rw [State.suspendStep, dropped]; rfl)
  exact (before.trans (.withdraw ..)).trans after

theorem StowKept.beginIntervention (s : State) (h : HeadId) (a : Activity) {c : Cause} (lift : c.cls = .lift) :
    StowKept p s (s.beginIntervention h a c) := by
  let v := ((s.suspendStep h).leaveWaits h).haltMove h
  have pushed (u : State) (k : Context) : StowKept p u (u.pushContext h k) := .of_cond (by
    rw [State.pushContext_eq]
    split <;> rfl)
  have begun : StowKept p s (s.intervene h a c) :=
    (((StowKept.suspendStep s h).trans (t := s.suspendStep h) (u := v) (.of_cond rfl)).trans (pushed v _)).trans (.of_cond rfl)
  have entered : StowKept p s ((s.intervene h a c).enterClass h c.cls) := by
    rw [lift]
    exact begun.trans (.of_outer (.liftUp ..))
  rw [State.beginIntervention_eq]
  exact entered.trans (.of_cond rfl)

theorem StowKept.takeCause (s : State) (h : HeadId) {c : Cause} (lift : c.cls = .lift) : StowKept p s (s.takeCause h c) := by
  unfold State.takeCause
  split
  · exact .refl p s
  · split
    · exact .refl p s
    · split
      · exact .beginIntervention s h _ lift
      · split
        · exact .of_cond rfl
        · exact .refl p s

theorem StowKept.toKeepout (s : State) (h : HeadId) : StowKept p s (s.toKeepout h) :=
  (StowKept.enterKeepout s h).trans (.foldl (fun t _ mem => .takeCause t h (State.lift_enterKeepout mem)) _)

theorem StowKept.handOn (l : LineId) (n : Nat) (s : State) : StowKept p s (s.handOn l n) := by
  induction n generalizing s with
  | zero => exact .refl p s
  | succ n ih =>
    unfold State.handOn
    split
    · next q rest _ _ _ =>
      have dropped : StowKept p s (s.modLine l fun k => { k with wait := rest }) := .of_cond rfl
      dsimp only
      split
      · exact dropped.trans (ih _)
      · split
        · exact dropped.trans (ih _)
        · next g _ _ _ r _ _ =>
          have bound : StowKept p s ((s.modLine l fun k => { k with wait := rest }).modLine l fun k =>
            { k with state := .bound q g r.flow }) := .of_cond rfl
          exact (bound.trans (.toKeepout ..)).trans (ih _)
    · exact .refl p s

theorem StowKept.handOnAll (s : State) : StowKept p s s.handOnAll := .foldl (fun t l _ => .handOn l _ t) s

theorem StowKept.sendOwed (s : State) (h : HeadId) : StowKept p s (s.sendOwed h) := by
  have sent : StowKept p s (s.forwardMove h) := by
    obtain ⟨c, writes⟩ := s.forwardMove_writes h
    exact .of_cond (by rw [writes]; rfl)
  unfold State.sendOwed
  split
  · exact sent
  · exact sent
  · exact .refl p s

theorem StowKept.linesHanded (s : State) : StowKept p s s.linesHanded := by
  have cleared : StowKept p s s.tripCleared := .of_cond rfl
  exact (cleared.trans (.foldl (fun t h _ => .sendOwed t h) _)).trans (.handOnAll _)

end

end Sys2Proof.Machine
end

section
/-!
PROOFS. RESUME_MODULE (R132, R149) at one platen: the turn of its unit, and what stands of it at the end.
-/
namespace Sys2Proof.Machine

section
variable {s t u v : State} {p j : PlatenId}

/-! ## The turn of a unit -/

/-- Two states that agree on platen p, its station and its unit. -/
structure State.SamePlaten (p : PlatenId) (s t : State) : Prop where
  station : t.station (.platen p) = s.station (.platen p)
  cond : t.cond p = s.cond p
  base : t.base p = s.base p
  pad : t.pad p = s.pad p
  disk : t.disk p = s.disk p
  trip : t.trip = s.trip

theorem State.SamePlaten.refl (p : PlatenId) (s : State) : State.SamePlaten p s s := ⟨rfl, rfl, rfl, rfl, rfl, rfl⟩

theorem State.SamePlaten.trans (a : State.SamePlaten p s t) (b : State.SamePlaten p t u) : State.SamePlaten p s u :=
  ⟨b.station.trans a.station, b.cond.trans a.cond, b.base.trans a.base, b.pad.trans a.pad, b.disk.trans a.disk,
    b.trip.trans a.trip⟩

theorem State.SamePlaten.modCond (s : State) (f : Conditioner → Conditioner) (ne : p ≠ j) :
    State.SamePlaten p s (s.modCond j f) := ⟨rfl, State.cond_setCond_ne _ _ ne, rfl, rfl, rfl, rfl⟩

theorem State.SamePlaten.tryClaim (s : State) (ne : p ≠ j) : State.SamePlaten p s (s.tryClaim j) := by
  unfold State.tryClaim
  dsimp only
  split
  · exact ⟨State.station_setStation_ne _ _ fun own => ne (StationId.platen.inj own), State.cond_setCond_ne _ _ ne,
      rfl, rfl, rfl, rfl⟩
  · exact .refl p s

theorem State.SamePlaten.resumeRun (s : State) (ne : p ≠ j) : State.SamePlaten p s (s.resumeRun j) := by
  unfold State.resumeRun
  split
  · exact .refl p s
  · exact .modCond s _ ne

theorem State.SamePlaten.condTripCleared (s : State) (ne : p ≠ j) : State.SamePlaten p s (s.condTripCleared j) := by
  unfold State.condTripCleared
  dsimp only
  split
  · exact ((State.SamePlaten.resumeRun s ne).trans (.modCond _ _ ne)).trans (.tryClaim _ ne)
  · exact (State.SamePlaten.resumeRun s ne).trans (.tryClaim _ ne)

theorem State.SamePlaten.condsTripCleared {ps : List PlatenId} (away : p ∉ ps) (s : State) :
    State.SamePlaten p s (ps.foldl State.condTripCleared s) := by
  induction ps generalizing s with
  | nil => exact .refl p s
  | cons j ps ih =>
    rw [List.mem_cons, not_or] at away
    exact (State.SamePlaten.condTripCleared s away.1).trans (ih away.2 _)

/-- The state in which the unit of platen p takes its turn, seen from p. -/
theorem State.armsCleared_turn (s : State) (p : PlatenId) :
    ∃ v, State.SamePlaten p s.linesHanded v ∧ State.SamePlaten p (v.condTripCleared p) s.armsCleared := by
  obtain ⟨pre, post, before, after, -, turn⟩ :=
    foldl_turn State.condTripCleared platenIds_nodup (mem_platenIds p) s.linesHanded
  refine ⟨_, .condsTripCleared before _, ?_⟩
  rw [State.armsCleared, turn]
  exact .condsTripCleared after _

/-- The turn of a unit, its claim left to the end. -/
def State.armCleared (s : State) (p : PlatenId) : State :=
  match ((s.resumeRun p).cond p).arm with
  | .suspended (.inSitu _) _ => (s.resumeRun p).modCond p fun c => c.stow ((s.resumeRun p).base p).config
  | _ => s.resumeRun p

theorem State.condTripCleared_eq (s : State) (p : PlatenId) : s.condTripCleared p = (s.armCleared p).tryClaim p := rfl

theorem State.armCleared_writes (s : State) (p : PlatenId) : ∃ c, s.armCleared p = { s with conds := c } := by
  obtain ⟨c, resumed⟩ := s.resumeRun_writes p
  unfold State.armCleared
  rw [resumed]
  split
  · exact ⟨_, rfl⟩
  · exact ⟨c, rfl⟩

theorem State.resumeRun_still (still : (s.cond p).arm.mode ≠ some .exSitu) : s.resumeRun p = s := by
  have same : (s.cond p).resumeRun (s.base p).config = s.cond p := by
    unfold Conditioner.resumeRun
    split
    · next arm => rw [arm] at still; exact absurd rfl still
    · next arm => rw [arm] at still; exact absurd rfl still
    all_goals rfl
  unfold State.resumeRun
  split
  · rfl
  · rw [State.modCond_eq, same, State.setCond_cond]

theorem State.cond_resumeRun (moving : (s.base p).stalled = false) (clear : s.trip.tripped = false) :
    (s.resumeRun p).cond p = (s.cond p).resumeRun (s.base p).config := by
  rw [State.resumeRun, moving, clear]
  exact State.cond_setCond_self ..

theorem Conditioner.resumeRun_held (c : Conditioner) (g : PlatenConfig) : (c.resumeRun g).runHeld = c.runHeld := by
  unfold Conditioner.resumeRun
  split <;> rfl

theorem Conditioner.stow_held (c : Conditioner) (g : PlatenConfig) : (c.stow g).runHeld = c.runHeld := by
  unfold Conditioner.stow
  split
  · rfl
  · split <;> rfl

theorem State.runHeld_armCleared (s : State) (p : PlatenId) : ((s.armCleared p).cond p).runHeld = (s.cond p).runHeld := by
  have resumed : ((s.resumeRun p).cond p).runHeld = (s.cond p).runHeld := by
    unfold State.resumeRun
    split
    · rfl
    · rw [State.modCond_eq, State.cond_setCond_self, Conditioner.resumeRun_held]
  unfold State.armCleared
  split
  · rw [State.modCond_eq, State.cond_setCond_self, Conditioner.stow_held, resumed]
  · exact resumed

/-! ## The heads after the arms -/

theorem State.acts_interlocks (s : State) : Machine.Acts (· ∈ headIds) (fun _ => True) s.armsCleared s.clearTrip := Acts.interlocks _

theorem State.cascade_interlocks (s : State) : Cascade s.armsCleared s.clearTrip := .foldl Cascade.clearInterlock ..

theorem State.config_clearTrip (s : State) (p : PlatenId) : (s.clearTrip.base p).config = (s.base p).config :=
  ((Cascade.clearTrip s).base p).config

theorem State.tripped_cleared (s : State) : s.clearTrip.trip.tripped = false := by
  rw [s.tripped_clearTrip]

/-- A platen that a run holds at the end of the clearing, when speed and outer limit are decided (R54, R138). -/
theorem State.runs_settled (run : (s.clearTrip.station (.platen p)).holder = some .conditioner)
    (held : (s.clearTrip.cond p).runHeld = true) :
    (s.clearTrip.settle.base p).speed = (s.base p).config.conditioningSpeed ∧
      s.clearTrip.settle.cond p = { s.clearTrip.cond p with outer := .outer } := by
  have headless : s.clearTrip.headOn p = none := State.headOn_eq_none fun g holds => by rw [run] at holds; cases holds
  exact ⟨by rw [State.speed_settle, State.speedWanted_run s.tripped_cleared run held, s.config_clearTrip],
    State.cond_settle_outer (State.outerWanted_noHead headless)⟩

/-! ## A suspended run (R149) -/

theorem State.clearTrip_run {m : ArmMotion} (suspended : (s.cond p).arm = .suspended .exSitu m)
    (moving : (s.base p).stalled = false) (held : (s.cond p).runHeld = true)
    (run : (s.station (.platen p)).holder = some .conditioner) :
    (s.clearTrip.station (.platen p)).holder = some .conditioner ∧
      ∃ o, s.clearTrip.cond p = { (s.cond p).resumeRun (s.base p).config with outer := o } := by
  have early : Machine.Acts (fun _ => True) (fun _ => False) s.tripCleared s.linesHanded := s.acts_linesHanded fun _ => trivial
  obtain ⟨o, cond⟩ := early.exSitu (p := p) run (by
    show (s.cond p).arm.mode = _
    rw [suspended]
    rfl)
  have cond' : s.linesHanded.cond p = { s.cond p with outer := o } := cond
  have run' := (early.run p run).1
  obtain ⟨v, before, after⟩ := s.armsCleared_turn p
  have clear : v.trip.tripped = false := by
    rw [before.trip, s.cascade_linesHanded.trip]
    rfl
  have config : (v.base p).config = (s.base p).config := by
    rw [before.base]
    exact (s.cascade_linesHanded.base p).config
  have mode : (((v.cond p).resumeRun (v.base p).config).arm).mode = some .exSitu ∧
      (v.cond p).resumeRun (v.base p).config = { (s.cond p).resumeRun (s.base p).config with outer := o } := by
    rw [before.cond, cond', config]
    unfold Conditioner.resumeRun
    rw [suspended]
    cases m <;> exact ⟨rfl, rfl⟩
  have resumed : (v.resumeRun p).cond p = (v.cond p).resumeRun (v.base p).config :=
    State.cond_resumeRun (by rw [before.base]; exact early.unstalled moving) clear
  have cleared : v.armCleared p = v.resumeRun p := by
    unfold State.armCleared
    split
    · next arm =>
      rw [resumed] at arm
      rw [arm] at mode
      cases mode.1
    · rfl
  have held' : ((v.resumeRun p).cond p).runHeld = true := by
    rw [resumed, Conditioner.resumeRun_held, before.cond, cond']
    exact held
  have turned : v.condTripCleared p = v.resumeRun p := by
    rw [State.condTripCleared_eq, cleared]
    exact State.tryClaim_not (.inr (.inr (.inr (.inl held'))))
  have run'' : (s.armsCleared.station (.platen p)).holder = some .conditioner := by
    obtain ⟨c, writes⟩ := v.resumeRun_writes p
    rw [after.station, turned, writes]
    show (v.station (.platen p)).holder = _
    rw [before.station]
    exact run'
  have late := s.acts_interlocks.exSitu run'' (by rw [after.cond, turned, resumed]; exact mode.1)
  obtain ⟨o', late⟩ := late
  refine ⟨(s.acts_interlocks.run p run'').1, o', ?_⟩
  rw [late, after.cond, turned, resumed, mode.2]

/-! ## A suspended in-situ sweep (R149) -/

theorem State.SweepEnds.congr {b : Prop} (k : s.SweepEnds p b) (cond : t.cond p = s.cond p)
    (config : (t.base p).config = (s.base p).config) : t.SweepEnds p b := by
  rw [State.SweepEnds, cond, config]
  exact k

/-- After the turn of its unit an in-situ sweep has stowed. -/
theorem State.SweepEnds.armCleared (k : s.SweepEnds p True) : (s.armCleared p).SweepEnds p False := by
  have still : (s.cond p).arm.mode ≠ some .exSitu := by
    obtain ⟨-, h, m, suspended⟩ | ⟨stowed, -⟩ := k
    · rw [suspended]; exact nofun
    · rw [stowed]; split <;> exact nofun
  unfold State.armCleared
  rw [State.resumeRun_still still]
  split
  · next arm =>
    rw [State.SweepEnds, State.modCond_eq, State.cond_setCond_self, Conditioner.stow_suspended arm]
    refine .inr ⟨rfl, ?_⟩
    show ArmState.force _ _ = 0
    split <;> rfl
  · next other =>
    obtain ⟨-, h, m, suspended⟩ | stowed := k
    · exact absurd suspended (other h m)
    · exact .inr stowed

theorem State.clearTrip_sweep {h : HeadId} {m : ArmMotion} (suspended : (s.cond p).arm = .suspended (.inSitu h) m)
    (unowed : (s.pad p).owed = 0) (away : ∀ g, (s.carrier g).position ≠ .stands (.platen p)) :
    s.clearTrip.SweepEnds p False := by
  have early : Machine.Acts (fun _ => True) (fun _ => False) s.tripCleared s.linesHanded := s.acts_linesHanded fun _ => trivial
  have begun : s.tripCleared.SweepEnds p True := .inl ⟨trivial, h, m, suspended⟩
  obtain ⟨ends, away'⟩ := early.sweepEnds begun away
  obtain ⟨v, before, after⟩ := s.armsCleared_turn p
  have cleared := (ends.congr before.cond (congrArg Timebase.config before.base)).armCleared
  have turned : v.condTripCleared p = v.armCleared p := by
    obtain ⟨c, writes⟩ := v.armCleared_writes p
    have pad : (v.armCleared p).pad p = s.pad p := by
      rw [writes]
      show v.pad p = _
      rw [before.pad]
      exact congrArg (PerPlaten.get · p) early.pads
    rw [State.condTripCleared_eq]
    exact State.tryClaim_not (.inl (by rw [pad]; exact unowed))
  rw [turned] at after
  have ends' := cleared.congr after.cond (congrArg Timebase.config after.base)
  refine (s.acts_interlocks.sweepEnds ends' fun g => ?_).1
  rw [(s.aside_armsCleared g).carrier]
  exact away' g

/-! ## An owed run (R145, R149) -/

theorem State.clearTrip_claims (owed : 0 < (s.pad p).owed) (active : (s.disk p).state = .active)
    (unheld : (s.cond p).runHeld = false) (free : (s.station (.platen p)).holder = none)
    (inn : (s.station (.platen p)).inService = true) :
    (s.clearTrip.station (.platen p)).holder = some .conditioner ∧ (s.clearTrip.cond p).runHeld = true ∧
      (s.clearTrip.cond p).sweepsDone = 0 ∧
      ((s.cond p).arm = .stowed → (s.clearTrip.cond p).arm = .deploying .exSitu) := by
  have early : Machine.Acts (fun _ => True) (fun _ => False) s.tripCleared s.linesHanded := s.acts_linesHanded fun _ => trivial
  obtain ⟨free', disk, held⟩ := early.unclaimed (p := p) id free
  have held' : (s.linesHanded.cond p).runHeld = false := held.trans unheld
  have active' : (s.linesHanded.disk p).state = .active := by rw [disk]; exact active
  have inn' : (s.linesHanded.station (.platen p)).inService = true :=
    ((s.cascade_linesHanded.station (.platen p)).inService).trans inn
  have pad : s.linesHanded.pad p = s.pad p := congrArg (PerPlaten.get · p) early.pads
  obtain ⟨v, before, after⟩ := s.armsCleared_turn p
  obtain ⟨c, writes⟩ := v.armCleared_writes p
  have station : (v.armCleared p).station (.platen p) = s.linesHanded.station (.platen p) := by
    rw [writes]
    exact before.station
  have claims : (v.armCleared p).mayClaim p = true := by
    rw [State.mayClaim_iff, State.runHeld_armCleared, before.cond]
    refine ⟨?_, ?_, ?_, held'⟩
    · rw [writes]
      show 0 < (v.pad p).owed
      rw [before.pad, pad]
      exact owed
    · rw [writes]
      show (v.disk p).state = .active
      rw [before.disk]
      exact active'
    · rw [writes]
      show v.trip.tripped = false
      rw [before.trip, s.cascade_linesHanded.trip]
      rfl
  have turned : v.condTripCleared p = (v.armCleared p).startRun p := by
    rw [State.condTripCleared_eq]
    exact State.tryClaim_of claims (by rw [station]; exact free') (by rw [station]; exact inn')
  rw [turned] at after
  obtain ⟨holder, runs, sweeps, deploys⟩ := (v.armCleared p).startRun_effect p
  have run : (s.armsCleared.station (.platen p)).holder = some .conditioner := by rw [after.station, holder]
  obtain ⟨run', kept⟩ := s.acts_interlocks.run p run
  rw [after.cond] at kept
  refine ⟨run', kept.held.trans runs, kept.sweeps.trans sweeps, fun stowed => kept.arm (deploys ?_)⟩
  have stowed' : (v.cond p).arm = .stowed := by rw [before.cond]; exact (StowKept.linesHanded s).kept stowed
  have same : v.resumeRun p = v := State.resumeRun_still (by rw [stowed']; exact nofun)
  unfold State.armCleared
  rw [same, stowed']
  exact stowed'

end

end Sys2Proof.Machine
end

section
/-!
PROOFS. RESUME_MODULE (R132) where no other head is in TRIP: a step that asks for its station, a POLISH step that takes its clock
and its line back, and a line handed on.
-/
namespace Sys2Proof.Machine

section
variable {s t u : State} {h g : HeadId} {l : LineId}

/-! ## No head comes into TRIP when lines are handed on -/

/-- The current activity of the head is no intervention of class TRIP. -/
def State.untripped (s : State) (h : HeadId) : Prop := ∀ cs x, (s.seq h).activity ≠ some (.intervention .trip cs x)

theorem State.not_inTrip_of_untripped (k : s.untripped h) : ¬s.inTrip h := fun ⟨_, cs, x, trip⟩ => k cs x trip

theorem State.not_inTrip_of_aside (k : ¬s.inTrip h) (aside : Aside h s t) : ¬t.inTrip h := by
  rw [State.inTrip, aside.seq]
  exact k

theorem State.untripped_of_stepKept (k : s.stepKept t h) : t.untripped h := by
  obtain ⟨w, seq⟩ := k
  intro cs x trip
  rw [seq] at trip
  cases trip

theorem Activity.addCause_trip {a : Activity} {c : Cause} {cs : List Cause} {x : Option ParkProgress}
    (trip : a.addCause c = .intervention .trip cs x) : ∃ ks, a = .intervention .trip ks x := by
  unfold Activity.addCause at trip
  split at trip
  · cases trip
  · split at trip
    · cases trip; exact ⟨_, rfl⟩
    · cases trip; exact ⟨_, rfl⟩

theorem State.untripped_takeCause (k : s.untripped h) {c : Cause} (lift : c.cls = .lift) : (s.takeCause h c).untripped h := by
  unfold State.takeCause
  split
  · exact k
  · split
    · exact k
    · next a busy =>
      split
      · intro cs x trip
        rw [State.seq_beginIntervention (by rw [lift]; exact nofun)] at trip
        have cls : some (Activity.intervention c.cls [c] none) = some (.intervention .trip cs x) := trip
        rw [lift] at cls
        cases cls
      · split
        · intro cs x trip
          rw [State.modSeq_eq, State.seq_setSeq_self] at trip
          obtain ⟨ks, before⟩ := Activity.addCause_trip (Option.some.inj trip)
          exact k ks x (by rw [busy, before])
        · exact k

theorem State.untripped_takeCauses {cs : List Cause} (k : s.untripped h) (lift : ∀ c ∈ cs, c.cls = .lift) :
    (cs.foldl (fun t c => t.takeCause h c) s).untripped h := by
  induction cs generalizing s with
  | nil => exact k
  | cons c cs ih =>
    exact ih (State.untripped_takeCause k (lift c List.mem_cons_self)) fun x mem => lift x (List.mem_cons_of_mem _ mem)

theorem State.stepKept_enterKeepout {w : Working} {r : PolishRecord} {p : PlatenId} (polishes : s.polishing h = some (w, r, p)) :
    s.stepKept (s.enterKeepout h).1 h := by
  have awaited : s.stepKept (s.armAwaited h p w) h :=
    (State.stepKept_setWorking s h w.waitsForArm).of_aside (.refreshOuter ..)
  unfold State.enterKeepout
  rw [polishes]
  dsimp only
  split
  · exact awaited.trans (State.stepKept_enterGap (State.polishing_armAwaited polishes))
  · exact awaited

theorem State.untripped_toKeepout {w : Working} {r : PolishRecord} {p : PlatenId} (polishes : s.polishing h = some (w, r, p)) :
    (s.toKeepout h).untripped h :=
  State.untripped_takeCauses (State.untripped_of_stepKept (State.stepKept_enterKeepout polishes))
    fun _ mem => State.lift_enterKeepout mem

theorem State.not_inTrip_handOn (l : LineId) (n : Nat) (k : ¬s.inTrip g) : ¬(s.handOn l n).inTrip g := by
  induction n generalizing s with
  | zero => exact k
  | succ n ih =>
    unfold State.handOn
    split
    · next p rest _ _ _ =>
      dsimp only
      split
      · exact ih k
      · split
        · exact ih k
        · next j _ _ w r q polishes =>
          let v := (s.modLine l fun k => { k with wait := rest }).modLine l fun k => { k with state := .bound p j r.flow }
          refine ih (s := v.toKeepout j) ?_
          by_cases own : g = j
          · subst own
            exact State.not_inTrip_of_untripped (State.untripped_toKeepout (s := v) polishes)
          · exact State.not_inTrip_of_aside (s := v) k (.toKeepout v (Ne.symm own))
    · exact k

theorem State.not_inTrip_handOns (ls : List LineId) (k : ¬s.inTrip g) :
    ¬(ls.foldl (fun t l => t.handOn l (t.line l).wait.length) s).inTrip g := by
  induction ls generalizing s with
  | nil => exact k
  | cons l ls ih => exact ih (State.not_inTrip_handOn l _ k)

theorem State.not_inTrip_armsCleared (k : ¬s.inTrip g) : ¬s.armsCleared.inTrip g := by
  have owed : ¬s.owedSent.inTrip g := by
    rw [State.inTrip, (s.owedSent_at g).1]
    exact k
  exact State.not_inTrip_of_aside (State.not_inTrip_handOns lineIds owed) (s.aside_armsCleared g)

theorem State.clearInterlocks_not (gs : List HeadId) (k : ∀ g ∈ gs, ¬s.inTrip g) : gs.foldl State.clearInterlock s = s := by
  induction gs with
  | nil => rfl
  | cons g gs ih =>
    rw [List.foldl_cons, State.clearInterlock_not (k g List.mem_cons_self)]
    exact ih fun x mem => k x (List.mem_cons_of_mem _ mem)

/-- No head is in TRIP: the clearing ends with the arms. -/
theorem State.clearTrip_none (none : ∀ g, ¬s.inTrip g) : s.clearTrip = s.armsCleared := by
  have others (g : HeadId) : ¬s.armsCleared.inTrip g := State.not_inTrip_armsCleared (none g)
  rw [State.clearTrip_eq]
  generalize s.armsCleared = v at others
  exact State.clearInterlocks_not headIds fun g _ => others g

/-- One head alone is in TRIP, and what it goes on with leaves the others as they are. -/
theorem State.clearTrip_only (alone : ∀ g, g ≠ h → ¬s.inTrip g)
    (aside : ∀ g, g ≠ h → Aside g s.armsCleared (s.armsCleared.clearInterlock h)) :
    s.clearTrip = s.armsCleared.clearInterlock h := by
  obtain ⟨pre, post, before, after, -, turn⟩ := foldl_turn State.clearInterlock headIds_nodup (mem_headIds h) s.armsCleared
  have others (g : HeadId) (ne : g ≠ h) : ¬s.armsCleared.inTrip g := State.not_inTrip_armsCleared (alone g ne)
  rw [State.clearTrip_eq, turn, State.clearInterlocks_not pre fun g mem => others g fun own => before (own ▸ mem)]
  refine State.clearInterlocks_not post fun g mem => ?_
  have ne : g ≠ h := fun own => after (own ▸ mem)
  exact State.not_inTrip_of_aside (others g ne) (aside g ne)

/-! ## The stages before the heads, at lines and stations -/

theorem State.owedSent_writes (s : State) : ∃ c, s.owedSent = { s.tripCleared with carriers := c } := by
  have each : ∀ (gs : List HeadId) (u : State), ∃ c, gs.foldl State.sendOwed u = { u with carriers := c } := by
    intro gs
    induction gs with
    | nil => exact fun u => ⟨_, rfl⟩
    | cons g gs ih =>
      intro u
      have first : ∃ c, u.sendOwed g = { u with carriers := c } := by
        obtain ⟨c, moved⟩ := u.forwardMove_writes g
        unfold State.sendOwed
        split
        · exact ⟨c, moved⟩
        · exact ⟨c, moved⟩
        · exact ⟨_, rfl⟩
      obtain ⟨c, first⟩ := first
      obtain ⟨c', rest⟩ := ih (u.sendOwed g)
      exact ⟨c', by rw [List.foldl_cons, rest, first]⟩
  exact each headIds _

theorem State.line_owedSent (s : State) (l : LineId) : s.owedSent.line l = s.line l := by
  obtain ⟨c, writes⟩ := s.owedSent_writes
  rw [writes]
  rfl

theorem State.line_withPlatens (s : State) (r : PerStation Station) (c : PerPlaten Conditioner) (l : LineId) :
    ({ s with stations := r, conds := c } : State).line l = s.line l := rfl

theorem State.line_armsCleared (s : State) (l : LineId) : s.armsCleared.line l = s.linesHanded.line l := by
  obtain ⟨r, c, writes⟩ := s.armsCleared_writes
  rw [writes]
  exact State.line_withPlatens ..

/-- Heads leave a free station free that none of them asks for (R3). -/
theorem Acts.free {W : HeadId → Prop} {D : StationId → Prop} {d : StationId} (k : Acts W D s t) (unasked : ¬D d)
    (free : (s.station d).holder = none) : (t.station d).holder = none := by
  induction k with
  | refl s => exact free
  | trans _ _ first second => exact second unasked (first unasked free)
  | @outer W D s q =>
    obtain ⟨c, k, r, refreshed⟩ := s.refreshOuter_writes q
    rw [refreshed]
    exact free
  | @leave W D s j w =>
    rw [State.station_leaveWaits]
    exact free
  | @take W D s e j asked none unowed =>
    rw [State.station_setStation_ne _ _ fun own => unasked (by rw [own]; exact asked)]
    exact free
  | @join W D s e j asked =>
    rw [State.station_setStation_ne _ _ fun own => unasked (by rw [own]; exact asked)]
    exact free
  | called _ _ acts => exact acts unasked free
  | _ => exact free

theorem State.station_tryClaim {d : StationId} {j : PlatenId} (unowed : d = .platen j → (s.pad j).owed = 0) :
    (s.tryClaim j).station d = s.station d := by
  by_cases own : d = .platen j
  · rw [State.tryClaim_not (.inl (unowed own))]
  · unfold State.tryClaim
    dsimp only
    split
    · exact State.station_setStation_ne _ _ own
    · rfl

/-- No run claims a station that owes none (R145). -/
theorem State.station_condsTripCleared {d : StationId} (ps : List PlatenId) (unowed : ∀ q, d = .platen q → (s.pad q).owed = 0) :
    (ps.foldl State.condTripCleared s).station d = s.station d := by
  induction ps generalizing s with
  | nil => rfl
  | cons j ps ih =>
    obtain ⟨c, cleared⟩ := s.armCleared_writes j
    obtain ⟨r, c', writes⟩ := s.condTripCleared_writes j
    have step : (s.condTripCleared j).station d = s.station d := by
      rw [State.condTripCleared_eq, State.station_tryClaim (by rw [cleared]; exact unowed j), cleared]
      rfl
    exact (ih (by rw [writes]; exact unowed)).trans step

theorem State.pads_withPlatens (s : State) (r : PerStation Station) (c : PerPlaten Conditioner) :
    ({ s with stations := r, conds := c } : State).pads = s.pads := rfl

theorem State.pads_armsCleared (s : State) : s.armsCleared.pads = s.pads := by
  obtain ⟨r, c, writes⟩ := s.armsCleared_writes
  have early : Machine.Acts (fun _ => True) (fun _ => False) s.tripCleared s.linesHanded := s.acts_linesHanded fun _ => trivial
  have pads : s.linesHanded.pads = s.tripCleared.pads := early.pads
  rw [writes, State.pads_withPlatens, pads]
  rfl

/-! ## A line handed on (R86) -/

theorem State.handedOn_clearTrip (none : ∀ g, ¬s.inTrip g) (idle : (s.line l).state = .idle)
    (others : ∀ k, k ≠ l → (s.line k).state = .idle → (s.line k).wait = []) (q : Port) :
    s.HandedOn (s.clearTrip.accepted q) l := by
  intro n rest g w r wait on polishes up _ _ calm
  obtain ⟨seq, zone, carrier⟩ := s.owedSent_at g
  obtain ⟨running, step, stands, kind⟩ := State.polishing_iff.1 polishes
  have aside : Aside g s s.owedSent := ⟨seq, zone, by rw [carrier, Carrier.owed_stands stands]⟩
  obtain ⟨c, writes⟩ := s.owedSent_writes
  have base : s.owedSent.base n = s.base n := by rw [writes]; rfl
  have cond : s.owedSent.cond n = s.cond n := by rw [writes]; rfl
  have on' : s.owedSent.headOn n = some g := by rw [writes]; exact on
  have clear : s.owedSent.trip.tripped = false := by rw [writes]; rfl
  have handed : s.owedSent.Handed s.linesHanded l n rest g w r :=
    State.handed_handOnAll clear (by rw [s.line_owedSent]; exact idle)
      (fun k ne => by rw [s.line_owedSent]; exact others k ne) (by rw [s.line_owedSent]; exact wait) on'
      (aside.polishing.trans polishes) (aside.isDown.trans up) (by rw [base, cond]; exact calm)
  have late := s.aside_armsCleared g
  have seen : s.Handed (s.clearTrip.accepted q) l n rest g w r :=
    handed.congr (fun x y => by rw [s.line_owedSent]) aside (congrArg Timebase.config base) (congrArg Conditioner.position cond)
      (by rw [State.line_accepted, State.clearTrip_none none, s.line_armsCleared])
      (by rw [State.zone_accepted, State.clearTrip_none none, late.zone])
      (by rw [State.seq_accepted, State.clearTrip_none none, late.seq])
  exact ⟨seen.line, seen.waits, seen.lowers⟩

/-! ## A step that asks for its station (R123) -/

section
variable {w : Working} {cs : List Cause} {x : Option ParkProgress} {rest : List Context} {tr : Option Position}

theorem State.station_popped (s : State) (h : HeadId) (rest : List Context) (w : Working) (d : StationId) :
    (s.popped h rest w).station d = (s.station d).leave h := by
  have lifted : (s.popped h rest w).station d = (s.exited h rest).station d := by
    obtain ⟨z, c, k, r, writes⟩ := (s.exited h rest).liftUp_writes h
    rw [State.popped, writes]
    rfl
  exact lifted.trans (State.station_leaveWaits s h d)

theorem State.pads_popped (s : State) (h : HeadId) (rest : List Context) (w : Working) :
    (s.popped h rest w).pads = s.pads := by
  obtain ⟨z, c, k, r, writes⟩ := (s.exited h rest).liftUp_writes h
  rw [State.popped, writes]
  rfl

theorem State.closedTo_congr {d : StationId} (station : (t.station d).inService = (s.station d).inService)
    (pads : t.pads = s.pads) : t.closedTo d = s.closedTo d := by
  have pad (p : PlatenId) : t.pad p = s.pad p := congrArg (PerPlaten.get · p) pads
  unfold State.closedTo
  rw [station]
  cases d with
  | platen p =>
    dsimp only
    rw [pad]
  | _ => rfl

/-- An intervention over a step whose station is free ends: the step has its station, and its move is sent (R4, R123). -/
theorem State.endIntervention_granted {o : StationId} (stack : (s.seq h).stack = ⟨.step w, tr⟩ :: rest)
    (stands : (s.carrier h).position = .stands o) (ne : o ≠ w.station) (op : s.closedTo w.station = false)
    (free : (s.station w.station).holder = none)
    (unkept : ∀ q, w.station = .platen q → (s.pad q).owed = 0 ∧ (s.pad q).state ≠ .breakIn)
    (clear : s.trip.tripped = false) :
    (s.endIntervention h).seq h =
      { s.seq h with activity := some (.step { w.popped with phase := some .inTransit }), stack := rest } ∧
      ((s.endIntervention h).station w.station).holder = some (.head h) ∧
      (s.endIntervention h).carrier h = (s.carrier h).send false o w.station ∧
      ∀ g, g ≠ h → Aside g s (s.endIntervention h) := by
  obtain ⟨u, popped⟩ : ∃ u, u = s.popped h rest w := ⟨_, rfl⟩
  have seq : u.seq h = { s.seq h with activity := some (.step w.popped), stack := rest } := by
    rw [popped]; exact State.seq_popped ..
  have carrier : u.carrier h = s.carrier h := by rw [popped]; exact State.carrier_popped ..
  have station : u.station w.station = (s.station w.station).leave h := by rw [popped]; exact State.station_popped ..
  have pads : u.pads = s.pads := by rw [popped]; exact State.pads_popped ..
  have tripless : u.trip.tripped = false := by rw [popped, State.trip_popped]; exact clear
  have current : u.current h = some w.popped := by rw [popped]; exact State.current_popped ..
  have aside (g : HeadId) (other : h ≠ g) : Aside g s u := by rw [popped]; exact State.aside_popped s rest w other
  have inService : (u.station w.popped.station).inService = (s.station w.popped.station).inService :=
    (congrArg Station.inService station).trans rfl
  have op' : u.closedTo w.popped.station = false := (State.closedTo_congr inService pads).trans op
  have unkept' : u.keptForRun w.popped.station = false := by
    refine State.keptForRun_eq_false_iff.2 fun q own => ?_
    rw [State.pad, pads]
    exact unkept q own
  have free' : (u.station w.popped.station).holder = none := by
    show (u.station w.station).holder = none
    rw [station]
    exact free
  have asked : s.endIntervention h = u.askStation h := by
    rw [State.endIntervention_eq, stack, State.unwind_step, State.resumeStep_exited, popped]
  rw [asked, State.askStation_granted current (by rw [carrier]; exact stands) ne op' free' unkept']
  refine ⟨?_, ?_, ?_, fun g other => ?_⟩
  · have same : ((u.modStation w.popped.station fun r => { r with holder := some (.head h) }).sendMove h o w.popped.station).seq h =
        u.seq h := rfl
    rw [State.setWorking, State.modSeq_eq, State.seq_setSeq_self, same, seq]
  · have held : ((u.modStation w.popped.station fun r => { r with holder := some (.head h) }).station w.popped.station).holder =
        some (.head h) := by
      rw [State.modStation_eq, State.station_setStation_self]
    exact held
  · show ((u.modStation w.station _).sendMove h o w.station).carrier h = _
    rw [State.sendMove_clear (s := u.modStation w.station _) tripless, State.modCarrier_eq, State.carrier_setCarrier_self]
    have same : (u.modStation w.station fun r => { r with holder := some (.head h) }).carrier h = s.carrier h := carrier
    rw [same]
    rfl
  · exact (((aside g (Ne.symm other)).trans (.modStation ..)).trans (.sendMove _ _ _ (Ne.symm other))).trans
      (.setWorking _ _ (Ne.symm other))

section
variable (running : (s.seq h).state = .running) (trip : (s.seq h).activity = some (.intervention .trip cs x))
  (stack : (s.seq h).stack = ⟨.step w, tr⟩ :: rest) (alone : ∀ g, g ≠ h → ¬s.inTrip g)
include running trip stack alone

theorem State.clearTrip_granted {o : StationId} (stands : (s.carrier h).position = .stands o) (ne : o ≠ w.station)
    (op : s.closedTo w.station = false) (free : (s.station w.station).holder = none)
    (unkept : ∀ q, w.station = .platen q → (s.pad q).owed = 0 ∧ (s.pad q).state ≠ .breakIn) :
    s.clearTrip.seq h =
      { s.seq h with activity := some (.step { w.popped with phase := some .inTransit }), stack := rest } ∧
      (s.clearTrip.station w.station).holder = some (.head h) ∧
      s.clearTrip.carrier h = (s.carrier h).send false o w.station := by
  obtain ⟨seq, zone, carrier, -⟩ := State.armsCleared_at (State.polishing_of_intervention trip)
  rw [Carrier.owed_stands stands] at carrier
  have early : Machine.Acts (fun _ => True) (fun _ => False) s.tripCleared s.linesHanded := s.acts_linesHanded fun _ => trivial
  have station : s.armsCleared.station w.station = s.linesHanded.station w.station := by
    refine State.station_condsTripCleared platenIds fun q own => ?_
    rw [State.pad, early.pads]
    exact (unkept q own).1
  have free' : (s.armsCleared.station w.station).holder = none := by
    rw [station]
    exact early.free id free
  have inService : (s.armsCleared.station w.station).inService = (s.station w.station).inService :=
    ((s.cascade_linesHanded.trans s.cascade_armsCleared).station w.station).inService
  have op' : s.armsCleared.closedTo w.station = false := (State.closedTo_congr inService s.pads_armsCleared).trans op
  have ends : s.armsCleared.clearInterlock h = s.armsCleared.endIntervention h :=
    State.clearInterlock_of (by rw [seq]; exact running) (by rw [seq]; exact trip)
  obtain ⟨seq', held, carrier', aside⟩ := State.endIntervention_granted (by rw [seq]; exact stack) (by rw [carrier]; exact stands)
    ne op' free' (fun q own => by rw [State.pad, s.pads_armsCleared]; exact unkept q own) s.trip_armsCleared
  rw [State.clearTrip_only alone (by rw [ends]; exact aside), ends]
  exact ⟨by rw [seq', seq], held, by rw [carrier', carrier]⟩

end

end

end

end Sys2Proof.Machine
end

section
/-!
PROOFS. RESUME_MODULE (R132) over a POLISH step at its platen (R123), and RESUME_MODULE as a whole.
-/
namespace Sys2Proof.Machine

section
variable {s t : State} {h g : HeadId} {w : Working} {r : PolishRecord} {q : PlatenId} {rest : List Context}
  {tr : Option Position}

/-- What a step that has its line, and goes on by the arm, leaves of its timebase and of the lines (R32). -/
theorem State.enterAcquire_kept (polishes : s.polishing h = some (w, r, q)) (up : s.isDown h = false)
    (ready : s.lineReady q r.line) (free : s.IdleLinesFree)
    (calm : (s.base q).config.keepOut < (s.cond q).position ∨
      (s.base q).stalled = false ∧ (s.base q).direction = .forward) :
    (s.enterAcquire h).base q = s.base q ∧ ∀ l, (s.enterAcquire h).line l = (s.supplied h q w r).line l := by
  obtain ⟨polishes', up', base, arm⟩ := State.supplied_ready polishes up
  have calm' : (s.supplied h q w r).isDown h = false ∧
        ((s.supplied h q w r).base q).config.keepOut < ((s.supplied h q w r).cond q).position ∨
      ((s.supplied h q w r).base q).stalled = false ∧ ((s.supplied h q w r).base q).direction = .forward := by
    rw [base, arm]
    exact calm.imp_left fun beyond => ⟨up', beyond⟩
  rw [State.enterAcquire_goes polishes up ready free calm]
  refine ⟨?_, fun l => ?_⟩
  · rw [State.base, State.base_toKeepout polishes' calm']
    exact base
  · rw [State.line, State.lines_toKeepout polishes' calm']
    rfl

/-- The working record with which a suspended POLISH step takes its clock and its line back (R115, R123, R142). -/
def Working.reclaiming (w : Working) (r : PolishRecord) (usable : Bool) : Working :=
  { w.popped with
    resume := none
    flags := { w.flags with noInsitu := w.flags.noInsitu || (r.inSitu && !usable) } }

theorem Working.waitsForArm_acquiring (w : Working) (r : PolishRecord) (usable : Bool) :
    (w.popped.acquiring r usable).waitsForArm = { w.reclaiming r usable with phase := some .keepoutWait } := rfl

theorem Working.touched_acquiring (w : Working) {r : PolishRecord} (long : 0 < r.gap) (usable : Bool) (lead : Nat) :
    (w.popped.acquiring r usable).touched r lead =
      { w.reclaiming r usable with
        phase := some .gap
        gapRemaining := (effectiveGap r lead false).1
        flags := { (w.reclaiming r usable).flags with
          gapExtended := w.flags.gapExtended || (effectiveGap r lead false).2 } } := by
  have lasts : (effectiveGap r lead (w.popped.acquiring r usable).keptLine).1 ≠ 0 := (effectiveGap_pos long ..).ne'
  rw [Working.touched, if_neg lasts]
  rfl

/-- A head in an intervention over a POLISH step that stands, with its wafer, at the platen it holds, its line there for it. -/
structure State.Reclaims (s : State) (h : HeadId) (w : Working) (tr : Option Position) (rest : List Context)
    (r : PolishRecord) (q : PlatenId) : Prop where
  running : (s.seq h).state = .running
  saved : (s.seq h).stack = ⟨.step w, tr⟩ :: rest
  kind : w.record.kind = .polish r
  platen : w.platen = some q
  station : w.station = .platen q
  stands : (s.carrier h).position = .stands (.platen q)
  vacuum : (s.seq h).vacuum = true
  held : (s.station (.platen q)).holder = some (.head h)
  clear : s.trip.tripped = false
  empty : ∀ l, (s.line l).wait = []
  line : r.line = .none ∨ ∃ l, r.line = .line l ∧ (s.line l).state = .idle
  calm : (s.base q).config.keepOut < (s.cond q).position ∨ (s.base q).stalled = false ∧ (s.base q).direction = .forward

/-- The step takes its clock and its line back, and goes on by the arm (R123). -/
structure State.Reclaimed (s t : State) (h : HeadId) (w : Working) (rest : List Context) (r : PolishRecord) (q : PlatenId) :
    Prop where
  base : t.base q = (s.base q).own h w.accrued w.limit r.clock
  line : ∀ l, r.line = .line l → t.line l = { s.line l with state := .bound q h r.flow }
  waits : (s.base q).config.keepOut < (s.cond q).position → t.isDown h = false ∧
    t.seq h = { s.seq h with
      activity := some (.step { w.reclaiming r (s.diskUsable q) with phase := some .keepoutWait }), stack := rest }
  lowers : (s.cond q).position ≤ (s.base q).config.keepOut → 0 < r.gap → t.isDown h = true ∧
    t.seq h = { s.seq h with
      stack := rest
      activity := some (.step { w.reclaiming r (s.diskUsable q) with
        phase := some .gap
        gapRemaining := (effectiveGap r (s.base q).config.lead false).1
        flags := { (w.reclaiming r (s.diskUsable q)).flags with
          gapExtended := w.flags.gapExtended || (effectiveGap r (s.base q).config.lead false).2 } }) }

theorem State.Reclaims.reclaimed (k : s.Reclaims h w tr rest r q) :
    s.Reclaimed (s.endIntervention h) h w rest r q ∧ ∀ g, g ≠ h → Aside g s (s.endIntervention h) := by
  have ends := State.endIntervention_polish k.saved k.kind k.platen k.station k.stands k.vacuum
  have polishes : (s.reclaimed h rest w r q).polishing h = some (w.popped, r, q) :=
    State.polishing_reclaimed k.running k.stands k.kind rest
  have up := State.isDown_reclaimed s h rest w r q
  have base := State.base_reclaimed s h rest w r q
  have arm := State.armPosition_reclaimed s h rest w r q q
  have usable : (s.reclaimed h rest w r q).diskUsable q = s.diskUsable q :=
    State.diskUsable_reclaimed (State.headOn_eq_some_iff.2 k.held) (State.platenOf_eq_some_iff.2 k.stands) rest
  have line (l : LineId) : (s.reclaimed h rest w r q).line l = s.line l :=
    congrArg (PerLine.get · l) (State.lines_reclaimed s h rest w r q)
  have clear : (s.reclaimed h rest w r q).trip.tripped = false := by rw [State.trip_reclaimed]; exact k.clear
  have seq := State.seq_reclaimed s h rest w r q
  have asides (g : HeadId) (ne : g ≠ h) := State.aside_reclaimed s rest w r q (Ne.symm ne)
  have free : (s.reclaimed h rest w r q).IdleLinesFree :=
    State.idleLinesFree_of_empty fun l => by rw [line]; exact k.empty l
  have ready : (s.reclaimed h rest w r q).lineReady q r.line := by
    obtain none | ⟨l, own, idle⟩ := k.line
    · rw [none]; trivial
    · rw [own]; exact .inr ⟨by rw [line]; exact idle, by rw [line]; exact k.empty l, clear⟩
  have calm : ((s.reclaimed h rest w r q).base q).config.keepOut < ((s.reclaimed h rest w r q).cond q).position ∨
      ((s.reclaimed h rest w r q).base q).stalled = false ∧ ((s.reclaimed h rest w r q).base q).direction = .forward := by
    rw [base, arm]
    exact k.calm
  generalize s.reclaimed h rest w r q = u at *
  obtain ⟨base', lines'⟩ := State.enterAcquire_kept polishes up ready free calm
  obtain ⟨-, aside⟩ := State.seated_goes polishes up ready free calm
  have lead : (u.base q).config = (s.base q).config := by rw [base]; rfl
  rw [ends]
  refine ⟨⟨by rw [base', base], fun l own => ?_, fun beyond => ?_, fun within long => ?_⟩,
    fun g ne => (asides g ne).trans (aside g (Ne.symm ne))⟩
  · obtain none | ⟨l', own', idle⟩ := k.line
    · rw [none] at own; cases own
    · rw [own'] at own
      cases own
      rw [lines', State.line_supplied u h q w.popped own' (by rw [line]; exact idle), line]
  · obtain ⟨went, down, -⟩ := State.enterAcquire_awaits polishes up ready free (by rw [lead, arm]; exact beyond)
    refine ⟨down, ?_⟩
    rw [went.seq, seq, usable, Working.waitsForArm_acquiring, ← k.running]
  · obtain ⟨moving, forward⟩ := calm.resolve_left (by rw [lead, arm]; exact Nat.not_lt.2 within)
    obtain ⟨went, zone, -⟩ := State.enterAcquire_touches polishes up ready free (by rw [lead, arm]; exact within) moving forward
      clear fun short => absurd short (effectiveGap_pos long ..).ne'
    refine ⟨by rw [State.isDown, zone], ?_⟩
    rw [went.seq, seq, usable, Working.touched_acquiring w long, lead, ← k.running]

/-- The state before the heads keeps what a POLISH step at its platen needs, where no line is waited for. -/
theorem State.reclaims_armsCleared {cs : List Cause} {x : Option ParkProgress}
    (trip : (s.seq h).activity = some (.intervention .trip cs x)) (k : s.tripCleared.Reclaims h w tr rest r q) :
    s.armsCleared.Reclaims h w tr rest r q ∧ s.armsCleared.base q = s.base q ∧ s.armsCleared.disk q = s.disk q ∧
      (∀ l, s.armsCleared.line l = s.line l) ∧ (s.armsCleared.cond q).position = (s.cond q).position := by
  obtain ⟨seq, zone, carrier, -⟩ := State.armsCleared_at (State.polishing_of_intervention trip)
  have stands : (s.carrier h).position = .stands (.platen q) := k.stands
  rw [Carrier.owed_stands stands] at carrier
  have quiet : s.linesHanded = s.owedSent :=
    State.handOnAll_of_free (State.idleLinesFree_of_empty fun l => by rw [s.line_owedSent]; exact k.empty l)
  obtain ⟨c, owed⟩ := s.owedSent_writes
  have arm : (s.armsCleared.cond q).position = (s.cond q).position :=
    ((s.cascade_linesHanded.trans s.cascade_armsCleared).arm q).position
  have line (l : LineId) : s.armsCleared.line l = s.line l := by rw [s.line_armsCleared, quiet, s.line_owedSent]
  obtain ⟨v, before, after⟩ := s.armsCleared_turn q
  rw [quiet, owed] at before
  have held : (v.station (.platen q)).holder = some (.head h) := by rw [before.station]; exact k.held
  obtain ⟨c', cleared⟩ := v.armCleared_writes q
  have turned : v.condTripCleared q = { v with conds := c' } := by
    have busy : ((v.armCleared q).station (.platen q)).holder ≠ none := by
      rw [cleared]
      show (v.station (.platen q)).holder ≠ none
      rw [held]
      exact nofun
    rw [State.condTripCleared_eq, State.tryClaim_not (.inr (.inr (.inr (.inr (.inl busy))))), cleared]
  rw [turned] at after
  have base : s.armsCleared.base q = s.base q := after.base.trans before.base
  have disk : s.armsCleared.disk q = s.disk q := after.disk.trans before.disk
  refine ⟨⟨by rw [seq]; exact k.running, by rw [seq]; exact k.saved, k.kind, k.platen, k.station, by rw [carrier]; exact k.stands,
    by rw [seq]; exact k.vacuum, ?_, s.trip_armsCleared, fun l => by rw [line]; exact k.empty l, ?_, ?_⟩, base, disk, line, arm⟩
  · rw [after.station]
    exact held
  · obtain none | ⟨l, own, idle⟩ := k.line
    · exact .inl none
    · exact .inr ⟨l, own, by rw [line]; exact idle⟩
  · rw [base, arm]
    exact k.calm

theorem State.clearTrip_reclaims {cs : List Cause} {x : Option ParkProgress}
    (trip : (s.seq h).activity = some (.intervention .trip cs x)) (alone : ∀ g, g ≠ h → ¬s.inTrip g)
    (k : s.tripCleared.Reclaims h w tr rest r q) : s.Reclaimed s.clearTrip h w rest r q := by
  obtain ⟨ready, base, disk, line, arm⟩ := State.reclaims_armsCleared trip k
  obtain ⟨seq, -, -, -⟩ := State.armsCleared_at (State.polishing_of_intervention trip)
  obtain ⟨made, aside⟩ := ready.reclaimed
  have ends : s.armsCleared.clearInterlock h = s.armsCleared.endIntervention h :=
    State.clearInterlock_of ready.running (by rw [seq]; exact trip)
  have usable : s.armsCleared.diskUsable q = s.diskUsable q := by rw [State.diskUsable, disk]; rfl
  rw [State.clearTrip_only alone (by rw [ends]; exact aside), ends]
  refine ⟨by rw [made.base, base], fun l own => by rw [made.line l own, line], fun beyond => ?_, fun within long => ?_⟩
  · obtain ⟨up, step⟩ := made.waits (by rw [base, arm]; exact beyond)
    exact ⟨up, by rw [step, seq, usable]⟩
  · obtain ⟨down, step⟩ := made.lowers (by rw [base, arm]; exact within) long
    exact ⟨down, by rw [step, seq, usable, base]⟩

end

/-- Settles O26: by the stages of the clearing, each clause by the turn of its head, of its unit or of its line. -/
theorem resumeModule : Obligations.ResumeModule := by
  intro s opens
  refine ⟨exec_resumeModule_refused opens, fun level clear => ?_, fun level tripped => ?_⟩
  · rw [exec_resumeModule opens level, clear]
    rfl
  · refine ⟨s.clearTrip.accepted .recipe, by rw [exec_resumeModule opens level, if_pos tripped], State.response_accepted .., ?_,
      ?closing, ?intervention, ?deferred, ?step, ?run, ?sweep, ?owed, ?line⟩
    · rw [State.trip_accepted, s.tripped_clearTrip]
    case closing =>
      intro h o d e st transit owes closing _
      obtain ⟨state, carrier⟩ := State.clearTrip_closing transit owes closing
      rw [State.seq_accepted, State.carrier_accepted, state, carrier]
      exact ⟨rfl, rfl, rfl⟩
    case intervention =>
      intro h cs p k x xs tr rest running trip stack unparked _
      rw [State.seq_accepted]
      exact State.clearTrip_intervention running trip stack unparked
    case deferred =>
      intro h o d transit _ untripped
      obtain ⟨seq, carrier⟩ := State.clearTrip_deferred transit untripped
      rw [State.seq_accepted, State.carrier_accepted, seq, carrier]
      exact ⟨rfl, rfl⟩
    case step =>
      intro h cs p w tr rest running trip stack
      refine ⟨fun o st transit still => ?_, fun n kind stands => ?_, fun alone => ?_⟩
      · rw [State.seq_accepted, State.carrier_accepted]
        exact State.clearTrip_forward running trip stack transit still
      · rw [State.seq_accepted, State.carrier_accepted, State.isDown_accepted]
        exact State.clearTrip_dwell running trip stack kind stands
      · have alone' (g : HeadId) (ne : g ≠ h) : ¬s.inTrip g := fun ⟨runs, js, y, inTrip⟩ => alone g ne runs js y inTrip
        refine ⟨fun o stands ne op free unkept => ?_, fun r q kind platen station stands held vacuum empty line calm => ?_⟩
        · rw [State.seq_accepted, State.carrier_accepted, State.station_accepted]
          exact State.clearTrip_granted running trip stack alone' stands ne op free unkept
        · have ready : s.tripCleared.Reclaims h w tr rest r q :=
            ⟨running, stack, kind, platen, station, stands, vacuum, held, rfl, empty, line, calm⟩
          have made := State.clearTrip_reclaims trip alone' ready
          have kept := SettleKept.settle s.clearTrip
          dsimp only
          rw [State.base_accepted, kept.accumulator, kept.owner, made.base, State.isDown_accepted, State.seq_accepted]
          exact ⟨rfl, rfl, fun l own => by rw [State.line_accepted, made.line l own], made.waits, made.lowers⟩
    case run =>
      intro p m suspended moving held run
      obtain ⟨holder, o, cond⟩ := State.clearTrip_run suspended moving held run
      have held' : (s.clearTrip.cond p).runHeld = true := by rw [cond]; exact (Conditioner.resumeRun_held ..).trans held
      obtain ⟨speed, settled⟩ := State.runs_settled holder held'
      rw [State.cond_accepted, State.base_accepted, State.station_accepted, settled, speed, cond]
      unfold Conditioner.resumeRun
      rw [suspended]
      cases m with
      | deploying => exact ⟨rfl, rfl, rfl, held, rfl, rfl, holder, rfl⟩
      | sweeping => exact ⟨rfl, rfl, rfl, held, rfl, rfl, holder, rfl⟩
    case sweep =>
      intro p h m suspended unowed away
      obtain ⟨never, -⟩ | ⟨arm, force⟩ := State.clearTrip_sweep suspended unowed away
      · exact never.elim
      · have rests : (s.clearTrip.cond p).arm.isSweeping = false := by rw [arm]; split <;> rfl
        obtain ⟨o, settled⟩ := ((OuterAlone.settle p s.clearTrip).kept rests).1
        have position : (s.clearTrip.cond p).position = (s.cond p).position := ((Cascade.clearTrip s).arm p).position
        rw [State.cond_accepted, settled]
        refine ⟨?_, force⟩
        show (s.clearTrip.cond p).arm = _
        rw [arm, position, s.config_clearTrip]
    case owed =>
      intro p owed active unheld free inn
      obtain ⟨holder, held, sweeps, arm⟩ := State.clearTrip_claims owed active unheld free inn
      obtain ⟨speed, settled⟩ := State.runs_settled holder held
      rw [State.cond_accepted, State.base_accepted, State.station_accepted, settled, speed]
      exact ⟨holder, held, sweeps, rfl, arm⟩
    case line =>
      intro l idle others untripped
      exact State.handedOn_clearTrip (fun g ⟨runs, js, y, inTrip⟩ => untripped g runs js y inTrip) idle others .recipe

end Sys2Proof.Machine
end

section
/-!
PROOFS. One millisecond as a list of timers (log entry 23): `State.count y` is one count of timer y, and `State.Quiet ys s t`
says what t is when the timers ys have counted once in s and none of them came to its end.
-/
namespace Sys2Proof.Machine

/-! ## The millisecond, timer by timer -/

/-- The timers that count before the beat, in the order of log entry 23. -/
def timersInTurn : List Timer :=
  headIds.map .dwell ++ headIds.map .band ++ headIds.map .move ++ platenIds.map .stall ++ lineIds.map .recovery ++
    platenIds.map .time

/-- One count of a timer. -/
def State.count (s : State) : Timer → State
  | .dwell h => s.tickDwell h
  | .band h => s.tickBand h
  | .move h => s.tickMove h
  | .stall p => s.tickStall p
  | .recovery l => s.tickRecovery l
  | .time p => s.accrue p .time
  | .beat => s.tickBeat

theorem State.tick_eq (s : State) : s.tick = ((timersInTurn.foldl State.count s).count .beat).settle := by
  simp only [timersInTurn, List.foldl_append, List.foldl_map]
  rfl

theorem timersInTurn_nodup : (timersInTurn ++ [Timer.beat]).Nodup := by decide

/-! ## A count that ends nothing -/

/-- The sequencer of a head when its dwell, if it runs, has counted once. -/
def State.counted (s : State) (h : HeadId) : Sequencer :=
  match s.dwelling h with
  | some w => { s.seq h with activity := some (.step { w with dwellRemaining := w.dwellRemaining - 1 }) }
  | none => s.seq h

/-- The carrier when the limit timer of its move has counted once. -/
def Carrier.counted (c : Carrier) : Carrier :=
  { c with
    position := match c.position with
      | .inTransit o d (.moving n l) => .inTransit o d (.moving (n + 1) l)
      | x => x }

/-- The line when its recovery timer has counted once. -/
def Line.counted (k : Line) : Line :=
  { k with
    state := match k.state with
      | .faulted (some n) => .faulted (some (n + 1))
      | x => x }

/-- A TIME step accrues at platen p in this millisecond. -/
def State.accrues (s : State) (p : PlatenId) : Bool :=
  s.gate p && decide ((s.base p).owner.map Owner.clock = some .time)

/-- The timebase when its stall timer has counted, if `stall` says so, and a TIME step has accrued, if `time` says so. -/
def Timebase.counted (b : Timebase) (stall time : Bool) : Timebase :=
  { b with
    stallTimer := if stall then b.stallTimer.map fun n => n + 1 else b.stallTimer
    accumulator := if time then b.accumulator + 1 else b.accumulator }

section
variable {s t : State} {h : HeadId} {p : PlatenId} {l : LineId} {w : Working}

theorem State.counted_some (dwells : s.dwelling h = some w) :
    s.counted h = { s.seq h with activity := some (.step { w with dwellRemaining := w.dwellRemaining - 1 }) } := by
  rw [State.counted, dwells]

theorem State.counted_none (still : s.dwelling h = none) : s.counted h = s.seq h := by rw [State.counted, still]

theorem Carrier.counted_moving {c : Carrier} {o d : StationId} {n m : Nat} (moving : c.position = .inTransit o d (.moving n m)) :
    c.counted = { c with position := .inTransit o d (.moving (n + 1) m) } := by rw [Carrier.counted, moving]

theorem Carrier.counted_still {c : Carrier} (still : ∀ o d n m, c.position ≠ .inTransit o d (.moving n m)) : c.counted = c := by
  unfold Carrier.counted
  split
  · next moving => exact absurd moving (still _ _ _ _)
  · rfl

theorem Line.counted_faulted {k : Line} {n : Nat} (faulted : k.state = .faulted (some n)) :
    k.counted = { k with state := .faulted (some (n + 1)) } := by rw [Line.counted, faulted]

theorem Line.counted_still {k : Line} (still : ∀ n, k.state ≠ .faulted (some n)) : k.counted = k := by
  unfold Line.counted
  split
  · next faulted => exact absurd faulted (still _)
  · rfl

/-! ## What the decisions read is not counted -/

theorem State.dwelling_eq_some_iff :
    s.dwelling h = some w ↔ s.runningStep h = some w ∧ (∃ n, w.record.kind = .dwell n) ∧ w.phase = some .dwell := by
  unfold State.dwelling
  grind

theorem State.dwelling_congr (same : t.seq h = s.seq h) : t.dwelling h = s.dwelling h := by
  unfold State.dwelling State.runningStep State.isRunning State.current
  rw [same]

theorem ZoneMonitor.tick_fields (z : ZoneMonitor) :
    z.tick.inBand = z.inBand ∧ z.tick.bandTimeout = z.bandTimeout ∧ z.tick.allInBand = z.allInBand ∧
      (z.tick.lift = .up ↔ z.lift = .up) := by
  unfold ZoneMonitor.tick ZoneMonitor.allInBand
  grind

/-- The step of a dwelling head is no POLISH step, so its count shows neither in a gate nor in a compare (R59, R60). -/
theorem State.pressing_dwelling (dwells : s.dwelling h = some w) (n : Nat) : { w with dwellRemaining := n }.pressing = false := by
  obtain ⟨-, ⟨m, kind⟩, -⟩ := State.dwelling_eq_some_iff.1 dwells
  have none : w.polish? = none := Working.polish?_not (by simp [kind])
  rw [Working.pressing, show ({ w with dwellRemaining := n } : Working).polish? = w.polish? from rfl, none]
  rfl

/-! ## What t is when the timers ys have counted once in s -/

/-- t differs from s in the tables that hold timers only. -/
def State.Ticked (s t : State) : Prop :=
  ∃ q z c b l p u, t = { s with seqs := q, zones := z, carriers := c, bases := b, lines := l, pads := p, beat := u }

structure State.Quiet (ys : List Timer) (s t : State) : Prop where
  rest : s.Ticked t
  seq : ∀ h, t.seq h = if .dwell h ∈ ys then s.counted h else s.seq h
  zone : ∀ h, t.zone h = if .band h ∈ ys then (s.zone h).tick else s.zone h
  carrier : ∀ h, t.carrier h = if .move h ∈ ys then (s.carrier h).counted else s.carrier h
  base : ∀ p, t.base p = (s.base p).counted (decide (.stall p ∈ ys)) (decide (.time p ∈ ys) && s.accrues p)
  line : ∀ l, t.line l = if .recovery l ∈ ys then (s.line l).counted else s.line l
  pad : ∀ p, t.pad p =
    { s.pad p with polishMark := (s.pad p).polishMark || (decide (.time p ∈ ys) && s.accrues p) }
  beat : t.beat = if .beat ∈ ys then { s.beat with interval := s.beat.interval + 1 } else s.beat

theorem State.Quiet.refl (s : State) : s.Quiet [] s where
  rest := ⟨_, _, _, _, _, _, _, rfl⟩
  seq h := by simp
  zone h := by simp
  carrier h := by simp
  base p := by simp [Timebase.counted]
  line l := by simp
  pad p := by simp
  beat := by simp

end

/-! ## One more timer -/

/-- u is t with the count of timer y written, as it is in s. -/
structure State.Writes (s : State) (y : Timer) (t u : State) : Prop where
  rest : t.Ticked u := by exact ⟨_, _, _, _, _, _, _, rfl⟩
  seq : ∀ h, u.seq h = if y = .dwell h then s.counted h else t.seq h := by exact fun _ => rfl
  zone : ∀ h, u.zone h = if y = .band h then (s.zone h).tick else t.zone h := by exact fun _ => rfl
  carrier : ∀ h, u.carrier h = if y = .move h then (s.carrier h).counted else t.carrier h := by exact fun _ => rfl
  base : ∀ p, u.base p = (t.base p).counted (decide (y = .stall p)) (decide (y = .time p) && s.accrues p) := by
    exact fun _ => rfl
  line : ∀ l, u.line l = if y = .recovery l then (s.line l).counted else t.line l := by exact fun _ => rfl
  pad : ∀ p, u.pad p = { t.pad p with polishMark := (t.pad p).polishMark || (decide (y = .time p) && s.accrues p) } := by
    exact fun _ => by simp
  beat : u.beat = if y = .beat then { t.beat with interval := t.beat.interval + 1 } else t.beat := by rfl

section
variable {s t : State} {h : HeadId} {p : PlatenId} {l : LineId}

theorem State.Ticked.trans {u : State} (a : s.Ticked t) (b : t.Ticked u) : s.Ticked u := by
  obtain ⟨_, _, _, _, _, _, _, rfl⟩ := a
  obtain ⟨_, _, _, _, _, _, _, rfl⟩ := b
  exact ⟨_, _, _, _, _, _, _, rfl⟩

theorem State.Quiet.next {ys : List Timer} {y : Timer} {u : State} (k : s.Quiet ys t) (new : y ∉ ys) (w : s.Writes y t u) :
    s.Quiet (ys ++ [y]) u where
  rest := k.rest.trans w.rest
  seq h := by
    rw [w.seq, k.seq]
    grind
  zone h := by
    rw [w.zone, k.zone]
    grind
  carrier h := by
    rw [w.carrier, k.carrier]
    grind
  base p := by
    rw [w.base, k.base]
    unfold Timebase.counted
    grind
  line l := by
    rw [w.line, k.line]
    grind
  pad p := by
    rw [w.pad, k.pad]
    grind
  beat := by
    rw [w.beat, k.beat]
    grind

theorem State.writes_dwell : s.Writes (.dwell h) t (t.setSeq h (s.counted h)) where
  seq g := by
    rw [State.seq_setSeq]
    grind

theorem State.writes_band : s.Writes (.band h) t (t.setZone h (s.zone h).tick) where
  zone g := by
    rw [State.zone_setZone]
    grind

theorem State.writes_move : s.Writes (.move h) t (t.setCarrier h (s.carrier h).counted) where
  carrier g := by
    rw [State.carrier_setCarrier]
    grind

theorem State.writes_stall : s.Writes (.stall p) t (t.setBase p ((t.base p).counted true false)) where
  base q := by
    rw [State.base_setBase]
    by_cases e : q = p
    · simp [Timebase.counted, e]
    · simp [Timebase.counted, e, Ne.symm e]

theorem State.writes_recovery : s.Writes (.recovery l) t (t.setLine l (s.line l).counted) where
  line m := by
    rw [State.line_setLine]
    grind

theorem State.writes_time (accrues : s.accrues p = true) : s.Writes (.time p) t (t.accrued p ((t.base p).accumulator + 1)) where
  base q := by
    rw [State.accrued, State.base_setPad, State.base_setBase]
    by_cases e : q = p
    · simp [Timebase.counted, e, accrues]
    · simp [Timebase.counted, e, Ne.symm e]
  pad q := by
    rw [State.accrued, State.pad_setPad]
    by_cases e : q = p
    · simp [e, accrues]
    · simp [e, Ne.symm e]

theorem State.writes_idle (idle : s.accrues p = false) : s.Writes (.time p) t t where
  base q := by
    by_cases e : q = p
    · simp [Timebase.counted, e, idle]
    · simp [Timebase.counted, Ne.symm e]
  pad q := by
    by_cases e : q = p
    · simp [e, idle]
    · simp [Ne.symm e]

theorem State.writes_beat : s.Writes .beat t (t.setBeat { t.beat with interval := t.beat.interval + 1 }) where
  pad _ := by simp

/-! ## The gate and the compare read no timer that has counted -/

variable {ys : List Timer}

theorem State.runningStep_congr {g : HeadId} (same : t.seq g = s.seq g) : t.runningStep g = s.runningStep g := by
  unfold State.runningStep State.isRunning State.current
  rw [same]

theorem State.Quiet.seq_still (k : s.Quiet ys t) (still : s.dwelling h = none) : t.seq h = s.seq h := by
  rw [k.seq, State.counted_none still, ite_self]

theorem State.Quiet.runningStep_dwelling (k : s.Quiet ys t) {w : Working} (dwells : s.dwelling h = some w) :
    ∃ n, t.runningStep h = some { w with dwellRemaining := n } := by
  obtain ⟨step, -⟩ := State.dwelling_eq_some_iff.1 dwells
  obtain ⟨running, -⟩ := State.runningStep_eq_some_iff.1 step
  have seq := k.seq h
  split at seq
  · exact ⟨w.dwellRemaining - 1, State.runningStep_eq_some_iff.2 (by
      rw [seq, State.counted_some dwells]
      exact ⟨running, rfl⟩)⟩
  · exact ⟨w.dwellRemaining, (State.runningStep_congr seq).trans step⟩

theorem State.Quiet.pressing (k : s.Quiet ys t) (h : HeadId) :
    (t.runningStep h).any Working.pressing = (s.runningStep h).any Working.pressing := by
  cases dwells : s.dwelling h with
  | none => rw [State.runningStep_congr (k.seq_still dwells)]
  | some w =>
    obtain ⟨n, step⟩ := k.runningStep_dwelling dwells
    rw [step, (State.dwelling_eq_some_iff.1 dwells).1, Option.any_some, Option.any_some, State.pressing_dwelling dwells n]
    exact (State.pressing_dwelling dwells w.dwellRemaining).symm

theorem State.gate_eq_any {o : Owner} (owner : (s.base p).owner = some o) :
    s.gate p = ((s.runningStep o.head).any Working.pressing && (s.zone o.head).allInBand && !(s.base p).stalled) := by
  rw [State.gate, owner]
  cases step : s.runningStep o.head <;> simp [step]

theorem State.Quiet.owner (k : s.Quiet ys t) (p : PlatenId) : (t.base p).owner = (s.base p).owner := by
  rw [k.base]
  rfl

theorem State.Quiet.allInBand (k : s.Quiet ys t) (h : HeadId) : (t.zone h).allInBand = (s.zone h).allInBand := by
  rw [k.zone]
  split
  · exact (s.zone h).tick_fields.2.2.1
  · rfl

theorem State.Quiet.gate (k : s.Quiet ys t) (p : PlatenId) : t.gate p = s.gate p := by
  cases owner : (s.base p).owner with
  | none => rw [State.gate, State.gate, k.owner, owner]
  | some o =>
    rw [State.gate_eq_any owner, State.gate_eq_any ((k.owner p).trans owner), k.pressing, k.allInBand, k.base]
    rfl

theorem State.Quiet.accrues (k : s.Quiet ys t) (p : PlatenId) : t.accrues p = s.accrues p := by
  rw [State.accrues, State.accrues, k.gate, k.owner]

/-- The gate is on for a head whose current step is no DWELL step. -/
theorem State.dwelling_of_gate {o : Owner} (owner : (s.base p).owner = some o) (gate : s.gate p = true) :
    s.dwelling o.head = none := by
  rw [State.gate_eq_any owner] at gate
  cases dwells : s.dwelling o.head with
  | none => rfl
  | some w =>
    rw [(State.dwelling_eq_some_iff.1 dwells).1, Option.any_some, State.pressing_dwelling dwells w.dwellRemaining] at gate
    cases gate

end

end Sys2Proof.Machine
end

section
/-!
PROOFS. A timer that does not come to its end only counts (R30, R71, R2, R55, R92, R59, R178), and its count changes nothing that
the others read: when no timer of a list is due, counting the list leaves `State.Quiet`.
-/
namespace Sys2Proof.Machine

section
variable {s t : State} {h : HeadId} {p : PlatenId} {l : LineId}

/-! ## One count that ends nothing -/

theorem State.tickDwell_calm (calm : ¬s.timerDue (.dwell h)) : s.tickDwell h = s.setSeq h (s.counted h) := by
  cases dwells : s.dwelling h with
  | none =>
    rw [State.counted_none dwells, State.setSeq_seq, State.tickDwell, dwells]
  | some w =>
    have long : ¬w.dwellRemaining ≤ 1 := fun short => calm ⟨w, dwells, short⟩
    rw [State.counted_some dwells, State.tickDwell, dwells]
    exact if_neg long

theorem ZoneMonitor.bandDue_tick (z : ZoneMonitor) :
    z.tick.bandDue = true ↔ ∃ x b, z.lift = .down x b ∧ b.running = true ∧ z.bandTimeout ≤ b.ms + 1 := by
  unfold ZoneMonitor.tick ZoneMonitor.bandDue
  grind

theorem State.tickBand_calm (calm : ¬s.timerDue (.band h)) : s.tickBand h = s.setZone h (s.zone h).tick := by
  have zone : (s.modZone h ZoneMonitor.tick).zone h = (s.zone h).tick := State.zone_setZone_self ..
  rw [State.tickBand, if_neg (by rw [zone, ZoneMonitor.bandDue_tick]; exact calm)]
  rfl

theorem State.tickMove_moving {o d : StationId} {n m : Nat} (moving : (s.carrier h).position = .inTransit o d (.moving n m)) :
    s.tickMove h = if m ≤ n + 1 then (s.setCarrier h (s.carrier h).counted).faultMove h
      else s.setCarrier h (s.carrier h).counted := by
  rw [State.tickMove, moving, Carrier.counted_moving moving]
  rfl

theorem State.tickMove_still (still : ∀ o d n m, (s.carrier h).position ≠ .inTransit o d (.moving n m)) : s.tickMove h = s := by
  unfold State.tickMove
  split
  · next moving => exact absurd moving (still _ _ _ _)
  · rfl

theorem State.tickMove_calm (calm : ¬s.timerDue (.move h)) : s.tickMove h = s.setCarrier h (s.carrier h).counted := by
  by_cases transit : ∃ o d n m, (s.carrier h).position = .inTransit o d (.moving n m)
  · obtain ⟨o, d, n, m, moving⟩ := transit
    rw [State.tickMove_moving moving, if_neg fun late => calm ⟨o, d, n, m, moving, late⟩]
  · have still : ∀ o d n m, (s.carrier h).position ≠ .inTransit o d (.moving n m) :=
      fun o d n m moving => transit ⟨o, d, n, m, moving⟩
    rw [State.tickMove_still still, Carrier.counted_still still, State.setCarrier_carrier]

theorem State.tickStall_running {n : Nat} (running : (s.base p).stallTimer = some n) :
    s.tickStall p = if (s.base p).config.stallWindow ≤ n + 1 then (s.setBase p ((s.base p).counted true false)).stallExpiry p
      else s.setBase p ((s.base p).counted true false) := by
  rw [State.tickStall, running]
  have counted : (s.base p).counted true false = { s.base p with stallTimer := some (n + 1) } := by
    rw [Timebase.counted, running]
    rfl
  rw [counted]
  rfl

theorem State.tickStall_still (still : (s.base p).stallTimer = none) : s.tickStall p = s := by rw [State.tickStall, still]

theorem State.tickStall_calm (calm : ¬s.timerDue (.stall p)) : s.tickStall p = s.setBase p ((s.base p).counted true false) := by
  cases running : (s.base p).stallTimer with
  | none =>
    have counted : (s.base p).counted true false = s.base p := by
      rw [Timebase.counted, running, Option.map_none, ite_self, ← running]
      rfl
    rw [State.tickStall_still running, counted, State.setBase_base]
  | some n => rw [State.tickStall_running running, if_neg fun late => calm ⟨n, running, late⟩]

theorem State.tickRecovery_faulted {n : Nat} (faulted : (s.line l).state = .faulted (some n)) :
    s.tickRecovery l = if (s.line l).recoveryTime ≤ n + 1 then (s.setLine l (s.line l).counted).recoveryExpiry l
      else s.setLine l (s.line l).counted := by
  rw [State.tickRecovery, faulted, Line.counted_faulted faulted]
  rfl

theorem State.tickRecovery_still (still : ∀ n, (s.line l).state ≠ .faulted (some n)) : s.tickRecovery l = s := by
  unfold State.tickRecovery
  split
  · next faulted => exact absurd faulted (still _)
  · rfl

theorem State.tickRecovery_calm (calm : ¬s.timerDue (.recovery l)) : s.tickRecovery l = s.setLine l (s.line l).counted := by
  by_cases timed : ∃ n, (s.line l).state = .faulted (some n)
  · obtain ⟨n, faulted⟩ := timed
    rw [State.tickRecovery_faulted faulted, if_neg fun late => calm ⟨n, faulted, late⟩]
  · have still : ∀ n, (s.line l).state ≠ .faulted (some n) := fun n faulted => timed ⟨n, faulted⟩
    rw [State.tickRecovery_still still, Line.counted_still still, State.setLine_line]

theorem State.accrue_idle (idle : s.accrues p = false) : s.accrue p .time = s := by
  rw [State.accrue, if_neg]
  rintro ⟨gate, clock⟩
  rw [State.accrues, gate, decide_eq_true clock] at idle
  cases idle

theorem State.accrue_time (accrues : s.accrues p = true) : s.accrue p .time = s.accrueTo p ((s.base p).accumulator + 1) := by
  unfold State.accrues at accrues
  rw [Bool.and_eq_true] at accrues
  rw [State.accrue, if_pos ⟨accrues.1, of_decide_eq_true accrues.2⟩]

theorem State.accruer (accrues : s.accrues p = true) : s.gate p = true ∧
    ∃ h limit w, (s.base p).owner = some ⟨h, limit, .time⟩ ∧ s.runningStep h = some w := by
  obtain ⟨gate, clock⟩ := (Bool.and_eq_true ..).mp accrues
  obtain ⟨⟨h, limit, c⟩, owner, rfl⟩ := Option.map_eq_some_iff.1 (of_decide_eq_true clock)
  refine ⟨gate, h, limit, ?_⟩
  rw [State.gate_eq_any owner] at gate
  cases step : s.runningStep h with
  | none => simp [step] at gate
  | some w => exact ⟨w, owner, rfl⟩

/-- A pressing step whose limit and whose target lie beyond the accumulator does not end at the compare (R60, R62). -/
theorem Working.due_short {w : Working} {a limit : Nat} (short : a < limit)
    (before : ∀ c, w.confirmed = some c → a - c.capture.accrued < c.target) : w.due a limit = none := by
  unfold Working.due
  grind

theorem State.accrue_calm (calm : ¬s.timerDue (.time p)) (accrues : s.accrues p = true) :
    s.accrue p .time = s.accrued p ((s.base p).accumulator + 1) := by
  obtain ⟨gate, h, limit, w, owner, step⟩ := State.accruer accrues
  have short : w.due ((s.base p).accumulator + 1) limit = none :=
    Working.due_short (Nat.lt_of_not_le fun late => calm ⟨gate, h, limit, w, owner, step, .inl late⟩) fun c confirmed =>
      Nat.lt_of_not_le fun late => calm ⟨gate, h, limit, w, owner, step, .inr ⟨c, confirmed, late⟩⟩
  rw [State.accrue_time accrues, State.accrueTo_goesOn owner step short]

theorem State.tickBeat_calm (calm : ¬s.timerDue .beat) :
    s.tickBeat = s.setBeat { s.beat with interval := s.beat.interval + 1 } := if_neg calm

theorem State.tickBeat_late (late : s.timerDue .beat) :
    s.tickBeat = (s.setBeat { s.beat with interval := s.beat.interval + 1 }).beatExpiry := if_pos late

/-! ## The counts of a list of timers -/

variable {ys : List Timer} {y : Timer}

/-- A timer that has not counted is due exactly when it was. -/
theorem State.Quiet.due_iff (k : s.Quiet ys t) (new : y ∉ ys) : t.timerDue y ↔ s.timerDue y := by
  cases y with
  | dwell h => rw [State.timerDue, State.timerDue, State.dwelling_congr ((k.seq h).trans (if_neg new))]
  | band h => rw [State.timerDue, State.timerDue, k.zone, if_neg new]
  | move h => rw [State.timerDue, State.timerDue, k.carrier, if_neg new]
  | stall p =>
    rw [State.timerDue, State.timerDue, k.base, decide_eq_false new]
    rfl
  | recovery l => rw [State.timerDue, State.timerDue, k.line, if_neg new]
  | time p =>
    have units : (t.base p).accumulator = (s.base p).accumulator := by
      rw [k.base, decide_eq_false new]
      rfl
    rw [State.timerDue, State.timerDue, k.gate, k.owner, units]
    refine and_congr_right fun gate => exists_congr fun h => exists_congr fun limit => exists_congr fun w =>
      and_congr_right fun owner => ?_
    rw [State.runningStep_congr (k.seq_still (State.dwelling_of_gate owner gate))]
  | beat => rw [State.timerDue, State.timerDue, k.beat, if_neg new]

theorem State.Quiet.writes (k : s.Quiet ys t) (new : y ∉ ys) (calm : ¬s.timerDue y) : s.Writes y t (t.count y) := by
  have calm' : ¬t.timerDue y := mt (k.due_iff new).1 calm
  cases y with
  | dwell h =>
    have seq : t.seq h = s.seq h := (k.seq h).trans (if_neg new)
    have counted : t.counted h = s.counted h := by rw [State.counted, State.counted, State.dwelling_congr seq, seq]
    rw [State.count, State.tickDwell_calm calm', counted]
    exact State.writes_dwell
  | band h =>
    rw [State.count, State.tickBand_calm calm', k.zone, if_neg new]
    exact State.writes_band
  | move h =>
    rw [State.count, State.tickMove_calm calm', k.carrier, if_neg new]
    exact State.writes_move
  | stall p =>
    rw [State.count, State.tickStall_calm calm']
    exact State.writes_stall
  | recovery l =>
    rw [State.count, State.tickRecovery_calm calm', k.line, if_neg new]
    exact State.writes_recovery
  | time p =>
    cases accrues : s.accrues p with
    | false =>
      rw [State.count, State.accrue_idle ((k.accrues p).trans accrues)]
      exact State.writes_idle accrues
    | true =>
      rw [State.count, State.accrue_calm calm' ((k.accrues p).trans accrues)]
      exact State.writes_time accrues
  | beat =>
    rw [State.count, State.tickBeat_calm calm']
    exact State.writes_beat

/-- Timers that are not due only count. -/
theorem State.Quiet.counts {xs : List Timer} (k : s.Quiet ys t) (nodup : (ys ++ xs).Nodup) (calm : ∀ x ∈ xs, ¬s.timerDue x) :
    s.Quiet (ys ++ xs) (xs.foldl State.count t) := by
  induction xs generalizing ys t with
  | nil => simpa using k
  | cons x xs ih =>
    have new : x ∉ ys := fun old => (List.nodup_append.1 nodup).2.2 x old x List.mem_cons_self rfl
    have one := k.next new (k.writes new (calm x List.mem_cons_self))
    have all := ih one (by simpa using nodup) fun y later => calm y (List.mem_cons_of_mem _ later)
    simpa using all

theorem State.quiet_counts {xs : List Timer} (nodup : xs.Nodup) (calm : ∀ x ∈ xs, ¬s.timerDue x) :
    s.Quiet xs (xs.foldl State.count s) := State.Quiet.counts (ys := []) (.refl s) nodup calm

end

end Sys2Proof.Machine
end

section
/-!
PROOFS. The beat in a millisecond (R178, R179), and the millisecond in which no timer comes to its end (log entry 2).
-/
namespace Sys2Proof.Machine

variable {s t : State}

/-! ## What every count keeps -/

/-- t remembers what s had recorded: the beat, the results and the notices. -/
structure State.Remembers (s t : State) : Prop where
  beat : t.beat = s.beat
  results : ∀ h, (s.seq h).results <+: (t.seq h).results
  notice : ∀ {q : Port} {n : Notice}, n ∈ (s.port q).notices → (n.kind q).isSome = true → n ∈ (t.port q).notices

theorem State.Remembers.trans {u : State} (a : s.Remembers t) (b : t.Remembers u) : s.Remembers u :=
  ⟨b.beat.trans a.beat, fun h => (a.results h).trans (b.results h), fun raised held => b.notice (a.notice raised held) held⟩

theorem Cascade.remembers (k : Cascade s t) : s.Remembers t :=
  ⟨k.beat, fun h => (k.seq h).results, fun raised held => k.notice raised held⟩

theorem Drift.remembers (k : Drift s t) : s.Remembers t := by
  induction k with
  | cascade k => exact k.remembers
  | line => exact ⟨rfl, fun _ => List.prefix_rfl, fun raised _ => raised⟩
  | trans _ _ a b => exact a.trans b

theorem Drift.count (s : State) {y : Timer} (other : y ≠ .beat) : Drift s (s.count y) := by
  cases y with
  | dwell h => exact .cascade (.tickDwell ..)
  | band h => exact .cascade (.tickBand ..)
  | move h => exact .cascade (.tickMove ..)
  | stall p => exact .cascade (.tickStall ..)
  | recovery l => exact .tickRecovery ..
  | time p => exact .cascade (.accrue ..)
  | beat => exact absurd rfl other

theorem State.remembers_counts {ys : List Timer} (other : ∀ y ∈ ys, y ≠ .beat) (s : State) :
    s.Remembers (ys.foldl State.count s) := by
  induction ys generalizing s with
  | nil => exact ⟨rfl, fun _ => List.prefix_rfl, fun raised _ => raised⟩
  | cons y ys ih =>
    have first := (Drift.count s (other y List.mem_cons_self)).remembers
    exact first.trans (ih (fun x later => other x (List.mem_cons_of_mem _ later)) _)

theorem timersInTurn_other : ∀ y ∈ timersInTurn, y ≠ .beat := by decide

/-! ## The beat -/

theorem State.beat_tick (s : State) : s.tick.beat = ((timersInTurn.foldl State.count s).tickBeat).beat := by
  rw [State.tick_eq, State.beat_settle, State.count]

theorem State.beat_tick_calm (calm : ¬s.timerDue .beat) : s.tick.beat = { s.beat with interval := s.beat.interval + 1 } := by
  have kept := (State.remembers_counts timersInTurn_other s).beat
  have calm' : ¬(timersInTurn.foldl State.count s).timerDue .beat := by
    rw [State.timerDue, kept]
    exact calm
  rw [State.beat_tick, State.tickBeat_calm calm', State.beat_setBeat, kept]

theorem State.beat_beatExpiry (s : State) :
    s.beatExpiry.beat.interval = 0 ∧ s.beatExpiry.beat.counter = satSucc Config.max32 s.beat.counter := by
  unfold State.beatExpiry
  dsimp only
  split
  · exact ⟨rfl, rfl⟩
  · rw [State.beat_claimBeats]
    exact ⟨rfl, rfl⟩

theorem State.beat_tick_late (late : s.timerDue .beat) :
    s.tick.beat.interval = 0 ∧ s.tick.beat.counter = satSucc Config.max32 s.beat.counter := by
  have kept := (State.remembers_counts timersInTurn_other s).beat
  have late' : (timersInTurn.foldl State.count s).timerDue .beat := by
    rw [State.timerDue, kept]
    exact late
  rw [State.beat_tick, State.tickBeat_late late']
  have expired := State.beat_beatExpiry ((timersInTurn.foldl State.count s).setBeat
    { (timersInTurn.foldl State.count s).beat with interval := (timersInTurn.foldl State.count s).beat.interval + 1 })
  rw [State.beat_setBeat, kept] at expired
  rw [kept]
  exact expired

/-! ## The millisecond in which nothing ends -/

theorem mem_timers (y : Timer) : y ∈ timersInTurn ++ [Timer.beat] := by
  cases y with
  | beat => simp
  | dwell h => cases h <;> decide
  | band h => cases h <;> decide
  | move h => cases h <;> decide
  | stall p => cases p <;> decide
  | recovery l => cases l <;> decide
  | time p => cases p <;> decide

theorem State.quiet_tick (calm : ∀ y, ¬s.timerDue y) :
    ∃ t, s.Quiet (timersInTurn ++ [Timer.beat]) t ∧ s.tick = t.settle := by
  have quiet := State.quiet_counts (s := s) timersInTurn_nodup fun y _ => calm y
  rw [List.foldl_append, List.foldl_cons, List.foldl_nil] at quiet
  exact ⟨_, quiet, State.tick_eq s⟩

theorem Timebase.setSpeed_counted {b : Timebase} {v : Nat} (fixed : b.setSpeed v = b) (stall time : Bool) :
    (b.counted stall time).setSpeed v = b.counted stall time := by
  have speed : b.speed = v := by
    rw [← fixed]
    unfold Timebase.setSpeed
    grind
  by_cases stopped : v = 0
  · have still : b.stallTimer = none ∧ b.stalled = false := by
      rw [← fixed, Timebase.setSpeed, if_neg (by omega), if_pos stopped]
      exact ⟨rfl, rfl⟩
    rw [Timebase.setSpeed, if_neg (by omega), if_pos stopped]
    simp [Timebase.counted, still, speed, stopped]
  · have on : ¬(b.counted stall time).speed = 0 := by
      rw [show (b.counted stall time).speed = b.speed from rfl, speed]
      exact stopped
    rw [Timebase.setSpeed, if_neg fun start => on start.1, if_neg stopped, ← speed]
    rfl

section
variable {ys : List Timer} (k : s.Quiet ys t)
include k

theorem State.Quiet.isDown (h : HeadId) : t.isDown h = s.isDown h := by
  have up : (t.zone h).lift = .up ↔ (s.zone h).lift = .up := by
    rw [k.zone]
    split
    · exact (s.zone h).tick_fields.2.2.2
    · rfl
  unfold State.isDown
  grind

theorem State.Quiet.station (d : StationId) : t.station d = s.station d := by
  obtain ⟨_, _, _, _, _, _, _, rfl⟩ := k.rest
  rfl

theorem State.Quiet.cond (p : PlatenId) : t.cond p = s.cond p := by
  obtain ⟨_, _, _, _, _, _, _, rfl⟩ := k.rest
  rfl

theorem State.Quiet.trip : t.trip = s.trip := by
  obtain ⟨_, _, _, _, _, _, _, rfl⟩ := k.rest
  rfl

theorem State.Quiet.headOn (p : PlatenId) : t.headOn p = s.headOn p := by rw [State.headOn, State.headOn, k.station]

/-- The step of a head is the same but for its dwell remaining. -/
theorem State.Quiet.current (h : HeadId) :
    t.current h = s.current h ∨ ∃ w n, s.dwelling h = some w ∧ s.current h = some w ∧
      t.current h = some { w with dwellRemaining := n } := by
  cases dwells : s.dwelling h with
  | none =>
    left
    rw [State.current, State.current, k.seq_still dwells]
  | some w =>
    obtain ⟨n, step⟩ := k.runningStep_dwelling dwells
    exact .inr ⟨w, n, rfl, State.current_of_running (State.dwelling_eq_some_iff.1 dwells).1, State.current_of_running step⟩

theorem State.Quiet.outerWanted (p : PlatenId) : t.outerWanted p = s.outerWanted p := by
  unfold State.outerWanted
  rw [k.headOn]
  cases s.headOn p with
  | none => rfl
  | some h =>
    rcases k.current h with same | ⟨w, n, -, old, new⟩
    · simp only [k.isDown, same]
    · simp only [k.isDown, old, new]
      rfl

theorem State.Quiet.isRunning (h : HeadId) : t.isRunning h = s.isRunning h := by
  have state : (t.seq h).state = (s.seq h).state := by
    rw [k.seq, State.counted]
    grind
  rw [State.isRunning, State.isRunning, state]

theorem State.Quiet.speedOn (h : HeadId) (p : PlatenId) : (t.seq h).speedOn p = (s.seq h).speedOn p := by
  cases dwells : s.dwelling h with
  | none => rw [k.seq_still dwells]
  | some w =>
    have activity := (State.runningStep_eq_some_iff.1 (State.dwelling_eq_some_iff.1 dwells).1).2
    rw [k.seq, State.counted_some dwells]
    split
    · rw [Sequencer.speedOn, Sequencer.speedOn, activity]
      rfl
    · rfl

theorem State.Quiet.speedWanted (p : PlatenId) : t.speedWanted p = s.speedWanted p := by
  unfold State.speedWanted
  rw [k.trip, k.station, k.cond, k.base]
  simp only [k.isRunning, k.speedOn]
  rfl

theorem State.Quiet.settled (settled : s.Settled) : t.settle = t := by
  refine State.settle_of_settledAt fun p => ?_
  obtain ⟨outer, fixed⟩ := (State.settled_iff s).1 settled p
  refine ⟨by rw [k.cond, k.outerWanted]; exact outer, ?_⟩
  rw [k.speedWanted, k.base]
  exact Timebase.setSpeed_counted fixed ..

end

/-- What the millisecond leaves when no timer comes to its end. -/
theorem State.quiet_of_settled (settled : s.Settled) (calm : ∀ y, ¬s.timerDue y) :
    s.Quiet (timersInTurn ++ [Timer.beat]) s.tick := by
  obtain ⟨t, quiet, tick⟩ := State.quiet_tick calm
  rw [tick, quiet.settled settled]
  exact quiet

theorem ZoneMonitor.tick_eq (z : ZoneMonitor) : z.tick = { z with
    lift := match z.lift with
      | .up => .up
      | .down x b => .down x (if b.running then { b with ms := b.ms + 1 } else b) } := by
  obtain ⟨lift, inBand, rinse, timeout⟩ := z
  cases lift with
  | up => rfl
  | down x b =>
    obtain ⟨ms, running, expired⟩ := b
    cases running <;> rfl

/-- The state after such a millisecond, table by table. -/
theorem State.Quiet.counted (k : s.Quiet (timersInTurn ++ [Timer.beat]) t) :
    t = { s with
      seqs := t.seqs, zones := t.zones, carriers := t.carriers, bases := t.bases, lines := t.lines, pads := t.pads
      beat := { s.beat with interval := s.beat.interval + 1 } } := by
  have beat : t.beat = { s.beat with interval := s.beat.interval + 1 } := k.beat.trans (if_pos (mem_timers _))
  obtain ⟨_, _, _, _, _, _, _, rfl⟩ := k.rest
  rw [← beat]

theorem State.Quiet.base_all (k : s.Quiet (timersInTurn ++ [Timer.beat]) t) (p : PlatenId) :
    t.base p = (s.base p).counted true (s.accrues p) := by
  rw [k.base, decide_eq_true (mem_timers _), decide_eq_true (mem_timers _), Bool.true_and]

theorem State.Quiet.pad_all (k : s.Quiet (timersInTurn ++ [Timer.beat]) t) (p : PlatenId) :
    t.pad p = { s.pad p with polishMark := (s.pad p).polishMark || s.accrues p } := by
  rw [k.pad, decide_eq_true (mem_timers _), Bool.true_and]

theorem step_idle (idle : s.pending = []) : step s = .next s.tick := by rw [step, idle]

end Sys2Proof.Machine
end

section
/-!
PROOFS. What the counts of other timers spare: a head that rests (no step of its runs, it is UP and no move of it goes on), the
platen it stands stalled on, and the lines whose recovery time is not over.
-/
namespace Sys2Proof.Machine

variable {s t : State} {h : HeadId} {p : PlatenId} {l : LineId}

/-! ## A stalled platen under a head that asks for its speed (R54, R55) -/

structure State.HeldStill (s : State) (p : PlatenId) (h : HeadId) : Prop where
  holder : (s.station (.platen p)).holder = some (.head h)
  clear : s.trip.tripped = false
  running : (s.seq h).state = .running
  asked : 0 < (s.seq h).speedOn p
  turning : 0 < (s.base p).speed
  stalled : (s.base p).stalled = true
  timer : (s.base p).stallTimer = none

/-- The drive of a platen: what the stall rule reads and writes (R55). -/
def Timebase.drive (b : Timebase) : Nat × Bool × Option Nat := (b.speed, b.stalled, b.stallTimer)

theorem State.HeldStill.keep (held : s.HeldStill p h) (seq : t.seq h = s.seq h)
    (holder : (t.station (.platen p)).holder = (s.station (.platen p)).holder := by rfl) (trip : t.trip = s.trip := by rfl)
    (drive : (t.base p).drive = (s.base p).drive := by rfl) : t.HeldStill p h := by
  simp only [Timebase.drive, Prod.mk.injEq] at drive
  obtain ⟨speed, stalled, timer⟩ := drive
  exact ⟨holder.trans held.holder, by rw [trip]; exact held.clear, by rw [seq]; exact held.running, by rw [seq]; exact held.asked,
    by rw [speed]; exact held.turning, stalled.trans held.stalled, timer.trans held.timer⟩

theorem State.HeldStill.wanted (held : s.HeldStill p h) : 0 < s.speedWanted p := by
  rw [State.speedWanted_head held.clear (State.headOn_eq_some_iff.2 held.holder), if_pos held.running]
  exact held.asked

theorem State.HeldStill.refreshSpeed (held : s.HeldStill p h) (q : PlatenId) : (s.refreshSpeed q).HeldStill p h := by
  by_cases own : p = q
  · subst own
    have base : (s.refreshSpeed p).base p = { s.base p with speed := s.speedWanted p } :=
      (State.base_setBase_self ..).trans (Timebase.running_setSpeed held.turning held.wanted)
    exact { held with
      turning := by rw [base]; exact held.wanted
      stalled := by rw [base]; exact held.stalled
      timer := by rw [base]; exact held.timer }
  · exact held.keep rfl rfl rfl (by rw [State.refreshSpeed, State.modBase_eq, State.base_setBase_ne _ _ own])

theorem State.HeldStill.refreshOuter (held : s.HeldStill p h) (q : PlatenId) : (s.refreshOuter q).HeldStill p h := by
  obtain ⟨c, k, r, refreshed⟩ := s.refreshOuter_writes q
  rw [refreshed]
  exact held.keep rfl

theorem State.HeldStill.settle (held : s.HeldStill p h) :
    (s.settle.base p).stalled = true ∧ (s.settle.base p).stallTimer = none := by
  rw [State.base_settle, Timebase.running_setSpeed held.turning held.wanted]
  exact ⟨held.stalled, held.timer⟩

theorem Acts.heldStill {W : HeadId → Prop} {D : StationId → Prop} (k : Acts W D s t) (own : ¬W h)
    (still : s.polishing h = none) (held : s.HeldStill p h) : t.HeldStill p h := by
  induction k with
  | refl s => exact held
  | trans first _ ih₁ ih₂ => exact ih₂ own ((first.aside own still).polishing.trans still) (ih₁ own still held)
  | @seq W D s j w x => exact held.keep (State.seq_setSeq_ne _ _ fun same => own (same ▸ w))
  | @base W D s q x kept =>
    refine held.keep rfl rfl rfl ?_
    rw [State.base_setBase]
    split
    · next same =>
      subst same
      rw [Timebase.drive, kept.speed, kept.stalled, kept.stallTimer, Timebase.drive]
    · rfl
  | @speed W D s q => exact held.refreshSpeed q
  | @outer W D s q => exact held.refreshOuter q
  | @leave W D s j w => exact held.keep rfl (by rw [State.station_leaveWaits]; rfl)
  | @take W D s d j asked free unowed =>
    have other : StationId.platen p ≠ d := by
      rintro rfl
      rw [held.holder] at free
      cases free
    exact held.keep rfl (by rw [State.station_setStation_ne _ _ other])
  | @join W D s d j asked =>
    refine held.keep rfl ?_
    rw [State.station_setStation]
    split
    · next same =>
      subst same
      unfold Station.join
      split <;> rfl
    · rfl
  | @called W D s t j polishes acts ih =>
    refine ih ?_ still held
    rintro (w | rfl)
    · exact own w
    · rw [still] at polishes
      cases polishes
  | _ => exact held.keep rfl

/-! ## The recovery timers -/

/-- No head makes a line FAULTED (R92). -/
theorem Acts.faulted {W : HeadId → Prop} {D : StationId → Prop} {x : Option Nat} (k : Acts W D s t)
    (faulted : (t.line l).state = .faulted x) : (s.line l).state = .faulted x := by
  induction k with
  | refl s => exact faulted
  | trans _ _ ih₁ ih₂ => exact ih₁ (ih₂ faulted)
  | @outer W D s q =>
    obtain ⟨c, k, r, refreshed⟩ := s.refreshOuter_writes q
    rw [refreshed] at faulted
    exact faulted
  | @leave W D s j w => exact faulted
  | @lines W D s f shut fewer faults =>
    rw [State.line_mapLines] at faulted
    exact faults _ _ faulted
  | @line W D s m x enabled faults =>
    rw [State.line_setLine] at faulted
    split at faulted
    · next same =>
      subst same
      exact faults _ faulted
    · exact faulted
  | called _ _ ih => exact ih faulted
  | _ => exact faulted

theorem Acts.calm {W : HeadId → Prop} {D : StationId → Prop} (k : Acts W D s t) (c : Cascade s t)
    (due : t.timerDue (.recovery l)) : s.timerDue (.recovery l) := by
  obtain ⟨n, faulted, late⟩ := due
  exact ⟨n, k.faulted faulted, by rw [← (c.line l).time]; exact late⟩

/-! ## What a count spares -/

/-- No step of the head runs, the head is UP and no move of it goes on. -/
structure State.Resting (s : State) (h : HeadId) : Prop where
  step : s.runningStep h = none
  up : s.isDown h = false
  still : ∀ o d n m, (s.carrier h).position ≠ .inTransit o d (.moving n m)

theorem State.Resting.polishing (rest : s.Resting h) : s.polishing h = none := by rw [State.polishing, rest.step]

theorem State.Resting.of_aside (rest : s.Resting h) (aside : Aside h s t) : t.Resting h where
  step := (State.runningStep_congr aside.seq).trans rest.step
  up := aside.isDown.trans rest.up
  still o d n m := by
    rw [aside.carrier]
    exact rest.still o d n m

/-- Counting the timers Y spares head h, a platen stalled under it and the other recovery timers. -/
structure State.Spares (h : HeadId) (Y : Timer → Prop) (s t : State) : Prop extends Aside h s t where
  held : ∀ p, ¬Y (.stall p) → s.HeldStill p h → t.HeldStill p h
  calm : ∀ l, ¬Y (.recovery l) → t.timerDue (.recovery l) → s.timerDue (.recovery l)

variable {Y : Timer → Prop}

theorem State.Spares.refl (s : State) : State.Spares h Y s s := ⟨.refl h s, fun _ _ held => held, fun _ _ due => due⟩

theorem State.Spares.trans {u : State} (a : State.Spares h Y s t) (b : State.Spares h Y t u) : State.Spares h Y s u :=
  ⟨a.toAside.trans b.toAside, fun p free held => b.held p free (a.held p free held),
    fun l free due => a.calm l free (b.calm l free due)⟩

theorem State.Spares.mono {Z : Timer → Prop} (k : State.Spares h Y s t) (more : ∀ y, Y y → Z y) : State.Spares h Z s t :=
  ⟨k.toAside, fun p free => k.held p fun y => free (more _ y), fun l free => k.calm l fun y => free (more _ y)⟩

/-- What other heads do spares a head that rests. -/
theorem Acts.spares {W : HeadId → Prop} {D : StationId → Prop} (k : Acts W D s t) (c : Cascade s t) (own : ¬W h)
    (still : s.polishing h = none) : State.Spares h Y s t where
  toAside := k.aside own still
  held _ _ held := k.heldStill own still held
  calm _ _ due := k.calm c due

end Sys2Proof.Machine
end

section
/-!
PROOFS. Each count of a timer, except a recovery that is due, spares a head that rests (`State.Spares`).
-/
namespace Sys2Proof.Machine

variable {s t : State} {h g : HeadId} {p : PlatenId} {l : LineId}

/-! ## Dwell, band and move limit: the timer's own head acts -/

theorem Acts.tickDwell (s : State) (g : HeadId) : Acts (· = g) (fun _ => True) s (s.tickDwell g) := by
  cases dwells : s.dwelling g with
  | none => rw [State.tickDwell, dwells]; exact .refl s
  | some w =>
    rw [State.tickDwell, dwells]
    dsimp only
    split
    · rw [State.endDwell_some dwells]
      exact (Acts.setWorking (W := (· = g)) rfl s _).trans (.finishStep (W := (· = g)) rfl _ (fun _ _ _ _ => trivial) _)
    · exact .setWorking (W := (· = g)) rfl s _

theorem Acts.tickBand (s : State) (g : HeadId) : Acts (· = g) (fun _ => True) s (s.tickBand g) := by
  have counted : Acts (· = g) (fun _ => True) s (s.modZone g ZoneMonitor.tick) := .zone (W := (· = g)) rfl _
  unfold State.tickBand
  dsimp only
  split
  · cases running : ((s.modZone g ZoneMonitor.tick).zone g).bandRunning with
    | false => rw [State.bandExpiry_idle running]; exact counted
    | true =>
      rw [State.bandExpiry_running running]
      exact (counted.trans (.zone (W := (· = g)) rfl _)).trans (.raiseCause (W := (· = g)) rfl _ nofun)
  · exact counted

theorem Acts.tickMove (s : State) (g : HeadId) : Acts (· = g) (fun _ => True) s (s.tickMove g) := by
  by_cases transit : ∃ o d n m, (s.carrier g).position = .inTransit o d (.moving n m)
  · obtain ⟨o, d, n, m, moving⟩ := transit
    have counted : Acts (· = g) (fun _ => True) s (s.setCarrier g (s.carrier g).counted) :=
      .carrier (W := (· = g)) rfl _ fun d stands => by
        rw [Carrier.counted_moving moving] at stands
        cases stands
    have moving' : ((s.setCarrier g (s.carrier g).counted).carrier g).position = .inTransit o d (.moving (n + 1) m) := by
      rw [State.carrier_setCarrier_self, Carrier.counted_moving moving]
    rw [State.tickMove_moving moving]
    split
    · rw [State.faultMove_moving moving']
      exact (counted.trans (.haltMove (W := (· = g)) rfl _)).trans (.haltResumable (W := (· = g)) rfl _ _)
    · exact counted
  · rw [State.tickMove_still fun o d n m moving => transit ⟨o, d, n, m, moving⟩]
    exact .refl s

theorem State.spares_tickDwell (rest : s.Resting h) (g : HeadId) : State.Spares h (· = .dwell g) s (s.tickDwell g) := by
  by_cases own : h = g
  · subst own
    have still : s.dwelling h = none := by rw [State.dwelling, rest.step]
    rw [State.tickDwell, still]
    exact .refl s
  · exact (Acts.tickDwell s g).spares (.tickDwell ..) own rest.polishing

theorem State.spares_tickBand (rest : s.Resting h) (g : HeadId) : State.Spares h (· = .band g) s (s.tickBand g) := by
  by_cases own : h = g
  · subst own
    have up : (s.zone h).lift = .up := State.isDown_eq_false_iff.1 rest.up
    have counted : (s.zone h).tick = s.zone h := by rw [ZoneMonitor.tick, up]
    have calm : ¬s.timerDue (.band h) := by
      rintro ⟨x, b, down, -⟩
      rw [up] at down
      cases down
    rw [State.tickBand_calm calm, counted, State.setZone_zone]
    exact .refl s
  · exact (Acts.tickBand s g).spares (.tickBand ..) own rest.polishing

theorem State.spares_tickMove (rest : s.Resting h) (g : HeadId) : State.Spares h (· = .move g) s (s.tickMove g) := by
  by_cases own : h = g
  · subst own
    rw [State.tickMove_still rest.still]
    exact .refl s
  · exact (Acts.tickMove s g).spares (.tickMove ..) own rest.polishing

/-! ## The stall timer -/

/-- A write that touches no head and of the timebases only that of platen p. -/
theorem State.spares_setBase (x : Timebase) : State.Spares h (· = .stall p) s (s.setBase p x) where
  held q other held := held.keep rfl rfl rfl (by rw [State.base_setBase_ne _ _ fun same => other (by rw [same])])
  calm _ _ due := due

theorem State.spares_setCond {Y : Timer → Prop} (x : Conditioner) : State.Spares h Y s (s.setCond p x) where
  held _ _ held := held.keep rfl
  calm _ _ due := due

theorem State.spares_stall (rest : s.Resting h) (p : PlatenId) : State.Spares h (· = .stall p) s (s.stall p) := by
  have marked : State.Spares h (· = .stall p) s (s.modBase p Timebase.stall) := State.spares_setBase ..
  unfold State.stall
  dsimp only
  split
  · exact marked
  · exact marked.trans (State.spares_setCond ..)
  · next j _ =>
    split
    · next down =>
      have other : h ≠ j := by
        rintro rfl
        rw [(rest.of_aside marked.toAside).up] at down
        cases down
      have raised := Acts.raiseCause (W := (· = j)) (D := fun _ => True) (c := .platenStall) rfl (s.modBase p Timebase.stall) nofun
      exact marked.trans (raised.spares (.raiseCause ..) other (rest.of_aside marked.toAside).polishing)
    · exact marked

theorem State.spares_tickStall (rest : s.Resting h) (p : PlatenId) : State.Spares h (· = .stall p) s (s.tickStall p) := by
  have counted (x : Timebase) : State.Spares h (· = .stall p) s (s.setBase p x) := State.spares_setBase x
  cases timer : (s.base p).stallTimer with
  | none => rw [State.tickStall_still timer]; exact .refl s
  | some n =>
    rw [State.tickStall_running timer]
    split
    · have one := counted ((s.base p).counted true false)
      refine one.trans ?_
      unfold State.stallExpiry
      split
      · exact State.spares_stall (rest.of_aside one.toAside) p
      · exact .refl _
    · exact counted _

/-! ## Recovery, accrual -/

theorem State.spares_tickRecovery (calm : ¬s.timerDue (.recovery l)) : State.Spares h (· = .recovery l) s (s.tickRecovery l) := by
  rw [State.tickRecovery_calm calm]
  exact {
    held := fun _ _ held => held.keep rfl
    calm := fun m other due => by
      rw [State.timerDue, State.line_setLine_ne _ _ fun same => other (by rw [same])] at due
      exact due }

theorem State.spares_accrued {Y : Timer → Prop} (s : State) (h : HeadId) (p : PlatenId) (v : Nat) :
    State.Spares h Y s (s.accrued p v) where
  held q _ held := by
    refine held.keep rfl rfl rfl ?_
    rw [State.accrued, State.base_setPad, State.base_setBase]
    split
    · next same => subst same; rfl
    · rfl
  calm _ _ due := due

theorem State.spares_accrue (rest : s.Resting h) (p : PlatenId) : State.Spares h (· = .time p) s (s.accrue p .time) := by
  cases accrues : s.accrues p with
  | false => rw [State.accrue_idle accrues]; exact .refl s
  | true =>
    obtain ⟨-, j, limit, w, owner, step⟩ := State.accruer accrues
    have other : h ≠ j := by
      rintro rfl
      rw [rest.step] at step
      cases step
    have accrued := s.spares_accrued (Y := (· = .time p)) h p ((s.base p).accumulator + 1)
    rw [State.accrue_time accrues]
    cases due : w.due ((s.base p).accumulator + 1) limit with
    | none => rw [State.accrueTo_goesOn owner step due]; exact accrued
    | some e =>
      obtain ⟨o, b⟩ := e
      have current : (s.accrued p ((s.base p).accumulator + 1)).current j = some w := State.current_of_running step
      rw [State.accrueTo_ends owner step due, State.endDue_eq current]
      have ends := (Acts.setWorking (W := (· = j)) (D := fun _ => True) rfl (s.accrued p ((s.base p).accumulator + 1))
        (w.clamp b)).trans (.finishStep (W := (· = j)) rfl _ (fun _ _ _ _ => trivial) o)
      exact accrued.trans (ends.spares ((Cascade.setWorking ..).trans (.finishStep ..)) other
        (rest.of_aside accrued.toAside).polishing)

/-! ## The counts of a list -/

theorem State.spares_count (rest : s.Resting h) {y : Timer} (other : y ≠ .beat)
    (calm : ∀ l, y = .recovery l → ¬s.timerDue y) :
    State.Spares h (· = y) s (s.count y) := by
  cases y with
  | dwell g => exact State.spares_tickDwell rest g
  | band g => exact State.spares_tickBand rest g
  | move g => exact State.spares_tickMove rest g
  | stall p => exact State.spares_tickStall rest p
  | recovery l => exact State.spares_tickRecovery (calm l rfl)
  | time p => exact State.spares_accrue rest p
  | beat => exact absurd rfl other

theorem State.spares_counts {ys : List Timer} (nodup : ys.Nodup) (rest : s.Resting h) (other : ∀ y ∈ ys, y ≠ .beat)
    (calm : ∀ l, .recovery l ∈ ys → ¬s.timerDue (.recovery l)) : State.Spares h (· ∈ ys) s (ys.foldl State.count s) := by
  induction ys generalizing s with
  | nil => exact .refl s
  | cons y ys ih =>
    obtain ⟨new, nodup⟩ := List.nodup_cons.1 nodup
    have first : State.Spares h (· = y) s (s.count y) :=
      State.spares_count rest (other y List.mem_cons_self) fun l own => by rw [own]; exact calm l (own ▸ List.mem_cons_self)
    have later := ih nodup (rest.of_aside first.toAside) (fun x mem => other x (List.mem_cons_of_mem _ mem))
      fun l mem due => calm l (List.mem_cons_of_mem _ mem) (first.calm l (fun same => new (same ▸ mem)) due)
    exact (first.mono fun x own => own ▸ List.mem_cons_self).trans (later.mono fun x mem => List.mem_cons_of_mem _ mem)

end Sys2Proof.Machine
end

section
/-!
PROOFS. The millisecond in which one timer alone comes to its end (log entry 23): the timers before it count, it acts, and what
comes after spares what it has done.
-/
namespace Sys2Proof.Machine

variable {s t : State} {h : HeadId} {p : PlatenId} {l : LineId} {x : Timer}

/-! ## Before, at and after the timer -/

/-- The place of a timer in the order of log entry 23. -/
def Timer.rank : Timer → Nat
  | .dwell _ => 0
  | .band _ => 1
  | .move _ => 2
  | .stall _ => 3
  | .recovery _ => 4
  | .time _ => 5
  | .beat => 6

theorem Timer.rank_lt_beat (early : x ≠ .beat) : x.rank < Timer.beat.rank := by
  cases x with
  | beat => exact absurd rfl early
  | _ => simp [Timer.rank]

theorem timersInTurn_sorted : timersInTurn.Pairwise fun a b => a.rank ≤ b.rank := by decide

/-- Timer x alone is due in s: the timers `pre` have counted when its turn comes, in t, and the timers `post` count after it. -/
structure State.Turn (s : State) (x : Timer) (pre post : List Timer) (t : State) : Prop where
  before : s.Quiet pre t
  waits : x ∉ pre
  order : ∀ y ∈ pre, y.rank ≤ x.rank
  nodup : (x :: post).Nodup
  apart : ∀ y ∈ post, y ∉ pre
  other : ∀ y ∈ post, y ≠ .beat
  alone : ∀ y, y ≠ x → ¬s.timerDue y
  due : s.timerDue x
  early : x ≠ .beat
  tick : s.tick = ((post.foldl State.count (t.count x)).count .beat).settle

theorem State.turn (early : x ≠ .beat) (due : s.timerDue x) (alone : ∀ y, y ≠ x → ¬s.timerDue y) :
    ∃ pre post t, s.Turn x pre post t := by
  have mem : x ∈ timersInTurn := by
    have all := mem_timers x
    simp only [List.mem_append, List.mem_singleton] at all
    exact all.resolve_right early
  obtain ⟨pre, post, new, -, split, folded⟩ := foldl_turn State.count (List.Nodup.of_append_left timersInTurn_nodup) mem s
  have nodup : (pre ++ x :: post).Nodup := split ▸ List.Nodup.of_append_left timersInTurn_nodup
  have sorted : (pre ++ x :: post).Pairwise fun a b => a.rank ≤ b.rank := split ▸ timersInTurn_sorted
  obtain ⟨nodupPre, nodupPost, disjoint⟩ := List.nodup_append.1 nodup
  refine ⟨pre, post, _, State.quiet_counts nodupPre fun y old => alone y ?_, new, ?_, nodupPost, ?_, ?_, alone, due, early, ?_⟩
  · rintro rfl
    exact new old
  · exact fun y mem => (List.pairwise_append.1 sorted).2.2 y mem x List.mem_cons_self
  · exact fun y later old => disjoint y old y (List.mem_cons_of_mem _ later) rfl
  · exact fun y later => timersInTurn_other y (by rw [split]; simp [later])
  · rw [State.tick_eq, folded]

section
variable {pre post : List Timer} (k : s.Turn x pre post t)
include k

theorem State.Turn.due_now : t.timerDue x := (k.before.due_iff k.waits).2 k.due

/-- A timer with a later place has not counted when x acts. -/
theorem State.Turn.not_yet {y : Timer} (later : x.rank < y.rank) : y ∉ pre := fun old => Nat.not_le_of_lt later (k.order y old)

/-- The timers of the turn leave the beat as it was, so it is not due when its place comes. -/
theorem State.Turn.tick_beat : s.tick = (((post.foldl State.count (t.count x))).setBeat
    { s.beat with interval := s.beat.interval + 1 }).settle := by
  have before : t.beat = s.beat := by rw [k.before.beat, if_neg (k.not_yet (Timer.rank_lt_beat k.early))]
  have beat : (post.foldl State.count (t.count x)).beat = s.beat :=
    (State.remembers_counts k.other (t.count x)).beat.trans ((Drift.count t k.early).remembers.beat.trans before)
  have calm : ¬(post.foldl State.count (t.count x)).timerDue .beat := by
    rw [State.timerDue, beat]
    exact k.alone _ (Ne.symm k.early)
  rw [k.tick, State.count, State.tickBeat_calm calm, beat]

theorem State.Turn.remembers : (∀ h, ((t.count x).seq h).results <+: (s.tick.seq h).results) ∧
    ∀ {q : Port} {n : Notice}, n ∈ ((t.count x).port q).notices → (n.kind q).isSome = true →
      n ∈ (s.tick.port q).notices := by
  have later := State.remembers_counts k.other (t.count x)
  rw [k.tick_beat]
  generalize post.foldl State.count (t.count x) = u at later
  have settled := (Cascade.settle (u.setBeat { s.beat with interval := s.beat.interval + 1 })).remembers
  exact ⟨fun h => (later.results h).trans (settled.results h),
    fun raised held => settled.notice (later.notice raised held) held⟩

/-- What comes after x spares a head that rests once x has acted. -/
theorem State.Turn.spares (rest : (t.count x).Resting h)
    (calm : ∀ l, .recovery l ≠ x → (t.count x).timerDue (.recovery l) → t.timerDue (.recovery l)) :
    Aside h (t.count x) s.tick ∧ ∀ p, x = .stall p → (t.count x).HeldStill p h →
      (s.tick.base p).stalled = true ∧ (s.tick.base p).stallTimer = none := by
  obtain ⟨new, nodup⟩ := List.nodup_cons.1 k.nodup
  have later := State.spares_counts nodup rest k.other fun l mem due => by
    have ne : Timer.recovery l ≠ x := fun same => new (same ▸ mem)
    exact k.alone _ ne ((k.before.due_iff (k.apart _ mem)).1 (calm l ne due))
  rw [k.tick_beat]
  generalize post.foldl State.count (t.count x) = u at later
  refine ⟨later.toAside.trans (Aside.trans (t := u.setBeat { s.beat with interval := s.beat.interval + 1 }) {} (.settle _)),
    fun p own held => ?_⟩
  have held' : u.HeldStill p h := later.held p (own ▸ new) held
  exact State.HeldStill.settle (h := h) (held'.keep rfl)

end

/-! ## A dwell and a TIME step end: the result is appended (R30, R60) -/

theorem State.results_tickDwell {w : Working} (due : s.timerDue (.dwell h)) (step : (s.seq h).activity = some (.step w)) :
    ∃ k : ResultRecord, (s.seq h).results ++ [k] <+: ((s.tickDwell h).seq h).results ∧ k.index = w.index ∧
      k.outcome = .completed ∧ k.startBeat = w.startBeat ∧ k.endBeat = s.beat.counter := by
  obtain ⟨v, dwells, short⟩ := due
  obtain ⟨-, step'⟩ := State.runningStep_eq_some_iff.1 (State.dwelling_eq_some_iff.1 dwells).1
  obtain rfl : w = v := by
    rw [step] at step'
    cases step'
    rfl
  let v : Working := { w with dwellRemaining := 0 }
  have ends : s.tickDwell h = (s.setWorking h v).finishStep h .completed := by
    rw [State.tickDwell, dwells]
    exact (if_pos short).trans (State.endDwell_some dwells)
  have seq : (s.setWorking h v).seq h = { s.seq h with activity := some (.step v) } := State.seq_setSeq_self ..
  have results := State.results_finishStep (State.current_setWorking s h v) .completed
  obtain ⟨a, m, f, collected⟩ := (s.setWorking h v).collect_eq h v
  rw [seq, collected] at results
  rw [ends]
  exact ⟨_, results, rfl, rfl, rfl, rfl⟩

theorem State.results_accrue {w : Working} {r : PolishRecord} {limit : Nat} (due : s.timerDue (.time p))
    (owner : (s.base p).owner = some ⟨h, limit, .time⟩) (owned : s.ownedPlaten h = some p)
    (current : (s.seq h).activity = some (.step w)) (kind : w.record.kind = .polish r) (last : (s.base p).accumulator + 1 = limit)
    (phase : w.phase = some .polish) :
    ∃ k : ResultRecord, (s.seq h).results ++ [k] <+: ((s.accrue p .time).seq h).results ∧ k.index = w.index ∧
      k.accrued = limit ∧ k.outcome = r.atLimit := by
  obtain ⟨gate, -⟩ := due
  have step : s.runningStep h = some w :=
    State.runningStep_eq_some_iff.2 ⟨State.running_of_gate owner gate, current⟩
  have ends : w.due ((s.base p).accumulator + 1) limit = some (r.atLimit, false) := by
    rw [Working.due_polish kind phase, if_pos (Nat.le_of_eq last.symm)]
  have accrues : s.accrues p = true := by
    rw [State.accrues, gate, owner]
    rfl
  have now : (s.accrued p ((s.base p).accumulator + 1)).current h = some w := State.current_of_running step
  have results := State.results_endDue now r.atLimit false
  obtain ⟨index, accrued, outcome, -⟩ := State.dueResult_accrued (w := w) owned ((s.base p).accumulator + 1) r.atLimit false
  rw [State.accrue_time accrues, State.accrueTo_ends owner step ends]
  exact ⟨_, results, index, accrued.trans last, outcome⟩

/-! ## A band timer, a move limit timer and a stall timer end: their head is taken (R72, R13, R55) -/

variable {a : Activity}

theorem State.Resting.of_intervention {k : Intervention} {cs : List Cause} {y : Option ParkProgress}
    (busy : (s.seq h).activity = some (.intervention k cs y)) (up : s.isDown h = false)
    (still : ∀ o d n m, (s.carrier h).position ≠ .inTransit o d (.moving n m)) : s.Resting h where
  step := by
    rw [State.runningStep, State.current, busy]
    exact ite_self _
  up := up
  still := still

theorem Carrier.halt_not_moving (c : Carrier) (o d : StationId) (n m : Nat) : c.halt.position ≠ .inTransit o d (.moving n m) := by
  intro moving
  have still := c.halt_still
  rw [moving] at still
  cases still

theorem Carrier.halt_counted (c : Carrier) : c.counted.halt.position = c.halt.position := by
  by_cases transit : ∃ o d n m, c.position = .inTransit o d (.moving n m)
  · obtain ⟨o, d, n, m, moving⟩ := transit
    rw [Carrier.counted_moving moving, Carrier.halt_moving moving, Carrier.halt_moving (c := { c with position := _ }) rfl]
  · rw [Carrier.counted_still fun o d n m moving => transit ⟨o, d, n, m, moving⟩]

theorem State.tickBand_late (due : s.timerDue (.band h)) :
    ∃ z, s.tickBand h = (s.setZone h z).raiseCause h .pressureBand := by
  have zone : (s.modZone h ZoneMonitor.tick).zone h = (s.zone h).tick := State.zone_setZone_self ..
  have late : ((s.modZone h ZoneMonitor.tick).zone h).bandDue = true := by
    rw [zone]
    exact (ZoneMonitor.bandDue_tick _).2 due
  have running : ((s.modZone h ZoneMonitor.tick).zone h).bandRunning = true := by
    unfold ZoneMonitor.bandDue ZoneMonitor.bandRunning at *
    grind
  have expires : s.tickBand h = (s.modZone h ZoneMonitor.tick).bandExpiry h := if_pos late
  rw [expires, State.bandExpiry_running running]
  exact ⟨_, by rw [State.modZone_eq, State.setZone_setZone]⟩

end Sys2Proof.Machine
end

section
/-!
PROOFS. What each timer does that alone comes to its end, and that the rest of the millisecond leaves it so (R30, R72, R13, R55,
R56, R92, R60).
-/
namespace Sys2Proof.Machine

variable {s t : State} {h : HeadId} {p : PlatenId} {l : LineId}

/-! ## What the timers before it have left -/

section
variable {ys : List Timer} (k : s.Quiet ys t)
include k

theorem State.Quiet.base_still (stall : .stall p ∉ ys) (time : .time p ∉ ys) : t.base p = s.base p := by
  rw [k.base, decide_eq_false stall, decide_eq_false time]
  rfl

theorem State.Quiet.collect (time : ∀ p, .time p ∉ ys) (w : Working) : t.collect h w = s.collect h w := by
  refine State.collect_congr (fun p => k.owner p) (fun p => ?_) (fun p => ?_) h w
  · rw [k.base, decide_eq_false (time p)]
    rfl
  · rw [k.base]
    rfl

theorem State.Quiet.saved (time : ∀ p, .time p ∉ ys) (a : Activity) : t.saved h a = s.saved h a := by
  cases a with
  | step w => rw [State.saved, k.collect time, State.saved]
  | intervention k cs x => rfl

theorem State.Quiet.halt_position (h : HeadId) : (t.carrier h).halt.position = (s.carrier h).halt.position := by
  rw [k.carrier]
  split
  · exact Carrier.halt_counted _
  · rfl

theorem State.Quiet.ownedPlaten (h : HeadId) : t.ownedPlaten h = s.ownedPlaten h := by
  unfold State.ownedPlaten
  simp only [k.owner]

end

/-! ## The band timer (R72) -/

theorem State.Turn.band {pre post : List Timer} {a : Activity} (k : s.Turn (.band h) pre post t)
    (running : (s.seq h).state = .running) (busy : (s.seq h).activity = some a) (still : s.dwelling h = none) (lower : a.rank < 2)
    (room : (s.seq h).stack.length < 2) :
    s.tick.seq h = Sequencer.bump { s.seq h with
        activity := some (.intervention .lift [.pressureBand] none)
        stack := ⟨s.saved h a, (s.carrier h).halt.position.transit?⟩ :: (s.seq h).stack } ∧
      s.tick.isDown h = false ∧ .intervened h ∈ (s.tick.port .recipe).notices := by
  have seq : t.seq h = s.seq h := k.before.seq_still still
  have time : ∀ p, .time p ∉ pre := fun p => k.not_yet (by simp [Timer.rank])
  obtain ⟨z, expires⟩ := State.tickBand_late k.due_now
  obtain ⟨seq', carrier', up', notice'⟩ := State.raiseCause_lift (s := t.setZone h z) (h := h) (a := a) (c := .pressureBand) rfl
    (by rw [State.seq_setZone, seq]; exact running) (by rw [State.seq_setZone, seq]; exact busy) lower
    (by rw [State.seq_setZone, seq]; exact room)
  rw [← expires] at seq' carrier' up' notice'
  rw [State.seq_setZone, seq, State.carrier_setZone, k.before.halt_position,
    show (t.setZone h z).saved h a = t.saved h a from rfl, k.before.saved time] at seq'
  have rest : (t.count (.band h)).Resting h := .of_intervention (by rw [State.count, seq']; rfl) up' fun o d n m => by
    rw [State.count, carrier']
    exact Carrier.halt_not_moving _ _ _ _ _
  obtain ⟨aside, -⟩ := k.spares rest fun l _ due => (Acts.tickBand t h).calm (.tickBand ..) due
  exact ⟨aside.seq.trans seq', aside.isDown.trans up', k.remembers.2 notice' rfl⟩

/-! ## The move limit timer (R13) -/

theorem State.Turn.move {pre post : List Timer} (k : s.Turn (.move h) pre post t) {o d : StationId} {n m : Nat}
    (moving : (s.carrier h).position = .inTransit o d (.moving n m)) (still : s.dwelling h = none) :
    s.tick.carrier h = { s.carrier h with position := .inTransit o d .halted, sent := (s.carrier h).sent ++ [.halt] } ∧
      s.tick.seq h = { s.seq h with state := (s.seq h).state.halt .moveFault } ∧
      .halted h ∈ (s.tick.port .recipe).notices := by
  have seq : t.seq h = s.seq h := k.before.seq_still still
  have carrier : t.carrier h = s.carrier h := (k.before.carrier h).trans (if_neg k.waits)
  have moving' : (t.carrier h).position = .inTransit o d (.moving n m) := by rw [carrier]; exact moving
  have late : m ≤ n + 1 := by
    obtain ⟨o', d', n', m', transit, late⟩ := k.due
    rw [moving] at transit
    cases transit
    exact late
  have counted : ((t.setCarrier h (t.carrier h).counted).carrier h).position = .inTransit o d (.moving (n + 1) m) := by
    rw [State.carrier_setCarrier_self, Carrier.counted_moving moving']
  have faults : t.count (.move h) = (t.setCarrier h (t.carrier h).counted).faultMove h := by
    rw [State.count, State.tickMove_moving moving', if_pos late]
  obtain ⟨carrier', seq', up', -, notice'⟩ := State.faultMove_effect counted
  rw [← faults] at carrier' seq' up' notice'
  rw [State.carrier_setCarrier_self, Carrier.counted_moving moving', carrier] at carrier'
  rw [State.seq_setCarrier, seq] at seq'
  have rest : (t.count (.move h)).Resting h := by
    refine ⟨?_, up', fun o d n m => ?_⟩
    · rw [State.runningStep, State.isRunning, seq']
      cases (s.seq h).state <;> rfl
    · rw [carrier']
      exact nofun
  obtain ⟨aside, -⟩ := k.spares rest fun l _ due => (Acts.tickMove t h).calm (.tickMove ..) due
  exact ⟨aside.carrier.trans carrier', aside.seq.trans seq', k.remembers.2 notice' rfl⟩

/-! ## The stall timer (R55, R56) -/

/-- Head h grinds on the turning platen p, at the speed that its POLISH step w asks for. -/
structure State.Grinding (s : State) (p : PlatenId) (h : HeadId) (w : Working) (r : PolishRecord) : Prop where
  clear : s.trip.tripped = false
  turning : 0 < (s.base p).speed
  on : s.headOn p = some h
  down : s.isDown h = true
  running : (s.seq h).state = .running
  current : (s.seq h).activity = some (.step w)
  kind : w.record.kind = .polish r
  platen : w.platen = some p
  speed : 0 < r.speed
  empty : (s.seq h).stack = []

variable {w : Working} {r : PolishRecord}

/-- What the stall makes of the head (R55, R56), before the millisecond is over. -/
theorem State.Grinding.lifts (k : s.Grinding p h w r) :
    (s.stall p).seq h = Sequencer.bump { s.seq h with
        activity := some (.intervention .lift [.platenStall] none)
        stack := [⟨.step (s.collect h w).suspended, (s.carrier h).halt.position.transit?⟩] } ∧
      (s.stall p).isDown h = false := by
  obtain ⟨-, -, seq, up⟩ := State.stall_effect k.clear k.turning k.on k.down k.running k.current k.kind k.platen k.speed k.empty
  rw [State.seq_settle] at seq
  rw [State.isDown_settle] at up
  exact ⟨seq, up⟩

theorem State.Grinding.heldStill (k : s.Grinding p h w r) : (s.stall p).HeldStill p h := by
  obtain ⟨seq, -⟩ := k.lifts
  have seated : Seated (s.modBase p Timebase.stall) (s.stall p) := by
    rw [State.stall_head k.on k.down]
    exact .raiseCause _ _ (by decide)
  have base : (s.modBase p Timebase.stall).base p = (s.base p).stall := State.base_setBase_self ..
  obtain ⟨a, l, f, collected⟩ := s.collect_eq h w
  exact {
    holder := (seated.holder _).trans (State.headOn_eq_some_iff.1 k.on)
    clear := by
      rw [State.stall_head k.on k.down, (Cascade.raiseCause ..).trip]
      exact k.clear
    running := by rw [seq]; exact k.running
    asked := by
      rw [seq, Sequencer.speedOn_lift (w := (s.collect h w).suspended.bump) (r := r) rfl rfl (by rw [collected]; exact k.kind)
        (by rw [collected]; exact k.platen)]
      exact k.speed
    turning := by rw [seated.speed, base]; exact k.turning
    stalled := by rw [seated.stalled, base]; rfl
    timer := by rw [seated.stallTimer, base]; rfl }

theorem State.Grinding.carrier (k : s.Grinding p h w r) : (s.stall p).carrier h = (s.carrier h).halt := by
  rw [State.stall_head k.on k.down]
  exact (State.raiseCause_lift (s := s.modBase p Timebase.stall) (h := h) (c := .platenStall) rfl k.running k.current Nat.two_pos
    (by rw [State.modBase_eq, State.seq_setBase, k.empty]; exact Nat.two_pos)).2.1

theorem State.Grinding.resting (k : s.Grinding p h w r) : (s.stall p).Resting h :=
  .of_intervention (by rw [k.lifts.1]; rfl) k.lifts.2 fun o d n m => by
    rw [k.carrier]
    exact Carrier.halt_not_moving _ _ _ _ _

theorem State.Grinding.calm (k : s.Grinding p h w r) (due : (s.stall p).timerDue (.recovery l)) : s.timerDue (.recovery l) := by
  rw [State.stall_head k.on k.down] at due
  exact (Acts.raiseCause (W := (· = h)) (D := fun _ => True) (c := .platenStall) rfl (s.modBase p Timebase.stall) nofun).calm
    (.raiseCause ..) due

/-- A POLISH step is no DWELL step. -/
theorem State.dwelling_polish (current : (s.seq h).activity = some (.step w)) (kind : w.record.kind = .polish r) :
    s.dwelling h = none := by
  cases dwells : s.dwelling h with
  | none => rfl
  | some v =>
    obtain ⟨step, ⟨n, other⟩, -⟩ := State.dwelling_eq_some_iff.1 dwells
    obtain ⟨-, same⟩ := State.runningStep_eq_some_iff.1 step
    rw [current] at same
    cases same
    rw [kind] at other
    cases other

theorem State.tickStall_late (due : s.timerDue (.stall p)) :
    s.tickStall p = (s.setBase p ((s.base p).counted true false)).stall p := by
  obtain ⟨n, timer, late⟩ := due
  rw [State.tickStall_running timer, if_pos late, State.stallExpiry_running]
  rw [State.base_setBase_self, Timebase.counted, timer]
  exact nofun

theorem State.Turn.stall {pre post : List Timer} (k : s.Turn (.stall p) pre post t) (grinds : s.Grinding p h w r) :
    (s.tick.base p).stalled = true ∧ (s.tick.base p).stallTimer = none ∧
      s.tick.seq h = Sequencer.bump { s.seq h with
        activity := some (.intervention .lift [.platenStall] none)
        stack := [⟨.step (s.collect h w).suspended, (s.carrier h).halt.position.transit?⟩] } ∧
      s.tick.isDown h = false := by
  have seq : t.seq h = s.seq h := k.before.seq_still (State.dwelling_polish grinds.current grinds.kind)
  have time : ∀ q, .time q ∉ pre := fun q => k.not_yet (by simp [Timer.rank])
  let v : State := t.setBase p ((t.base p).counted true false)
  have expires : t.count (.stall p) = v.stall p := State.tickStall_late k.due_now
  have base : v.base p = (s.base p).counted true false := by
    rw [← k.before.base_still k.waits (time p)]
    exact State.base_setBase_self ..
  have collect : v.collect h w = s.collect h w := by
    rw [← k.before.collect time]
    exact State.collect_modBase (f := fun b => b.counted true false) rfl rfl rfl h w
  have grinds' : v.Grinding p h w r := {
    grinds with
    clear := (congrArg TripUnit.tripped k.before.trip).trans grinds.clear
    turning := by rw [base]; exact grinds.turning
    on := (k.before.headOn p).trans grinds.on
    down := (k.before.isDown h).trans grinds.down
    running := (congrArg Sequencer.state seq).trans grinds.running
    current := (congrArg Sequencer.activity seq).trans grinds.current
    empty := (congrArg Sequencer.stack seq).trans grinds.empty }
  obtain ⟨aside, held⟩ := k.spares (h := h) (by rw [expires]; exact grinds'.resting) fun l _ due => by
    rw [expires] at due
    exact grinds'.calm due
  rw [expires] at aside held
  obtain ⟨stalled, timer⟩ := held p rfl grinds'.heldStill
  obtain ⟨lifted, up⟩ := grinds'.lifts
  rw [show v.seq h = s.seq h from seq, collect,
    show (v.carrier h).halt.position = (s.carrier h).halt.position from k.before.halt_position h] at lifted
  exact ⟨stalled, timer, aside.seq.trans lifted, aside.isDown.trans up⟩

/-! ## Results (R30, R60) -/

theorem State.Turn.dwell {pre post : List Timer} (k : s.Turn (.dwell h) pre post t)
    (current : (s.seq h).activity = some (.step w)) :
    ∃ x : ResultRecord, (s.seq h).results ++ [x] <+: (s.tick.seq h).results ∧ x.index = w.index ∧ x.outcome = .completed ∧
      x.startBeat = w.startBeat ∧ x.endBeat = s.beat.counter := by
  have seq : t.seq h = s.seq h := (k.before.seq h).trans (if_neg k.waits)
  have beat : t.beat = s.beat := by rw [k.before.beat, if_neg (k.not_yet (by simp [Timer.rank]))]
  obtain ⟨x, results, index, outcome, startBeat, endBeat⟩ :=
    State.results_tickDwell k.due_now ((congrArg Sequencer.activity seq).trans current)
  rw [seq] at results
  exact ⟨x, results.trans (k.remembers.1 h), index, outcome, startBeat, by rw [← beat]; exact endBeat⟩

theorem State.Turn.time {pre post : List Timer} {limit : Nat} (k : s.Turn (.time p) pre post t)
    (owner : (s.base p).owner = some ⟨h, limit, .time⟩) (owned : s.ownedPlaten h = some p)
    (current : (s.seq h).activity = some (.step w)) (kind : w.record.kind = .polish r) (last : (s.base p).accumulator + 1 = limit)
    (phase : w.phase = some .polish) :
    ∃ x : ResultRecord, (s.seq h).results ++ [x] <+: (s.tick.seq h).results ∧ x.index = w.index ∧ x.accrued = limit ∧
      x.outcome = r.atLimit := by
  have seq : t.seq h = s.seq h := k.before.seq_still (State.dwelling_polish current kind)
  have units : (t.base p).accumulator = (s.base p).accumulator := by
    rw [k.before.base, decide_eq_false k.waits]
    rfl
  obtain ⟨x, results, record⟩ := State.results_accrue k.due_now ((k.before.owner p).trans owner)
    ((k.before.ownedPlaten h).trans owned) ((congrArg Sequencer.activity seq).trans current) kind (by rw [units]; exact last) phase
  rw [seq] at results
  exact ⟨x, results.trans (k.remembers.1 h), record⟩

end Sys2Proof.Machine
end

section
/-!
PROOFS. A line recovers in the millisecond in which its recovery timer alone comes to its end (R92, R121), and the settling of O2.
-/
namespace Sys2Proof.Machine

variable {s t : State} {h g : HeadId} {p : PlatenId} {l : LineId}

/-! ## What makes a timer due -/

theorem State.gate_congr (bases : t.bases = s.bases) (zones : t.zones = s.zones) (step : ∀ g, t.runningStep g = s.runningStep g)
    (p : PlatenId) : t.gate p = s.gate p := by
  have base : t.base p = s.base p := congrArg (·.get p) bases
  cases owner : (s.base p).owner with
  | none => rw [State.gate, State.gate, base, owner]
  | some o =>
    rw [State.gate_eq_any owner, State.gate_eq_any (by rw [base]; exact owner), base, step,
      show t.zone o.head = s.zone o.head from congrArg (·.get o.head) zones]

theorem State.timerDue_congr (bases : t.bases = s.bases) (zones : t.zones = s.zones) (carriers : t.carriers = s.carriers)
    (beat : t.beat = s.beat) (step : ∀ g, t.runningStep g = s.runningStep g) {y : Timer}
    (line : ∀ l, y = .recovery l → t.line l = s.line l) : t.timerDue y ↔ s.timerDue y := by
  cases y with
  | dwell h => rw [State.timerDue, State.timerDue, State.dwelling, State.dwelling, step]
  | band h => rw [State.timerDue, State.timerDue, State.zone, State.zone, zones]
  | move h => rw [State.timerDue, State.timerDue, State.carrier, State.carrier, carriers]
  | stall p => rw [State.timerDue, State.timerDue, State.base, State.base, bases]
  | recovery l => rw [State.timerDue, State.timerDue, line l rfl]
  | time p => simp only [State.timerDue, State.gate_congr bases zones step, step, State.base, bases]
  | beat => rw [State.timerDue, State.timerDue, beat]

/-! ## The recovery -/

theorem State.runningStep_forget (same : t.seq g = (s.seq g).forget l) : t.runningStep g = s.runningStep g := by
  unfold State.runningStep State.isRunning State.current
  rw [same]
  cases activity : (s.seq g).activity with
  | none => simp [Sequencer.forget, activity]
  | some a => cases a <;> simp [Sequencer.forget, activity, Activity.dropCause]

theorem State.Quiet.stays {ys : List Timer} (k : s.Quiet ys t) (stay : s.stays l g) : t.stays l g := by
  cases dwells : s.dwelling g with
  | none =>
    unfold State.stays State.isRunning at stay ⊢
    rw [k.seq_still dwells]
    exact stay
  | some w =>
    obtain ⟨n, step⟩ := k.runningStep_dwelling dwells
    intro _ j cs x busy
    rw [(State.runningStep_eq_some_iff.1 step).2] at busy
    cases busy

theorem State.Quiet.wait {ys : List Timer} (k : s.Quiet ys t) (l : LineId) : (t.line l).wait = (s.line l).wait := by
  rw [k.line]
  split <;> rfl

theorem State.tickRecovery_late (due : s.timerDue (.recovery l)) :
    s.tickRecovery l = (s.setLine l (s.line l).counted).recoverLine l := by
  obtain ⟨n, faulted, late⟩ := due
  rw [State.tickRecovery_faulted faulted, if_pos late, State.recoveryExpiry_of (n := n + 1)]
  rw [State.line_setLine_self, Line.counted_faulted faulted]

/-- A line that no nozzle waits for, and whose fault ends no intervention, is IDLE again and nothing else happens (R92, R121). -/
theorem State.tickRecovery_stays (due : s.timerDue (.recovery l)) (empty : ∀ k, (s.line k).wait = [])
    (stay : ∀ g, s.stays l g) :
    ∃ q, s.tickRecovery l = { s.setLine l { s.line l with state := .idle } with seqs := q } ∧
      ∀ g, (s.tickRecovery l).runningStep g = s.runningStep g := by
  let v : State := s.setLine l (s.line l).counted
  have empty' : ∀ k, (v.line k).wait = [] := fun k => by
    rw [State.line_setLine]
    split
    · exact empty l
    · exact empty k
  have back : v.lineBack l = s.setLine l { s.line l with state := .idle } := by
    rw [State.lineBack, State.line_setLine_self, State.setLine_setLine]
    rfl
  have free : (v.lineBack l).handOnAll = v.lineBack l := State.handOnAll_of_free (State.idleLinesFree_lineBack empty')
  obtain ⟨q, delivered, kept⟩ := State.deliverRecovery_stays (s := v.lineBack l) (l := l) stay
  have recovers : s.tickRecovery l = (v.lineBack l).deliverRecovery l := by
    rw [State.tickRecovery_late due, State.recoverLine_eq, free]
  refine ⟨q, by rw [recovers, delivered, back], fun g => ?_⟩
  rw [recovers]
  exact State.runningStep_forget (kept g)

theorem State.Turn.recovery {pre post : List Timer} (k : s.Turn (.recovery l) pre post t) (empty : ∀ k, (s.line k).wait = [])
    (stay : ∀ g, s.stays l g) : s.tick.line l = { s.line l with state := .idle } := by
  obtain ⟨new, nodup⟩ := List.nodup_cons.1 k.nodup
  have own : t.line l = s.line l := (k.before.line l).trans (if_neg k.waits)
  obtain ⟨q, recovered, steps⟩ := State.tickRecovery_stays k.due_now (fun j => (k.before.wait j).trans (empty j))
    fun g => k.before.stays (stay g)
  have calm : ∀ y ∈ post, ¬(t.count (.recovery l)).timerDue y := fun y later due => by
    have ne : y ≠ .recovery l := fun same => new (same ▸ later)
    refine k.alone y ne ((k.before.due_iff (k.apart y later)).1 ((State.timerDue_congr ?_ ?_ ?_ ?_ steps fun j same => ?_).1 due))
    · rw [recovered]; rfl
    · rw [recovered]; rfl
    · rw [recovered]; rfl
    · rw [recovered]; rfl
    · rw [recovered, State.line_withSeqs]
      exact State.line_setLine_ne _ _ fun e => ne (by rw [same, e])
  have quiet := State.quiet_counts nodup calm
  rw [k.tick_beat, State.line_settle]
  refine (quiet.line l).trans ?_
  rw [if_neg new, State.count, recovered, State.line_withSeqs, State.line_setLine_self, own]

/-! ## O2 -/

/-- Settles O2: the timers that are not due only count, the one that is due acts, and what comes after it in the millisecond spares
what it did. -/
theorem idleStepIsOneMillisecond : Obligations.IdleStepIsOneMillisecond := by
  refine ⟨fun s idle => ⟨step_idle idle, fun early => ?early, fun late => ?late⟩, fun s idle settled calm => ?calm,
    fun s x idle due alone => ⟨_, step_idle idle, ?dwell, ?band, ?move, ?stall, ?recovery, ?time⟩⟩
  case early => exact State.beat_tick_calm (Nat.not_le_of_lt early)
  case late => exact State.beat_tick_late late
  case calm =>
    have k := State.quiet_of_settled settled calm
    refine ⟨_, step_idle idle, k.counted, fun h still => k.seq_still still, fun h w n running step kind phase => ?_,
      fun h => ?_, fun h => ?_, fun l => ?_, fun p => ⟨k.base_all p, k.pad_all p⟩⟩
    · rw [k.seq, if_pos (mem_timers _)]
      exact State.counted_some (State.dwelling_of running step kind phase)
    · rw [k.zone, if_pos (mem_timers _)]
      exact ZoneMonitor.tick_eq _
    · rw [k.carrier, if_pos (mem_timers _)]
      rfl
    · rw [k.line, if_pos (mem_timers _)]
      rfl
  case dwell =>
    rintro h w rfl current
    obtain ⟨pre, post, t, k⟩ := State.turn (by simp) due alone
    exact k.dwell current
  case band =>
    rintro h a rfl running busy still lower room
    obtain ⟨pre, post, t, k⟩ := State.turn (by simp) due alone
    exact k.band running busy still lower room
  case move =>
    rintro h o d n m rfl moving still
    obtain ⟨pre, post, t, k⟩ := State.turn (by simp) due alone
    obtain ⟨carrier, seq, notice⟩ := k.move moving still
    refine ⟨carrier, seq.trans ?_, notice⟩
    cases (s.seq h).state <;> rfl
  case stall =>
    rintro p h w r rfl clear on down running current kind platen speed turning empty
    obtain ⟨pre, post, t, k⟩ := State.turn (by simp) due alone
    exact k.stall ⟨clear, turning, on, down, running, current, kind, platen, speed, empty⟩
  case recovery =>
    rintro l rfl empty stay
    obtain ⟨pre, post, t, k⟩ := State.turn (by simp) due alone
    exact k.recovery empty stay
  case time =>
    rintro p h w r limit rfl owner owned current kind last phase fresh
    obtain ⟨pre, post, t, k⟩ := State.turn (by simp) due alone
    exact k.time owner owned current kind last phase

end Sys2Proof.Machine
end
